-- ==== Sys2Proof/Word.lean ====
section
/-! DEFINITION. The word types and their plainest arithmetic: bytes, words of the part's 4-byte and 8-byte registers. -/

namespace Sys2Proof

/-- One byte of memory. -/
abbrev Byte := BitVec 8

/-- A 4-byte word, the unit of a BAR0 access (R14). -/
abbrev Word32 := BitVec 32

/-- An 8-byte value: a pair (R16), a sync cell, an address. -/
abbrev Word64 := BitVec 64

/-- Saturating subtraction is what `Nat` subtraction already is; the smaller of two naturals. -/
def minNat (a b : Nat) : Nat := if a ≤ b then a else b

/-- The larger of two naturals. -/
def maxNat (a b : Nat) : Nat := if a ≤ b then b else a

/-- A value clamped to a range. -/
def clampNat (lo hi v : Nat) : Nat := minNat (maxNat v lo) hi

end Sys2Proof
end

