-- ==== Sys2Proof/Types.lean ====
section
/-! DEFINITION. The record types that commands carry and the state holds: request descriptors, booking lines, error
records, chain messages, the parsed itinerary. Each follows a record format of spec/; a record's reserved fields are
checked where the record is read and are not kept. -/

namespace Sys2Proof

/-- A decoded request descriptor (R289). -/
structure Desc where
  opcode      : Nat := 0
  flags       : Nat := 0
  seqIndex    : Nat := 0
  streamIndex : Nat := 0
  userTag     : Nat := 0
  promptVa    : Nat := 0
  promptLen   : Nat := 0
  maxTokens   : Nat := 0
  tringBase   : Nat := 0
  tringLog2   : Nat := 0
  stopCount   : Nat := 0
  topK        : Nat := 0
  deadlineUs  : Nat := 0
  stopTokens  : List Nat := []
  temperature : Nat := 0
  topP        : Nat := 0
  sampleSeed  : Nat := 0
  syncCell    : Nat := 0
  syncValue   : Nat := 0
  deriving DecidableEq, Repr

/-- A message of the chain (R330): its type, virtual channel, source and destination room, identifier, address word,
length and payload. `bytes` is MSG_BYTES where the message carries no payload of that length (T3_READ). -/
structure ChainMsg where
  msgType : Nat
  vc      : Nat := 0
  src     : Nat := 0
  dst     : Nat := 0
  id      : Nat := 0
  addr    : Nat := 0
  bytes   : Nat := 0
  payload : List Byte := []
  deriving DecidableEq, Repr

/-- A flit (R329), without its CRC and reserved bytes: `kind` is 0 idle, 1 message, 2 link control; `credits` holds one
number for each virtual channel. -/
structure Flit where
  kind     : Nat := 0
  vc       : Nat := 0
  lines    : Nat := 0
  first    : Bool := false
  last     : Bool := false
  seq      : Nat := 0
  ack      : Nat := 0
  credits  : List Nat := [0, 0, 0, 0]
  dst      : Nat := 0
  src      : Nat := 0
  msgType  : Nat := 0
  msgId    : Nat := 0
  msgAddr  : Nat := 0
  msgBytes : Nat := 0
  payload  : List Byte := []
  deriving DecidableEq, Repr

/-- A row of a step plan as a STEP message carries it to the next stage (R347): sequence and stream index, whether it has
a decode row, its chunk rows. The layout of a plan in bytes is not described. -/
structure SpanRow where
  seq    : Nat := 0
  stream : Nat := 0
  decode : Bool := false
  chunk  : Nat := 0
  deriving DecidableEq, Repr

/-- A transaction the part sends: what a host, a link peer or the board can see. -/
inductive Emit where
  /-- a posted write to host memory at a bus address; `ordered` says the relaxed-ordering bit is clear (R260) -/
  | hostWrite (addr : Nat) (bytes : List Byte) (ordered : Bool)
  /-- an MSI-X message: its vector, and the address and data of the vector's table entry (R298) -/
  | msix (vector addr data : Nat)
  /-- a flit sent on a Tendi port (0 fore, 1 aft) -/
  | flit (port : Nat) (f : Flit)
  /-- a reply to the board's management controller (MCTP, R405) -/
  | mctp (bytes : List Byte)
  /-- an advisory non-fatal error message (R300) -/
  | aer
  /-- a PMBus order to the core regulator: the VDD_CORE setpoint in mV (R359) -/
  | pmbus (millivolt : Nat)
  deriving DecidableEq, Repr

/-- One line of a booking (R261): a tier-0 line address with 64 bytes and a mask of the bytes written or compared. -/
structure BookLine where
  check : Bool
  addr  : Nat
  bytes : List Byte
  mask  : List Bool
  deriving DecidableEq, Repr

/-- An error record (R409). Absent fields hold the values R409 gives them. -/
structure ErrRec where
  seq       : Nat := 0
  cls       : Nat := 0
  sev       : Nat := 0
  code      : Nat := 0
  timeKc    : Nat := 0
  code2     : Nat := 0
  merged    : Nat := 0
  lastDelta : Nat := 0
  userTag   : Nat := 0
  rq        : Nat := 0xFFFF
  context   : Nat := 0xFFFF
  fetchIdx  : Nat := 0
  partition : Nat := 0xFF
  tile      : Nat := 0xFF
  location  : Nat := 0xFFFF
  detail    : Nat := 0
  addr      : Nat := 0
  step      : Nat := 0
  deriving DecidableEq, Repr

/-- A daybook entry (R401). -/
structure DayEntry where
  seq    : Nat := 0
  type   : Nat := 0
  point  : Nat := 0
  code   : Nat := 0
  timeKc : Nat := 0
  data   : List Nat := [0, 0, 0, 0]
  deriving DecidableEq, Repr

/-- A context record (R378). -/
structure CtxRec where
  rootPa        : Nat := 0
  seqVa         : Nat := 0
  seqEntries    : Nat := 0
  streamEntries : Nat := 0
  streamVa      : Nat := 0
  poolVa        : Nat := 0
  poolN         : Nat := 0
  retN          : Nat := 0
  retVa         : Nat := 0
  saveVa        : Nat := 0
  saveHalf      : Nat := 0
  gbVa          : Nat := 0
  gbBytes       : Nat := 0
  gbEntries     : Nat := 0
  tenantId      : List Byte := []
  deriving DecidableEq, Repr

/-- A copy descriptor (R239). -/
structure CopyDesc where
  op       : Nat := 0
  flags    : Nat := 0
  context  : Nat := 0
  srcKind  : Nat := 0
  dstKind  : Nat := 0
  src      : Nat := 0
  dst      : Nat := 0
  len      : Nat := 0
  syncCell : Nat := 0
  pattern  : Nat := 0
  tag      : Nat := 0
  reservedZero : Bool := true
  deriving DecidableEq, Repr

/-! The parsed itinerary image (R48 to R60 and the section formats of the later chapters). -/

/-- A partition descriptor (R50). -/
structure PartDesc where
  role         : Nat := 0
  divLimit     : Nat := 0
  maxRows      : Nat := 0
  tileMask     : Nat := 0
  tFix         : Nat := 0
  tScatter     : Nat := 0
  bCel         : Nat := 0
  bDram        : Nat := 0
  chunkTokens  : Nat := 0
  maxStepBeats : Nat := 0
  deriving DecidableEq, Repr

/-- A bank-plan phase entry (R55): the owners field is 32 four-bit codes. -/
structure PhaseEntry where
  seg    : Nat
  start  : Nat
  tile   : Nat
  owners : Nat
  deriving DecidableEq, Repr

/-- A segment descriptor (R57). -/
structure Segment where
  segId      : Nat := 0
  repeatSrc  : Nat := 0
  lenBeats   : Nat := 0
  maxRepeat  : Nat := 0
  firstEntry : Nat := 0
  deriving DecidableEq, Repr

/-- A timetable entry (R57). -/
structure TimeEntry where
  start : Nat
  len   : Nat
  cls   : Nat
  flags : Nat
  index : Nat
  seg   : Nat
  opRef : Nat
  deriving DecidableEq, Repr

/-- A length bucket (R140). -/
structure Bucket where
  tileMask  : Nat := 0
  maxGroups : Nat := 0
  deriving DecidableEq, Repr

/-- The BUCKETS section (R140). -/
structure Buckets where
  attLayers    : Nat := 0
  kvHeads      : Nat := 0
  headGroups   : Nat := 0
  maxLen       : Nat := 0
  tokblkPages  : Nat := 0
  kvLayoutTag  : Nat := 0
  bucketCount  : Nat := 0
  entries      : List Bucket := []
  deriving DecidableEq, Repr

/-- A CELLAR_LAYOUT set entry (R209): the partition and model slot, whether a base is used, the layout tags, and for
each array its first page and its block count. -/
structure LayoutEntry where
  partition : Nat := 0
  form      : Nat := 0
  modelSlot : Nat := 0
  baseSlot  : Nat := 0
  layoutTag : Nat := 0
  baseLayoutTag : Nat := 0
  arrays    : List (Nat × Nat) := []
  deriving DecidableEq, Repr

/-- A STREAMS operator (R127): its state format, channels, byte offset and conversion site. -/
structure StreamOp where
  fmt       : Nat := 0
  channels  : Nat := 0
  offset    : Nat := 0
  site      : Nat := 0
  deriving DecidableEq, Repr

/-- A KERNELS directory entry and an invocation (R452): what the machine reads of them. -/
structure KernelEntry where
  cls      : Nat := 0
  flags    : Nat := 0
  mode     : Nat := 0
  threads  : Nat := 0
  bound    : Nat := 0
  bankMask : Nat := 0
  deriving DecidableEq, Repr

/-- A KERNELS tile record (R452): its image area by its offset in the itinerary image, and each invocation as directory
index, first thread slot and count. -/
structure TileKernels where
  tile        : Nat := 0
  kernelBanks : Nat := 0
  threads     : Nat := 0
  scratch     : Nat := 0
  imageOff    : Nat := 0
  imageLen    : Nat := 0
  dir         : List KernelEntry := []
  invocations : List (Nat × Nat × Nat) := []
  deriving DecidableEq, Repr

/-- A QUANT conversion entry (R117) with its rotation entry's size and sign mask (R118). -/
structure Site where
  siteId      : Nat := 0
  target      : Nat := 0
  round       : Nat := 0
  rotLog2     : Nat := 0
  rotSigns    : Nat := 0
  dynamic     : Bool := false
  staticZp    : Nat := 0
  staticScale : Nat := 0
  len         : Nat := 0
  seed        : Nat := 0
  deriving DecidableEq, Repr

/-- An MSE_SITES entry (R119). -/
structure MseEntry where
  siteId  : Nat := 0
  enabled : Bool := false
  shift   : Nat := 0
  conv    : Nat := 0
  deriving DecidableEq, Repr

/-- A chain span (R345): each route as stage and largest number of hops. -/
structure ChainSpan where
  spanId    : Nat := 0
  stages    : Nat := 0
  stage     : Nat := 0
  inPort    : Nat := 0xFF
  outPort   : Nat := 0xFF
  codec     : Nat := 0
  partition : Nat := 0
  elems     : Nat := 0
  inBytes   : Nat := 0
  outBytes  : Nat := 0
  routes    : List (Nat × Nat) := []
  deriving DecidableEq, Repr

/-- One partition's sections. `mse` holds one record of 64 entries for each tile, in ascending tile order. -/
structure PartImage where
  desc    : PartDesc := {}
  plan    : List PhaseEntry := []
  segs    : List Segment := []
  entries : List TimeEntry := []
  kernels : List TileKernels := []
  kvBits  : Nat := 0
  convs   : List Site := []
  /-- TENSOR_SCALE of each matrix entry (R117) -/
  tensors : List Nat := []
  mse     : List (List MseEntry) := []
  hasStreams : Bool := false
  stateTag : Nat := 0
  halfBytes : Nat := 0
  tableEntries : Nat := 0
  streams : List StreamOp := []
  deriving DecidableEq, Repr

/-- A validated itinerary image. -/
structure Image where
  totalLen   : Nat := 0
  itnId      : List Byte := []
  windowLog2 : Nat := 0
  chainWindowLog2 : Nat := 0
  compat     : Nat := 0
  parts      : List PartImage := []
  buckets    : Option Buckets := none
  layouts    : List LayoutEntry := []
  span       : Option ChainSpan := none
  deriving DecidableEq, Repr

/-! What a command brings with it beside numbers. -/

/-- The straps at the release of a reset (R435). -/
structure Straps where
  chainHead : Bool := false
  bootSel   : Bool := false
  spiVsel   : Bool := false
  deriving DecidableEq, Repr

/-- The configuration state of the function, as the host leaves it by configuration requests (R281, R283; log entry 104):
Memory Space Enable, the MSI-X enable and function mask, the payload and read-request sizes, the completion timeout's
range code, ASPM L1, the advisory non-fatal bit of the AER correctable status, and the size of BAR4 as a power of two. -/
structure PciConf where
  mem      : Bool := false
  msixEn   : Bool := false
  msixMask : Bool := false
  mps      : Nat := 128
  mrrs     : Nat := 512
  timeout  : Nat := 0
  aspmL1   : Bool := false
  advisory : Bool := false
  bar4Log2 : Nat := 28
  deriving DecidableEq, Repr

/-- What power control measures in one period of 100 µs (R362, R369): package power averaged over 1 ms and 10 ms and
core power over 10 ms, in 0.1 W; core current averaged over 100 µs and 10 ms, in A; the 40 logic sensors and the 16
Cellar sensors in °C; whether each PMBus transaction of the period is acknowledged. -/
structure PowerSample where
  pkg1ms   : Nat := 0
  pkg10ms  : Nat := 0
  core10ms : Nat := 0
  amp100us : Nat := 0
  amp10ms  : Nat := 0
  logic    : List Int := []
  cellar   : List Int := []
  deriving DecidableEq, Repr

/-- A run of bytes of a tile's scratch: inside one bank, or by the 23-bit address with a hash mask (R244). -/
inductive ScrRef where
  | bank (b off : Nat)
  | addr (a mask : Nat)
  deriving DecidableEq, Repr

/-- A row of FP32 elements that a kernel forms from the operations of R126. `tab` names a table of R125 in a kernel bank;
`slot` is a request slot; a second row of one element applies to every element of the first. -/
inductive RowExpr where
  /-- a constant of the kernel image -/
  | literal (vals : List Nat)
  /-- `len` FP32 or BF16 elements of scratch -/
  | f32 (src : ScrRef) (len : Nat)
  | bf16 (src : ScrRef) (len : Nat)
  /-- `len` FP32 (`wide`) or BF16 elements of a table in a kernel bank (R126) -/
  | image (wide : Bool) (src : ScrRef) (len : Nat)
  /-- the release read of columns of a tally row (R106): the matrix entry that gives S_t, and where s_a lies; none is 1.0 -/
  | release (arr half row first len : Nat) (matrix : Option Nat) (scale : Option ScrRef)
  | add (x y : RowExpr)
  | mul (x y : RowExpr)
  /-- silu(g) × u -/
  | gated (tab : ScrRef) (g u : RowExpr)
  | gelu (tab : ScrRef) (x : RowExpr)
  /-- RMS normalisation with ε and γ; layer normalisation with ε, γ and β -/
  | rms (tab : ScrRef) (eps : Nat) (x gamma : RowExpr)
  | layer (tab : ScrRef) (eps : Nat) (x gamma beta : RowExpr)
  /-- position rotation of the pairs of a row by rows of cosines and sines -/
  | position (x cos sin : RowExpr)
  /-- the block-Hadamard rotation of a conversion entry (R114) -/
  | hadamard (conv : Nat) (x : RowExpr)
  /-- the attention step of R154 on block `block` of 64 positions, for the row of a request slot, of which positions later
  than the row's own are masked (R153): the new maximum from the old and the scores; the weights from the scores and the
  new maximum; the new sum from the maxima, the old sum and the weights; the new output from the maxima, the old output
  and the block's result. `k` is κ. -/
  | attMax (slot : Nat) (chunkRow : Option Nat) (block : Nat) (m scores : RowExpr)
  | attWeights (tab : ScrRef) (k slot : Nat) (chunkRow : Option Nat) (block : Nat) (scores m : RowExpr)
  | attSum (tab : ScrRef) (k : Nat) (mOld m l w : RowExpr)
  | attOut (tab : ScrRef) (k : Nat) (mOld m o block : RowExpr)
  /-- 1/x of each element -/
  | recip (tab : ScrRef) (x : RowExpr)
  /-- `len` channels of an operator's previous state (R130), as FP32; `ext` holds the bytes where the page is not in
  tier 0 -/
  | state (slot op first len : Nat) (ext : List Byte)
  /-- fl(fl(a × h) + b) -/
  | stateStep (a h b : RowExpr)
  /-- the scan of one channel of a chunk, by position, from its carry (R131, R132) -/
  | scan (slot : Nat) (carry a b : RowExpr)
  /-- part of a row, and two rows in sequence -/
  | cut (first len : Nat) (x : RowExpr)
  | join (x y : RowExpr)
  deriving DecidableEq, Repr

/-- Bytes a kernel writes to a scratch bank of its tile (R245), for a request slot where its thread serves one. -/
structure ScrWrite where
  bank  : Nat := 0
  off   : Nat := 0
  bytes : List Nat := []
  slot  : Option Nat := none
  deriving DecidableEq, Repr

/-- Where a converted row goes: codes in a bank, with the parameters in the lines after its group, `r` the row there (R107);
channels of an operator's inactive state half from `first` on (R130), which its STATE_SITE converts; or the key (0) or
value (1) vector of a head of a layer in the sequence's range (R139, R156). `base` is where the codes of a row's group
begin in the bank, `off` where the row's own lie. -/
inductive ConvDest where
  | bank (b base off r : Nat)
  | state (op first : Nat)
  | kv (layer head kind : Nat)
  deriving DecidableEq, Repr

/-- A row that an entry converts (R110): the conversion entry, the row, the request slot it belongs to (none for a
padding row), its place in the slot's chunk (none for the decode row), and where it goes. -/
structure ConvRow where
  conv  : Nat := 0
  row   : RowExpr := .literal []
  slot  : Option Nat := none
  chunkRow : Option Nat := none
  dest  : ConvDest := .bank 0 0 0 0
  deriving DecidableEq, Repr

/-- The rows of one row group as an activation feeder reads them (R83, R107): 64 codes of each row, `stride` bytes apart
from byte `off` of a bank; the group's codes begin at `base` and are those of conversion entry `conv`. -/
structure FeedGroup where
  bank     : Nat := 0
  off      : Nat := 0
  stride   : Nat := 64
  base     : Nat := 0
  conv     : Nat := 0
  deriving DecidableEq, Repr

/-- A write to context memory by a kernel: the request slot whose data it carries, its address, its bytes. -/
structure MemWrite where
  slot  : Nat := 0
  va    : Nat := 0
  bytes : List Byte := []
  deriving DecidableEq, Repr

/-- A run of a tile's scratch that takes zeros in place of data (R29, R91). -/
structure ZeroRun where
  tile : Nat := 0
  dst  : ScrRef := .bank 0 0
  len  : Nat := 0
  deriving DecidableEq, Repr

/-- A transfer of a kernel (R24, R231): `len` bytes from context memory to scratch, where `ext` holds the bytes of a page
outside tier 0 and `fail` is 0 or the code with which the access fails (R29, R233); from scratch to context memory; over
the mesh link from a neighbouring tile's scratch; or from the secure region to scratch (R253). -/
inductive Move where
  | load (slot va : Nat) (dst : ScrRef) (len : Nat) (ext : List Byte) (fail : Nat)
  | store (slot va : Nat) (src : ScrRef) (len : Nat)
  | mesh (tile : Nat) (src dst : ScrRef) (len : Nat)
  | secure (off : Nat) (dst : ScrRef) (len : Nat)
  deriving DecidableEq, Repr

/-- What the kernel of a class-6 or class-7 entry does when it runs. The encoding of its image is not described (R88), so
the command carries the operations it issues, in stages that run one after another: in each the rows it forms and
converts, what it moves, releases and writes, the banks it reads besides, T-cycles lost to serialisation by bank (R246),
and what it meets: corrected and uncorrectable thread slots, scratch lines, DRAM lines and tally rows. -/
structure KernelRun where
  reads    : List Nat := []
  writes   : List ScrWrite := []
  convs    : List ConvRow := []
  moves    : List Move := []
  mem      : List MemWrite := []
  conflicts : List (Nat × Nat) := []
  /-- tally halves read after their release: array and half -/
  drains   : List (Nat × Nat) := []
  /-- a tally row with a parity error: array and row -/
  tallyBad : Option (Nat × Nat) := none
  eccThread : Nat := 0
  badThread : Option Nat := none
  eccLine  : Nat := 0
  badBank  : Option Nat := none
  /-- the line of that bank -/
  badLine  : Nat := 0
  /-- DRAM lines of its accesses that ECC corrected (R234) -/
  dramCorr : Nat := 0
  /-- an access of the run collides through a hardware fault (R30) -/
  collide  : Bool := false
  /-- fences that end the run: request slot, and scope 0 tile, 1 device, 2 host (R258) -/
  fences   : List (Nat × Nat) := []
  /-- the request slot whose thread issues a chain fence at the end of the run (R258, R344) -/
  fence    : Option Nat := none
  /-- what a Y8-compatible kernel writes to the secure region of its tile; `bank` is not used (R253) -/
  secure   : List ScrWrite := []
  deriving DecidableEq, Repr

/-- A firmware manifest's body (R417). -/
structure Manifest where
  signerSlot   : Nat := 0
  family       : Nat := 0x484C
  member       : Nat := 0x3200
  stepMin      : Nat := 0x21
  stepMax      : Nat := 0x21
  unitId       : List Byte := []
  version      : Nat := 0
  predVersion  : Nat := 0
  predDigest   : List Byte := []
  resultDigest : List Byte := []
  resultLen    : Nat := 4096
  patchBlocks  : Nat := 1
  hostIfMin    : Nat := 1
  hostIfMax    : Nat := 1
  compatLevel  : Nat := 1
  linkVer      : Nat := 1
  linkMin      : Nat := 1
  deriving DecidableEq, Repr

end Sys2Proof
end

