-- ==== Sys2Proof/Syntax.lean ====
section
/-! DEFINITION. The commands of the block: one constructor per row of spec/opcode_table.json, in the table's order.
A command is a host access, an event on a pin or a link, the completion of something an engine started, or a point
of a timetable. Its operands are what the event brings with it; data that comes from outside the part (a DMA's
bytes, a flash read's outcome, a peer's reply) is an operand, and so is a choice the spec leaves to timing. -/

namespace Sys2Proof

/-- A command. -/
inductive Instr where
/-- COLD_RST_ASSERT (R433): A low pulse of 2 µs or longer on COLD_RST_N resets the whole part; a pulse shorter than 1
  µs is ignored. Operands: ns is how long the pin is held. -/
  | coldRstAssert (ns : Nat)
/-- COLD_RST_RELEASE (R46): The release of COLD_RST_N leaves every engine disabled and inert and begins the start
  sequence with the root PLL. -/
  | coldRstRelease (straps : Straps)
/-- PERST_ASSERT (R434): PERST# resets the part as COLD_RST_N does, except for the Strongroom and the COLD_RST_N-only
  registers, counters and settings. Operands: ns is how long the pin is held. -/
  | perstAssert (ns : Nat)
/-- PERST_RELEASE (R46): The release of PERST# starts the start sequence of R46 under the exceptions of R434. -/
  | perstRelease (straps : Straps)
/-- HOT_RESET (R434): A PCI Express hot reset acts as PERST# and uses the last strap sample. -/
  | hotReset
/-- LINK_DISABLE (R434): A PCI Express link disable acts as PERST# and uses the last strap sample. -/
  | linkDisable
/-- FLR (R299): A function-level reset disables the queues, ends the operations in flight, discards undelivered tokens
  and resets the sync cells and MSI-X state, within 2 ms. -/
  | flr
/-- ROOT_PLL_LOCK (R355): The root PLL locks, Porter and the Strongroom move to K-clock, and Porter begins step 1 of
  R46. Operands: for each boot attempt in order, whether the NOR read, the signature and the image digest are good;
  attempts beyond the list are good. -/
  | rootPllLock (reads : List Bool)
/-- PLL_LOCK_TIMEOUT (R355): If the root PLL has not locked within 1 ms, Porter holds the part in reset and drives
  ALERT_N low. -/
  | pllLockTimeout
/-- KEEPER_READY (R398): Keeper reports ready, sets KPR_STATUS.READY and enables the commands it performs. -/
  | keeperReady
/-- KEEPER_READY_TIMEOUT (R398): A Keeper that is not ready within 250 ms of its release makes Porter retry the slot
  or boot the other one, and after both fail the boot fails with KPR_E_BOOT. Operands: as ROOT_PLL_LOCK, for the
  attempts that follow. -/
  | keeperReadyTimeout (reads : List Bool)
/-- STAGGER_WAIT (R337): A chained unit with journalled room r starts its first tile (r − 1) ms after Keeper reports
  ready. -/
  | staggerWait
/-- TILE_START (R372): Tile n is started at n × 1,024 K-cycles: it runs its self-test at /12, takes MAXDIV and parks
  itself. Operands: pass is the outcome of the start self-test. -/
  | tileStart (n : Nat) (pass : Bool)
/-- CELLAR_START (R184): The Cellar controller checks the calibration rows, replays the journal, adds the disturb
  margin and erases and verifies the interrupted blocks. Operands: badCal are the dies whose calibration row fails;
  bad the banks whose interrupted block fails its verify; scan says that the map must be rebuilt by scanning, and lost
  are the physical blocks, as plane and block, whose counts cannot be recovered then; factory are those that the
  calibration rows list as bad. -/
  | cellarStart (badCal : List Nat) (bad : List Nat) (scan : Bool) (lost : List (Nat × Nat)) (factory : List (Nat × Nat))
/-- SET_CHECK (R215): At start, Keeper checks the metadata digest of every installed set and hashes every shard of a
  set in state CHECKING. Operands: the sets whose metadata digest, and the CHECKING sets a shard of which, does not
  match. -/
  | setCheck (bad : List Nat) (badShards : List Nat)
/-- REGISTER_WRITE (R14): A BAR0 write to a register that has no row of its own sets the field; a partial or
  misaligned write is discarded and recorded with HIF_E_PARTIAL. Operands: bit i of be enables byte i of the access.
  -/
  | registerWrite (off : Nat) (size : Nat) (be : Nat) (value : Nat)
/-- PAIR_LO_READ (R16): A 4-byte read of the _LO register of a 64-bit pair latches _HI into the pair's snapshot.
  Operands: a BAR0 read of size bytes; of 4 bytes at a _LO register it latches _HI. -/
  | pairLoRead (off : Nat) (size : Nat)
/-- PAIR_HI_WRITE (R16): A 4-byte write to the _HI register of a pair is held until the pair commits. -/
  | pairHiWrite (off : Nat) (value : Nat)
/-- PAIR_LO_WRITE (R16): A 4-byte write to the _LO register of a pair commits both halves at once and clears the
  holding register. -/
  | pairLoWrite (off : Nat) (value : Nat)
/-- DATA_WINDOW_READ (R15): A read of CEL_CAL_DATA, CHN_ROSTER_DATA or ERR_SUM_DATA returns the selected word and then
  advances WORD. -/
  | dataWindowRead (off : Nat)
/-- POISONED_WRITE (R300): A poisoned write to BAR0 or BAR2, or a BAR2 write of a bad size, is discarded and recorded
  with HIF_E_PARTIAL. -/
  | poisonedWrite (poisoned : Bool) (bar : Nat) (size : Nat)
/-- D3HOT_ENTRY (R284): In D3hot the part issues no PCI Express request and holds tokens, records and messages, and
  tier-2 accesses end their slots. -/
  | d3hotEntry
/-- D0_RETURN (R284): On the return to D0, the held writes are delivered in order and fetching resumes. -/
  | d0Return
/-- RQ_DOORBELL (R287): A write of TAIL to a request queue's doorbell stamps the newly covered descriptors with their
  ring time, or halts the queue on overflow. -/
  | rqDoorbell (q : Nat) (tail : Nat)
/-- CQ_HEAD_DOORBELL (R293): A write of the consumed count to a completion queue's head doorbell advances the head and
  releases held records. -/
  | cqHeadDoorbell (q : Nat) (head : Nat)
/-- GENERATE (R290): A fetched GENERATE descriptor goes to guest-book lookup and admission, and then prefills and
  decodes until MAX_TOKENS or a stop token. Operands: bytes is the descriptor fetched; prompt is the part of the
  prompt that lies outside tier 0, as the host delivers it. -/
  | generate (q : Nat) (bytes : List Byte) (prompt : List Byte)
/-- CANCEL (R290): A fetched CANCEL ends the GENERATE in flight with its SEQ_INDEX with HIF_E_CANCELLED, or completes
  with HIF_E_NO_TARGET. -/
  | cancel (q : Nat) (bytes : List Byte)
/-- SIGNAL (R290): A fetched SIGNAL waits until every earlier operation of its queue has written its record. -/
  | signal (q : Nat) (bytes : List Byte)
/-- SIGNAL_COMPLETE (R290): Once every earlier operation has completed, the SIGNAL adds SYNC_VALUE to its cell and
  writes its record. -/
  | signalComplete (op : Nat)
/-- WAIT (R290): A fetched WAIT stops its queue's fetch until its sync cell reaches SYNC_VALUE. -/
  | wait (q : Nat) (bytes : List Byte)
/-- WAIT_SATISFIED (R290): When the cell reaches the target, the WAIT writes its record and fetching resumes. -/
  | waitSatisfied (op : Nat)
/-- OPCODE_UNKNOWN (R289): A descriptor whose OPCODE is not 1 to 4 ends with HIF_E_OPCODE. -/
  | opcodeUnknown (q : Nat) (bytes : List Byte)
/-- FETCH_ERROR (R288): A PCI Express error on a descriptor fetch halts the queue with HIF_E_FETCH, with HEAD at the
  first descriptor not fetched. -/
  | fetchError (q : Nat)
/-- COALESCE_TIMEOUT (R295): COAL_US after the first unreported record, the completion queue sends its MSI-X vector.
  -/
  | coalesceTimeout (q : Nat)
/-- TOKEN_DELIVERY (R40): The system hub copies a committed token from its staging line into the token ring in
  reserved windows, repeating the copy after a DMA fault. -/
  | tokenDelivery (fault : Bool)
/-- TOKEN_RING_CONS_REREAD (R292): The device re-reads CONS of a token ring that appears full, in window slots. -/
  | tokenRingConsReread (op : Nat) (cons : Nat)
/-- RQ_CREATE (R286): HIF_RQ_CMD OP 0 creates the selected request queue with HEAD = TAIL = 0, or refuses with
  HIF_E_QUEUE or HIF_E_CONTEXT. -/
  | rqCreate
/-- RQ_DELETE (R286): HIF_RQ_CMD OP 1 stops fetching and puts the queue in DRAINING. -/
  | rqDelete
/-- RQ_DRAINED (R286): When every operation fetched from a DRAINING queue has written its record, the queue becomes
  DISABLED. -/
  | rqDrained (q : Nat)
/-- RQ_RESUME (R288): HIF_RQ_CMD OP 2 resumes a halted queue, which fetches again from HEAD. -/
  | rqResume
/-- RQ_CMD_REFUSED (R286): HIF_RQ_CMD OP 3 is refused with HIF_E_QUEUE. -/
  | rqCmdRefused
/-- CQ_CREATE (R293): HIF_CQ_CMD OP 0 creates a completion queue from HIF_CQ_BASE and HIF_CQ_CFG. -/
  | cqCreate
/-- CQ_DELETE (R293): HIF_CQ_CMD OP 1 deletes an enabled completion queue that no request queue reports into. -/
  | cqDelete
/-- CQ_APPLY (R293): HIF_CQ_CMD OP 2 applies VECTOR, IRQ_EN and the coalescing fields to an enabled queue. -/
  | cqApply
/-- CQ_CMD_REFUSED (R293): HIF_CQ_CMD OP 3 is refused with HIF_E_QUEUE. -/
  | cqCmdRefused
/-- SYN_CELL_SET (R296): A committed write to SYN_CELLc sets the cell, atomically and in the order of receipt. -/
  | synCellSet (c : Nat) (value : Nat)
/-- SYN_ADD (R296): A committed write to SYN_ADDc adds to the cell, saturating at 2^64 − 1. -/
  | synAdd (c : Nat) (value : Nat)
/-- WAIT_SLOT_ARM (R297): Setting ARMED of a wait slot arms it, and it fires at once if its cell already meets VALUE.
  -/
  | waitSlotArm (w : Nat) (word : Nat)
/-- ITN_LOAD_GO (R64): ITN_LOAD_CTRL.GO starts the DMA of an itinerary image into the named slot; a GO while a load
  runs is discarded with ITN_E_LOAD_BUSY. Operands: list is SRC_LIST of the same write. -/
  | itnLoadGo (slot : Nat) (list : Bool)
/-- HEADER_ARRIVED (R64): When the first 256 bytes have arrived, the DMA engine applies the header checks and stops
  the load at the first failure. -/
  | headerArrived (bytes : List Byte)
/-- ITN_DMA_DONE (R68): The end of the image DMA hands the slot to Keeper in state VALIDATING. -/
  | itnDmaDone (bytes : List Byte)
/-- VALIDATION_DONE (R68): Keeper ends the checks in table order, leaving the slot VALID or FAILED with a code and
  DETAIL. -/
  | validationDone
/-- ITN_LOAD_DMA_ERROR (R66): A PCI Express error during a load returns the slot to EMPTY with ITN_E_DMA. Operands:
  off is the image offset of the failed read. -/
  | itnLoadDmaError (off : Nat)
/-- ITN_LOAD_ABORT (R67): ITN_LOAD_CTRL.ABORT stops the load or validation at its next boundary and returns the slot
  to EMPTY with ITN_E_ABORTED. -/
  | itnLoadAbort
/-- SLOT_FREE (R63): ITN_SLOTs.FREE returns a VALID or FAILED slot to EMPTY, or is refused with ITN_E_SLOT_BUSY while
  contexts are bound. -/
  | slotFree (slot : Nat)
/-- SLOT_SIZE_WRITE (R61): A write to ITN_CFG.SLOT_SIZE takes effect only while every slot is EMPTY and no owned
  granule is displaced. -/
  | slotSizeWrite (size : Nat)
/-- ITN_BIND (R70): ITN_BIND OP 0 binds a registered context to a VALID slot, or refuses with ITN_E_BIND. -/
  | itnBind (slot : Nat) (ctx : Nat)
/-- ITN_UNBIND (R70): ITN_BIND OP 1 unbinds a context that is neither running nor pending. -/
  | itnUnbind (ctx : Nat)
/-- BIND_OP_REFUSED (R70): ITN_BIND OP 2 or 3 is refused with ITN_E_BIND. -/
  | bindOpRefused (op : Nat) (ctx : Nat)
/-- ACTIVATION (R71): ITN_Pp_CTRL.GO repeats checks 9, 16 and 17 and activates the context at once on an IDLE
  partition, or makes the activation pending. -/
  | activation (p : Nat) (ctx : Nat)
/-- PARTITION_STOP (R73): ITN_Pp_CTRL.STOP ends the partition at its next step boundary and parks its tiles. -/
  | partitionStop (p : Nat)
/-- STEP_START (R269): Segment 0 begins: the control cores read the queues, test records and streams, back KV blocks
  and pin pages. Operands: tables and inputs are addresses in the pages that the kernels of the step read: the tables
  of the context; the tier-2 and tier-3 inputs and the token staging line. bad names the operations whose prologue
  meets an uncorrectable line, with whether a booking does. -/
  | stepStart (p : Nat) (tables : List Nat) (inputs : List Nat) (bad : List (Nat × Bool))
/-- SEAL_BEAT (R93): At beat LEN_BEATS − 16 of segment 0, the lead tile closes the step plan and sends it over the
  control tree. -/
  | sealBeat (p : Nat)
/-- SEGMENT_ONE_START (R89): At the start of segment 1, every tile adopts the plan and binds the thread slots. -/
  | segmentOneStart (p : Nat)
/-- WORK_ARRIVES (R87): When work reaches a waiting partition, the arrays ramp up and the banks wake before the
  prologue begins. -/
  | workArrives (p : Nat)
/-- PHASE_BOUNDARY (R56): At a phase boundary the control core writes the new bank owners and clears the written bits
  of each bank that changes owner. Operands: the phase that begins: its tile, segment and first beat. -/
  | phaseBoundary (p : Nat) (tile : Nat) (seg : Nat) (start : Nat)
/-- ARRAY_PASS (R78): A class-0 entry streams the live row groups through an array against one weight buffer and runs
  filler passes for the rest. Operands: entry is an index in the timetable and rep the run of its segment; half is the
  tally half of the kernel; groups says where its feeder reads each row group; bad says that the buffer shows a parity
  error; badLine names a bank and a line that cannot be corrected. -/
  | arrayPass (p : Nat) (entry : Nat) (rep : Nat) (half : Nat) (groups : List FeedGroup) (bad : Bool) (badLine : Option (Nat × Nat))
/-- WEIGHT_BUFFER_LOAD (R79): A class-1 entry loads a weight buffer and its trailer from the rack or from scratch over
  64 T-cycles. Operands: bank and line are where the kernel loads from, for a load from scratch; form is 0 for a
  block, 1 for a block pair, 2 for a key slab (transposed), 3 for a value slab; badLine is a line of the bank that
  cannot be corrected. -/
  | weightBufferLoad (p : Nat) (entry : Nat) (rep : Nat) (bank : Nat) (line : Nat) (form : Nat) (badLine : Option Nat)
/-- ELEMENT_PIPELINE_ENTRY (R90): A class-6 entry runs its thread slots in ascending order, each at a fixed T-cycle.
  Operands: rep is the run of its segment; runs are the stages of what the kernel does, in order. -/
  | elementPipelineEntry (p : Nat) (entry : Nat) (rep : Nat) (runs : List KernelRun)
/-- TILE_DMA_ENTRY (R90): A class-7 entry runs its tile DMA kernel's thread slots in ascending order at fixed
  T-cycles. Operands: as for ELEMENT_PIPELINE_ENTRY. -/
  | tileDmaEntry (p : Nat) (entry : Nat) (rep : Nat) (runs : List KernelRun)
/-- THREAD_OVERRUN (R91): A thread that reaches its cycle bound is stopped, its outputs become zeros and its row ends
  with TIL_E_OVERRUN. Operands: zeros is where the outputs of the thread in the step lie. -/
  | threadOverrun (p : Nat) (tile : Nat) (thread : Nat) (zeros : List ZeroRun)
/-- ALLOWANCE_EXPIRY (R29): At the end of an allowance, a tier-2 or tier-3 access without data delivers zeros and ends
  the slots it carried. Operands: slots are the request slots whose data the access carried; zeros is where the data
  was to go. -/
  | allowanceExpiry (p : Nat) (slots : List Nat) (zeros : List ZeroRun)
/-- TIER_ACCESS_FAULT (R233): A failed or refused timetabled access delivers zeros and ends the slots whose data it
  carried. Operands: code is the reason of R233; slots and zeros as for ALLOWANCE_EXPIRY. -/
  | tierAccessFault (p : Nat) (code : Nat) (slots : List Nat) (zeros : List ZeroRun)
/-- SCATTER_BEGIN (R39): The scatter segment begins and issues one booking per request slot, the deadline test
  deciding what each booking carries. Operands: logits are the rows of the sampling kernel on a tile, one for each
  request slot; expTab and recTab name its exp2 and reciprocal tables. -/
  | scatterBegin (p : Nat) (tile : Nat) (logits : List RowExpr) (expTab : ScrRef) (recTab : ScrRef)
/-- SCATTER_OVERRUN (R266): Bookings still open at the last beat of the scatter stall the partition with cause booking
  fall-back. -/
  | scatterOverrun (p : Nat)
/-- BOOKING_ISSUE (R263): The memory hub accepts a booking when no watch is dirty and every check line matches, or
  aborts it and retries a conflict. Operands: index counts the bookings open, in slot order; fault says that a line is
  uncorrectable. -/
  | bookingIssue (p : Nat) (index : Nat) (fault : Bool)
/-- BOOKING_FALLBACK (R265): After its eighth conflict abort, Keeper holds the bytes, waits for landed writes, commits
  the booking and releases the hold. -/
  | bookingFallback (p : Nat)
/-- BOOKING_BUFFER_PARITY (R267): A parity error in the booking buffer after commit enters the Strongroom safe state
  with MEM_E_BOOK_PARITY. -/
  | bookingBufferParity
/-- SCATTER_COMPLETE (R72): The scatter ends: the step counts, the per-step pins are released, and any pending
  activation, STOP or swap takes effect at the boundary. -/
  | scatterComplete (p : Nat)
/-- SAVE_DONE (R275): At the end of the save, the region header commits with STATE = 1, the banks are handed over and
  the restore begins. Operands: fault says that the save met a fault. -/
  | saveDone (p : Nat) (fault : Bool)
/-- RESTORE_DONE (R276): The checked carry banks are restored, or left cleared with FILLED = 0, and segment 0 of the
  incoming context begins. Operands: fault says that the restore met a fault. -/
  | restoreDone (p : Nat) (fault : Bool)
/-- URGENT_PREEMPT (R324): SRV_Pp_URGENT.GO requests an urgent pre-emption, which abandons a step before its scatter
  under R278 or waits for the scatter to end. Operands: beats is the length so far of a stall in progress. -/
  | urgentPreempt (p : Nat) (ctx : Nat) (beats : Nat)
/-- URGENT_STOP (R324): SRV_Pp_URGENT.STOP requests an urgent pre-emption with no incoming context, acting as a STOP.
  Operands: beats as for URGENT_PREEMPT. -/
  | urgentStop (p : Nat) (beats : Nat)
/-- STALL_END (R34): When the last cause clears, the arrays ramp back and the stall ends at the same phase of a later
  beat. Operands: beats is the length of the stall, its ramp-back included. -/
  | stallEnd (p : Nat) (beats : Nat)
/-- RAMP_STEP (R85): A ramp step of 1 µs changes an array's filler duty by one sixteenth. Operands: up says whether
  the duty rises. -/
  | rampStep (tile : Nat) (arr : Nat) (up : Bool)
/-- LOCKSTEP_ERROR (R92): A tile whose sequencer disagrees with the partition beat number enters the Strongroom safe
  state. -/
  | lockstepError (tile : Nat)
/-- TRANSPARENT_TEST_BEAT (R250): In a window beat the transparent test saves, tests and restores 8 lines of a bank
  that the tile DMA owns. Operands: the window beat by segment and beat; bad says that a check fails, lost that the
  restore check fails. -/
  | transparentTestBeat (tile : Nat) (bank : Nat) (seg : Nat) (beat : Nat) (bad : Bool) (lost : Bool)
/-- CELLAR_PAGE_READ (R168): A class-4 entry issues one page read on its plane, or delivers zeros with CEL_E_BANK_BUSY
  if the bank is busy. -/
  | cellarPageRead (p : Nat) (plane : Nat)
/-- CELLAR_READ_DONE (R170): A page read decodes by LDPC and, on failure, goes through read retry and stripe rebuild.
  Operands: outcome is 0 for a good page, 1 to 7 for the retry level that succeeds, 8 for a page rebuilt from its
  stripe, 9 for an uncorrectable page. -/
  | cellarReadDone (plane : Nat) (outcome : Nat)
/-- TIER1_READ (R176): A read of a mapped tier-1 page is served in the first interval that R172 permits. Operands: n
  bytes of one page; outcome as for CELLAR_READ_DONE; pos is how many beats of its step each partition has run. -/
  | tier1Read (ctx : Nat) (va : Nat) (n : Nat) (outcome : Nat) (pos : List Nat)
/-- PROGRAM_START (R172): Keeper starts a page program on a bank when no read is in flight and the next read lies
  beyond the limit. Operands: b is the bank; outcome is that of the read of the page to move, as for CELLAR_READ_DONE;
  pos is how many beats of its step each partition has run. -/
  | programStart (b : Nat) (outcome : Nat) (pos : List Nat)
/-- PROGRAM_DONE (R182): A page program ends and the block's result and time are journalled, possibly entering a wear
  stage. Operands: us10 is the program time in units of 10 µs. -/
  | programDone (b : Nat) (us10 : Nat) (ok : Bool)
/-- PROGRAM_OVERRUN (R182): A program over 900 µs retires its block with CEL_E_PROGRAM. -/
  | programOverrun (b : Nat)
/-- ERASE_START (R172): Keeper starts or resumes a block erase in an interval that R172 permits. Operands: pos is how
  many beats of its step each partition has run. -/
  | eraseStart (b : Nat) (pos : List Nat)
/-- ERASE_SUSPEND (R173): Keeper issues an erase suspend so that the bank is readable 10 µs before its next read. -/
  | eraseSuspend (b : Nat)
/-- ERASE_DONE (R182): An erase completes its internal verify and the block becomes free, or the block is retired on
  failure. -/
  | eraseDone (b : Nat) (ok : Bool)
/-- ERASE_OVERRUN (R182): An erase over 10 ms retires its block with CEL_E_ERASE. -/
  | eraseOverrun (b : Nat)
/-- DISTURB_CHECKPOINT (R180): Every 60 s the read-disturb counters are checkpointed to the journal. -/
  | disturbCheckpoint
/-- SHUTDOWN_CHECKPOINT (R431): Every 100 ms while the brake is stuck, Keeper writes a shutdown checkpoint. -/
  | shutdownCheckpoint
/-- REFRESH_THRESHOLD (R181): A block whose counter reaches Θ is queued for relocation to a free block of the same
  plane. -/
  | refreshThreshold (plane : Nat) (block : Nat)
/-- FORCED_RELOCATION (R181): A block at 1.5 × Θ forces its relocation, holding the reading partitions at step
  boundaries. -/
  | forcedRelocation (plane : Nat) (block : Nat)
/-- THRESH_K_WRITE (R187): A write to CEL_DISTURB_CFG.THRESH_K is clamped, journalled and applied from the next
  counter advance. -/
  | threshKWrite (value : Nat)
/-- BLOCK_QUERY (R188): CEL_BQ_SEL.GO asks Keeper for a block's counters, state and stage in CEL_BQ_DATA0 and DATA1.
  -/
  | blockQuery (plane : Nat) (phys : Bool) (block : Nat)
/-- BLOCK_REBUILD (R202): An expander rebuilds a block in 32 M-cycles once its lines are buffered and the rack has
  room. Operands: pair says that the load is one of mode IW4; bad that the input buffer shows a parity error. -/
  | blockRebuild (arr : Nat) (pair : Bool) (bad : Bool)
/-- TABLE_LOAD (R199): EXP_TBL_CMD.GO loads a decode-table slot from host memory or a set, or refuses it. -/
  | tableLoad (fromSet : Bool) (set : Nat) (id : Nat) (slot : Nat) (epoch : Nat)
/-- TABLE_LOAD_DONE (R199): A table load ends, writing every expander's slot and its tag. Operands: image is what the
  read delivers; fault says that the read met a PCI Express error. -/
  | tableLoadDone (image : List Byte) (fault : Bool)
/-- INSTALL (R213): EXP_INST_CMD OP 0 reads and checks the metadata, allocates blocks and sets the set INSTALLING.
  Operands: list is SRC_LIST; head is the image from its header up to the end of RUN_DIR; fault as for
  TABLE_LOAD_DONE. -/
  | install (set : Nat) (list : Bool) (head : List Byte) (fault : Bool)
/-- INSTALL_SHARD (R213): Each shard is staged, hashed against its digest and programmed stripe by stripe; after the
  last one the set is READY. Operands: the next shard of DATA and its digest of DIGESTS. -/
  | installShard (data : List Byte) (digest : List Byte) (fault : Bool)
/-- INSTALL_ABORT (R214): EXP_INST_CMD.ABORT ends the install at the next shard boundary with EXP_E_ABORTED. -/
  | installAbort
/-- SET_REMOVE (R218): EXP_INST_CMD OP 1 removes an unused set, erasing its blocks in slices. -/
  | setRemove (set : Nat)
/-- RECHECK_NOW (R216): EXP_INST_CMD OP 2 re-hashes the named set at once. Operands: bad says that a digest does not
  match. -/
  | recheckNow (set : Nat) (bad : Bool)
/-- INST_OP_REFUSED (R212): EXP_INST_CMD OP 3 is refused with EXP_E_IMAGE. -/
  | instOpRefused (set : Nat)
/-- PERIODIC_RECHECK (R216): Within each HOURS period, Keeper re-hashes every READY set and impairs a set that
  mismatches. Operands: bad are the sets a digest of which does not match. -/
  | periodicRecheck (bad : List Nat)
/-- MODEL_SLOT_SET (R217): EXP_MSLOT_CMD points a model slot at a set, at once or as a pending swap. -/
  | modelSlotSet (m : Nat) (set : Nat)
/-- MODEL_SLOT_CLEAR (R217): EXP_MSLOT_CMD with CLEAR empties an unused model slot, or is refused with EXP_E_SET_BUSY.
  -/
  | modelSlotClear (m : Nat)
/-- GRANT (R228): MEM_GRANT_CMD OP 0 grants a run of free granules to a registered context. -/
  | grant (ctx : Nat)
/-- REVOKE (R228): MEM_GRANT_CMD OP 1 revokes owned granules, which then await scrub. -/
  | revoke (ctx : Nat)
/-- GRANT_QUERY (R228): MEM_GRANT_CMD OP 2 reports the owner of granule FIRST. -/
  | grantQuery (ctx : Nat)
/-- GRANT_OP_REFUSED (R228): MEM_GRANT_CMD OP 3 is refused with MEM_E_GRANULE. -/
  | grantOpRefused (ctx : Nat)
/-- SETREC_WRITE (R227): A write to MEM_CFG.SETREC_GIB resizes the set-record region, or is discarded with
  MEM_E_GRANULE or MEM_E_REGION. -/
  | setrecWrite (gib : Nat)
/-- XLT_INVALIDATE (R230): XLT_INV_CMD.GO invalidates the cached walks of a context. -/
  | xltInvalidate (ctx : Nat)
/-- BAR4_ACCESS (R233): A BAR4 read or write translates through the selected context, with a refusal reading zeros or
  discarding the write. Operands: corr counts its DRAM lines that ECC corrects; bytes is what a write carries, or what
  the outside delivers for a read of a tier-2 or tier-3 page; fail says that the tier fails. One access is one PCI
  Express request, inside one 4 KiB page. -/
  | bar4Access (write : Bool) (off : Nat) (n : Nat) (bytes : List Byte) (fail : Bool) (corr : Nat)
/-- MIGRATE (R235): MEM_MIG_CMD.GO starts a migration of PAGES pages to DST_TIER, or refuses with MEM_E_MIGRATE. -/
  | migrate (tier : Nat) (ctx : Nat)
/-- MIGRATE_PAGE (R236): In reserved windows Keeper marks, copies and re-maps one page by booking, skipping it if the
  leaf changed. Operands: ext is what a source outside the part delivers; corr counts DRAM lines that ECC corrects. -/
  | migratePage (ext : List Byte) (rdFail : Bool) (wrFail : Bool) (corr : Nat)
/-- MIGRATE_ABORT (R237): MEM_MIG_CMD.ABORT ends the migration after the page in hand with MEM_E_ABORTED. -/
  | migrateAbort
/-- COPY_PROD_WRITE (R238): A write to MEM_CHc_PROD makes new copy descriptors available, or halts the channel on
  overflow. -/
  | copyProdWrite (c : Nat) (prod : Nat)
/-- COPY_DESCRIPTOR (R239): A copy channel executes one copy or fill descriptor and signals its sync cell when it
  completes. Operands: corr counts DRAM lines that ECC corrects; bytes is the descriptor read from the ring, empty
  where that read fails; ext is what source reads outside the part deliver, in order; rdFail and wrFail are offsets at
  which a read or a write fails. -/
  | copyDescriptor (c : Nat) (bytes : List Byte) (ext : List Byte) (rdFail : Option Nat) (wrFail : Option Nat) (corr : Nat)
/-- COPY_RESUME (R242): MEM_CHc_CTRL.RESUME restarts the halted descriptor from FAULT_OFF. Operands: as
  COPY_DESCRIPTOR. -/
  | copyResume (c : Nat) (bytes : List Byte) (ext : List Byte) (rdFail : Option Nat) (wrFail : Option Nat) (corr : Nat)
/-- COPY_SKIP (R242): MEM_CHc_CTRL.SKIP abandons the halted descriptor without a signal and advances CONS. -/
  | copySkip (c : Nat)
/-- COPY_DISABLE (R242): Clearing MEM_CHc_CFG.ENABLE abandons a halted descriptor and clears CONS and PROD. -/
  | copyDisable (c : Nat)
/-- SCRUB_GRANULE (R243): The scrub engine zeroes one awaiting granule, which then becomes free. -/
  | scrubGranule
/-- ATTACH (R158): Keeper maps the shared prefix frames into a new sequence by bookings and clears ATTACHING.
  Operands: bad says that a DRAM line of it is uncorrectable. -/
  | attach (op : Nat) (bad : Bool)
/-- KV_BLOCK_COPY (R159): Keeper copies a shared block that a step would write, unmaps the blocks above it and lowers
  SHARE_BLOCKS. Operands: bad as ATTACH. -/
  | kvBlockCopy (op : Nat) (bad : Bool)
/-- SEQUENCE_RELEASE (R160): After a request ends, Keeper unmaps its range highest block first, returns frames at
  count 0 and clears the record. Operands: bad as ATTACH. -/
  | sequenceRelease (ctx : Nat) (seq : Nat) (bad : Bool)
/-- RELEASE_RESUME (R161): A release held on a full frame return ring continues once the host advances CONS. -/
  | releaseResume (ctx : Nat)
/-- PUBLICATION (R310): Keeper records a completed prompt block in the guest book by bookings and raises SHARE_BLOCKS.
  -/
  | publication (op : Nat)
/-- EVICTION (R311): Keeper evicts a guest-book leaf by bookings that drop its frame counts. -/
  | eviction (ctx : Nat)
/-- DEADLINE_CHECK (R318): At least once per millisecond, Keeper ends with SRV_E_DEADLINE each operation outside the
  step whose instant has passed. -/
  | deadlineCheck
/-- GB_FLUSH (R311): SRV_GB_CMD OP 0 evicts every guest-book entry of the selected context, leaves first. -/
  | gbFlush
/-- GB_ENABLE (R307): SRV_GB_CMD OP 1 enables lookup and publication for the selected context. -/
  | gbEnable
/-- GB_DISABLE (R307): SRV_GB_CMD OP 2 disables lookup and publication for the selected context. -/
  | gbDisable
/-- GB_OP_REFUSED (R307): SRV_GB_CMD OP 3 is refused with SRV_E_GB. -/
  | gbOpRefused
/-- SRV_EVAL (R322): SRV_EVAL_CTRL.GO returns d_P for a partition at a cap, or SRV_E_EVAL. -/
  | srvEval
/-- PORT_ENABLE (R328): Setting CHN_Pp_CTRL.ENABLE starts training of a Tendi port. -/
  | portEnable (p : Nat)
/-- PORT_RETRAIN (R328): CHN_Pp_CTRL.RETRAIN takes the port DOWN and retrains it. -/
  | portRetrain (p : Nat)
/-- PORT_TRAINED (R338): A port that completes training negotiates its link version and reaches UP, REFUSED or
  CHN_E_WIRING. Operands: the identity the peer sends: its port, LINK_VER, LINK_MIN and room. -/
  | portTrained (p : Nat) (peerPort : Nat) (ver : Nat) (least : Nat) (room : Nat)
/-- TRAINING_RETRY (R328): An enabled port that is not UP retries training every 1 s. -/
  | trainingRetry (p : Nat)
/-- FLIT_RECEIVE (R329): A received flit is checked, delivered in order, forwarded or answered with NAK. Operands: f
  is the flit; ok says that its CRC and every codeword are good; corr and uncorr count its codewords corrected and
  uncorrectable. -/
  | flitReceive (p : Nat) (f : Flit) (ok : Bool) (corr : Nat) (uncorr : Nat)
/-- NAK (R329): A received NAK makes the sender replay from the named SEQ. -/
  | nak (p : Nat) (seq : Nat)
/-- REPLAY_TIMEOUT (R329): When no ACK advances for 10 µs, the sender replays its unacknowledged flits. -/
  | replayTimeout (p : Nat)
/-- LINK_LOST (R328): After 16 replays without progress, the port goes DOWN with CHN_E_LINK_LOST and retrains. -/
  | linkLost (p : Nat)
/-- UNKNOWN_MESSAGE (R330): A message of unknown MSG_TYPE is discarded, counted and recorded with CHN_E_MSG. Operands:
  the message stands in the port's inbox, as for every message command. -/
  | unknownMessage (p : Nat)
/-- ROLL_CALL_GO (R333): CHN_ROLL_CMD.GO at a head candidate sends ROLL aft as room 1, or is refused. -/
  | rollCallGo
/-- ROLL (R335): A unit that receives ROLL takes the next room and passes the frame aft, or turns it into ROSTER or
  FAIL. -/
  | roll (p : Nat)
/-- ROSTER (R335): A unit that receives ROSTER stores its room and roster and passes the frame on. -/
  | roster (p : Nat)
/-- ROLL_FAIL (R335): A FAIL frame is passed fore, and the head reports its code. -/
  | rollFail (p : Nat)
/-- ROLL_TIMEOUT (R335): A roll call with no ROSTER at the head 100 ms after GO fails with CHN_E_ROLL_TIMEOUT. -/
  | rollTimeout
/-- ANNOUNCE (R339): A received ANNOUNCE updates the roster record of its room, or sets STALE, and is passed on. -/
  | announce (p : Nat)
/-- T3_READ (R343): A peer answers a tier-3 read of an exported granule with T3_DATA, or with CHN_E_EXPORT. Operands:
  bad: a line of it is uncorrectable. -/
  | t3Read (p : Nat) (bad : Bool)
/-- T3_WRITE (R343): A peer applies a tier-3 write to an exported granule, or records its refusal for the next fence
  acknowledgement. -/
  | t3Write (p : Nat)
/-- T3_FENCE (R344): A peer answers T3_FENCE with T3_FENCE_ACK once the source's earlier writes are visible. -/
  | t3Fence (p : Nat)
/-- T3_DATA (R343): A T3_DATA reply delivers read data or a refusal to the requester. -/
  | t3Data (p : Nat)
/-- T3_FENCE_ACK (R344): A fence acknowledgement completes, or with a code fails, the chain fence. -/
  | t3FenceAck (p : Nat)
/-- CHAIN_FENCE_TIMEOUT (R344): A Keeper chain fence without all acknowledgements ends after 10 ms and is recorded. -/
  | chainFenceTimeout (n : Nat)
/-- STEP_MESSAGE (R347): A STEP message lands in a stage's input region, so that the stage can begin the step it
  carries. Operands: rows is the plan that the message carries, whose layout in bytes is not described. -/
  | stepMessage (p : Nat) (rows : List SpanRow)
/-- TOKENS (R348): At stage 0, TOKENS delivers the tokens of live slots and ends the slots that carry a code. -/
  | tokens (p : Nat)
/-- RELEASE_MESSAGE (R348): A RELEASE message makes a stage release the named sequence under R160. -/
  | releaseMessage (p : Nat)
/-- SPAN_FREE (R347): SPAN_FREE tells a stage that the next stage's input half is free. -/
  | spanFree (p : Nat)
/-- SPAN_HALT (R349): SPAN_HALT stops each stage partition at its boundary and makes stage 0 end the span's admitted
  requests. -/
  | spanHalt (p : Nat)
/-- EXPORT_COMMIT (R342): CHN_EXP_SEL.GO commits DATA0 and DATA1 into an export entry, or refuses with CHN_E_EXPORT.
  -/
  | exportCommit (entry : Nat)
/-- EXPORT_LOAD (R342): CHN_EXP_SEL.LOAD loads an export entry into DATA0 and DATA1. -/
  | exportLoad (entry : Nat)
/-- QUOTE_MESSAGE (R393): A QUOTE request from a peer is served by Porter as a unit quote and answered in a reply. -/
  | quoteMessage (p : Nat)
/-- QUOTE_REPLY (R393): A QUOTE reply completes QUOTE_PEER with the peer's quote or its code. -/
  | quoteReply (p : Nat) (dmaOk : Bool)
/-- QUOTE_PEER_TIMEOUT (R393): QUOTE_PEER with no reply within 200 ms ends with SEC_E_PEER. -/
  | quotePeerTimeout
/-- RELAY (R424): A received RELAY block is checked, applied and forwarded aft under the relay rules. -/
  | relay (p : Nat) (sigOk : Bool) (norOk : Bool)
/-- POWER_LOOP_TICK (R362): Every 100 µs power control measures power and sensors and slows or speeds partitions
  within the cap divider. Operands: sample is what the period measured; ok says that PMBus transactions are
  acknowledged. -/
  | powerLoopTick (sample : PowerSample) (ok : Bool)
/-- CAP_WRITE (R360): A write to PWR_CAP_CTRL.CAP_W stores the clamped cap, or refuses with PWR_E_CAP_LIMIT. -/
  | capWrite (value : Nat)
/-- FORCE_DIV_WRITE (R364): A write to PWR_Pp_DIV.FORCE_DIV requests a divider as KEEPER_REQUEST. -/
  | forceDivWrite (p : Nat) (value : Nat)
/-- DIVIDER_CHANGE (R356): A divider change takes effect at a beat boundary with a one-beat clock-change stall.
  Operands: ok says that PMBus transactions are acknowledged. -/
  | dividerChange (p : Nat) (ok : Bool)
/-- VOLTAGE_SETTLED (R359): After power good or 100 µs, a waiting speed-up changes the divider. Operands: ok says that
  PMBus transactions are acknowledged. -/
  | voltageSettled (p : Nat) (ok : Bool)
/-- AGEING_SAMPLE (R357): Each second Keeper samples each tile's ageing monitor and raises MAXDIV after 60 low-margin
  samples. Operands: bit n of low says that tile n shows margin below its threshold. -/
  | ageingSample (low : Nat)
/-- CURRENT_LIMIT (R364): The Strongroom slows every running partition by one step when the core current or the droop
  rate exceeds its limit. -/
  | currentLimit
/-- THERMAL_HW_THROTTLE (R364): A logic sensor at 105 °C forces divider 12 in hardware. -/
  | thermalHwThrottle
/-- THROTTLE_REPEAT (R364): Each 1 ms or 10 ms interval while a stepping reason stays active adds one more divider
  step. -/
  | throttleRepeat (reason : Nat)
/-- THROTTLE_CLEAR (R364): A throttle reason whose cause has been absent for its hold time clears. Operands: hw picks
  the hardware rule of THERMAL. -/
  | throttleClear (reason : Nat) (hw : Bool)
/-- RAIL_FAULT (R369): A rail outside its window for 10 µs forces divider 12 and records PWR_E_RAIL. -/
  | railFault
/-- DROOP_FIRE (R367): A droop detector firing stalls its partition, or every partition for a hub detector. Operands:
  32 stands for a detector in a hub. -/
  | droopFire (d : Nat)
/-- DROOP_CLEAR (R367): After 64 T-cycles within 30 mV of the setpoint, the droop cause clears. Operands: 32 stands
  for the detectors in the hubs. -/
  | droopClear (d : Nat)
/-- BRAKE_ASSERT (R368): PWR_BRAKE_N low for 1 µs asserts the brake and forces divider 12. -/
  | brakeAssert
/-- BRAKE_RELEASE (R368): PWR_BRAKE_N high for 1 µs releases the brake. -/
  | brakeRelease
/-- BRAKE_GLITCH (R368): A low pulse of 100 ns to 1 µs is ignored and counted in PWR_BRAKE_GLITCH. -/
  | brakeGlitch
/-- BRAKE_STUCK (R368): After 100 ms of assertion the brake is recorded as stuck with PWR_E_BRAKE_STUCK. -/
  | brakeStuck
/-- THERMAL_TRIP (R370): A logic sensor at 115 °C stops every clock and latches THERM_TRIP_N low. -/
  | thermalTrip
/-- TAMPER (R388): Porter zeroes keys, counts the tamper, orders the wipe and enters the safe state. Operands: src is
  the source's code in SRM_TAMPER; wipeOk says that the secure-region wipe completes. -/
  | tamper (src : Nat) (wipeOk : Bool)
/-- CTX_OPEN (R383): The mailbox command CTX_OPEN moves a FREE context to OPEN. -/
  | ctxOpen (ctx : Nat)
/-- CTX_CONFIGURE (R378): CTX_CONFIGURE reads and checks a context record and makes the context READY. Operands:
  record is what the DMA reads at SEC_MBX_BUF. -/
  | ctxConfigure (ctx : Nat) (record : List Byte) (dmaOk : Bool)
/-- CTX_END (R380): CTX_END halts the context's queues, ends its operations, unbinds it and sends its granules to
  scrub. -/
  | ctxEnd (ctx : Nat)
/-- QUOTE (R392): The mailbox command QUOTE signs a unit or context quote with the identity key. -/
  | quote (scope : Nat) (ctx : Nat) (nonce : List Byte) (dmaOk : Bool)
/-- QUOTE_PEER (R393): QUOTE_PEER sends a QUOTE message to a peer's room. -/
  | quotePeer (room : Nat) (nonce : List Byte)
/-- GET_CERT (R391): GET_CERT returns the stored certificate. -/
  | getCert (dmaOk : Bool)
/-- ENROLL (R385): ENROLL writes the owner digest and enters FIELD. -/
  | enroll (owner : List Byte) (wipeOk : Bool)
/-- SERVICE (R387): SERVICE checks a service token and enters RETURN or revokes a key slot. Operands: sigOk is what
  verifying the signature gives; failAt names the step of R386 that fails, 0 none. -/
  | service (token : List Byte) (sigOk : Bool) (dmaOk : Bool) (failAt : Nat)
/-- SCRAP (R386): SCRAP wipes sets and secure regions and enters SCRAPPED, destroying the keys. Operands: failAt names
  the step of R386 that fails, 0 none. -/
  | scrap (arg : Nat) (failAt : Nat)
/-- SET_LIMIT (R383): SET_LIMIT writes a Strongroom limit in MANUFACTURE. -/
  | setLimit (index : Nat) (value : Nat)
/-- GEN_ID (R391): The mailbox command GEN_ID derives the identity key and returns ID_PUB. -/
  | genId (dmaOk : Bool)
/-- PROVISION (R384): PROVISION checks and stores the certificate and enters PROVISIONED. -/
  | provision (cert : List Byte) (sigOk : Bool) (dmaOk : Bool) (wipeOk : Bool)
/-- MBX_OPCODE_UNKNOWN (R383): A mailbox command with an unknown OP is refused with SEC_E_OPCODE. -/
  | mbxOpcodeUnknown (op : Nat)
/-- WATCHDOG_EXPIRY (R399): A Keeper watchdog without service for 100 ms enters the safe state with KPR_E_WATCHDOG. -/
  | watchdogExpiry
/-- DAYBOOK_MARK (R402): A write to KPR_DB_MARK appends a TYPE 3 entry to the daybook. -/
  | daybookMark (value : Nat)
/-- DAYBOOK_FETCH (R404): KPR_FETCH_CMD.GO copies daybook entries or error-ring records to the host. -/
  | daybookFetch (src : Nat) (first : Nat) (count : Nat) (dmaOk : Bool)
/-- ERROR_HANDLER (R408): Keeper takes the oldest buffered report, merges or appends it and writes a daybook entry.
  Operands: fault says that handling meets a double fault of R413. -/
  | errorHandler (fault : Bool)
/-- HANDLER_TIMEOUT (R413): A handler that does not finish a report within 1 ms is a double fault. -/
  | handlerTimeout
/-- ERR_CLEAR (R426): ERR_CTRL.CLEAR clears the class counters, summary and lost counters. -/
  | errClear
/-- ERR_RING_CONS_WRITE (R408): A write to ERR_RING_CONS consumes error records, or is discarded beyond PROD. -/
  | errRingConsWrite (cons : Nat)
/-- ALERT_CLEAR (R458): Clearing ERR_IRQ_STATUS.ALERT releases ALERT_N outside the safe state. -/
  | alertClear
/-- UPDATE_RECEIVE (R420): KPR_UPD_CMD OP 0 reads and checks the manifest and erases the inactive slot. Operands:
  block is the manifest block that the DMA reads. -/
  | updateReceive (list : Bool) (block : List Byte) (sigOk : Bool) (norOk : Bool) (dmaOk : Bool)
/-- UPDATE_BLOCK (R420): Each transport block is checked and applied, and after END the image is verified and the
  manifest programmed. Operands: block is the next transport block. -/
  | updateBlock (block : List Byte) (norOk : Bool) (dmaOk : Bool)
/-- UPDATE_ACTIVATE (R422): KPR_UPD_CMD OP 1 in VERIFIED starts a drain before the restart. -/
  | updateActivate
/-- UPDATE_ABORT (R420): KPR_UPD_CMD OP 2 ends a receipt or drain and invalidates the slot. -/
  | updateAbort
/-- UPD_OP_REFUSED (R420): KPR_UPD_CMD OP 3 is refused with KPR_E_UPD_FORMAT. -/
  | updOpRefused
/-- DRAIN_COMPLETE (R422): With every partition IDLE and nothing in flight, Keeper writes the boot record and
  restarts. Operands: as ROOT_PLL_LOCK, for the new start. -/
  | drainComplete (reads : List Bool)
/-- DRAIN_TIMEOUT (R422): After DRAIN_S seconds, operations still in flight end with KPR_E_DRAIN. -/
  | drainTimeout
/-- IMAGE_COMMIT (R423): 60 s after ready in a trial start, Keeper writes TRIAL = 0. -/
  | imageCommit
/-- DRV_IF_WRITE (R421): A write to KPR_DRV_IF sets IF_MISMATCH when the version lies outside the image's range. -/
  | drvIfWrite (version : Nat)
/-- MCTP_CONTROL (R405): Keeper answers an MCTP control message. Operands: vdm picks the PCI Express binding. -/
  | mctpControl (vdm : Bool) (cmd : Nat) (eid : Nat)
/-- PLDM_REQUEST (R406): Keeper answers a PLDM request with the named sensor readings. Operands: kind 0 reads a
  sensor, 1 its record. -/
  | pldmRequest (vdm : Bool) (kind : Nat) (id : Nat)
/-- ERASE_SUSPENDED (R173): The die completes an erase suspend, within its 40 µs limit, and the bank stops being busy
  and serves reads again. -/
  | eraseSuspended (b : Nat)
/-- POWER_LOSS (R439): The board removes or loses the rails: VDD_CORE falling below 0.3 V releases THERM_TRIP_N, the
  loss of VDD_IO clears the trip flag, and operations in progress are interrupted. Operands: io says that VDD_IO goes
  too. -/
  | powerLoss (io : Bool)
/-- LANE_FAILURE (R328): A failed lane on a Tendi port takes the whole port DOWN. -/
  | laneFailure (p : Nat)
/-- FLIT_SLOT (R332): In each 25.6 ns flit slot an UP port sends one flit, chosen under the chain-window and VC rules,
  and encodes and measures CODEC 1 rows. Operands: step says that a class-8 entry covers the slot's beat; elems are
  the FP32 elements that the encoder puts into the slot's flit. -/
  | flitSlot (p : Nat) (step : Bool) (elems : List Nat)
/-- PCIE_LINK_TRAINED (R4): The PCI Express link completes training after reset, HIF_LINK reports speed and width, and
  the GEN registers become readable. Operands: cfg is the configuration that the host leaves the function with. -/
  | pcieLinkTrained (speed : Nat) (width : Nat) (cfg : PciConf)
/-- TAP_INSTRUCTION (R443): An instruction shifted into the JTAG TAP selects IDCODE, BYPASS or, in MANUFACTURE and
  RETURN, boundary scan and Clora's private instructions. -/
  | tapInstruction (instr : Nat)
  deriving DecidableEq, Repr

end Sys2Proof
end

