-- ==== Sys2Proof/Config.lean ====
section
/-! DEFINITION. What one implementation fixes and the spec leaves open: the free values, each an opaque constant with no
body, so that nothing can be proved of its value. A free value that may differ from occurrence to occurrence is
applied to the state's counter of free values (field `free`). -/

namespace Sys2Proof.Config

/-- A natural number the spec leaves open, by occurrence (log entry 3). -/
opaque freeNat : Nat → Nat

/-- A yes or no the spec leaves open, by occurrence (log entry 3). -/
opaque freeBool : Nat → Bool

/-- The payload of a NaN result, by the operands (log entry 7): the spec takes NaN from IEEE 754 and gives no payload. -/
opaque nanPayload : Nat → Nat → Nat

/-- The integer, or the FP8 pattern, that a NaN converts to, by the NaN: the spec states none (log entry 121). -/
opaque nanInt : Nat → Nat

/-- 1/√x of +∞, for which R125 states no result (log entry 99). -/
opaque rsqrtInf : Nat

/-- The contents of the factory calibration rows, by die and word (log entry 12): R177 gives their layout, and what
the factory measured on one part is open. -/
opaque calibration : Nat → Nat → Word32

/-- The identity public key that GEN_ID derives from the fused secret (R389, R391; log entry 13): 68 bytes. -/
opaque identityPub : Nat → Byte

/-- Byte `i` of the signature of a message digest under index `n` of the identity key (R389; log entry 13). -/
opaque identitySig : List Byte → Nat → Nat → Byte

/-- The signature under the certificate that Clora signed over the identity key (R391; log entry 13): 2,820 bytes. -/
opaque certSig : Nat → Byte

/-- The endpoint UUID that is derived from LOGIC_UID (R405): the derivation is not described (log entry 26). -/
opaque endpointUuid : Nat → Nat → Byte

/-- The maximum divider fused into a tile (R357, log entry 14), as a place in the divider set 4, 5, 6, 8, 12. -/
opaque fusedDiv : Nat → Nat

/-- K_n, the worst-case power fused for a tile in mW (R361, R373, log entry 14). -/
opaque fusedK : Nat → Nat

/-- V(d), the voltage fused for a divider in mV (R359, log entry 14). -/
opaque fusedVolt : Nat → Nat

end Sys2Proof.Config
end

