-- ==== Sys2Proof/Machine/SMap.lean ====
section
/-! DEFINITION. Sparse maps as plain data: a list of key and value pairs, keys strictly rising, holding no entry
equal to what an unlisted key reads as. Every large store of the part (register fields, DRAM, granule owners,
scratch banks, ...) is one of these, so that equal stores are equal data. -/

namespace Sys2Proof.Machine

/-- A sparse store. What an unlisted key reads as is an argument of each operation. -/
abbrev SMap (α : Type) := List (Nat × α)

/-- What a key reads as, `d` giving unlisted keys. -/
def SMap.get {α : Type} (d : Nat → α) : SMap α → Nat → α
  | [], k => d k
  | (j, v) :: rest, k => if j = k then v else SMap.get d rest k

/-- Put an entry at its place. -/
def SMap.insert {α : Type} : SMap α → Nat → α → SMap α
  | [], k, v => [(k, v)]
  | (j, w) :: rest, k, v =>
    if j < k then (j, w) :: SMap.insert rest k v
    else if j = k then (k, v) :: rest
    else (k, v) :: (j, w) :: rest

/-- Remove a key's entries. -/
def SMap.erase {α : Type} : SMap α → Nat → SMap α
  | [], _ => []
  | (j, w) :: rest, k => if j = k then SMap.erase rest k else (j, w) :: SMap.erase rest k

/-- Store a value; storing what an unlisted key reads as removes the entry. -/
def SMap.set {α : Type} [DecidableEq α] (d : Nat → α) (m : SMap α) (k : Nat) (v : α) : SMap α :=
  if v = d k then SMap.erase m k else SMap.insert m k v

/-- Whether a key lies above a bound that may be absent. -/
def SMap.above : Option Nat → Nat → Bool
  | none, _ => true
  | some b, k => decide (b < k)

/-- Keys above a bound, strictly rising, no entry that reads as an unlisted key does. -/
def SMap.wfFrom {α : Type} [DecidableEq α] (d : Nat → α) : Option Nat → SMap α → Bool
  | _, [] => true
  | lo, (k, v) :: rest =>
    SMap.above lo k && decide (v ≠ d k) && SMap.wfFrom d (some k) rest

/-- The canonical form. -/
def SMap.wf {α : Type} [DecidableEq α] (d : Nat → α) (m : SMap α) : Bool := SMap.wfFrom d none m

/-- Keep the entries whose key satisfies a test. -/
def SMap.keep {α : Type} (p : Nat → Bool) : SMap α → SMap α
  | [] => []
  | (k, v) :: rest => if p k then (k, v) :: SMap.keep p rest else SMap.keep p rest

/-- How many entries satisfy a test. -/
def SMap.count {α : Type} (p : Nat → α → Bool) : SMap α → Nat
  | [] => 0
  | (k, v) :: rest => (if p k v then 1 else 0) + SMap.count p rest

/-- The first listed key whose entry satisfies a test. -/
def SMap.findKey {α : Type} (p : Nat → α → Bool) : SMap α → Option Nat
  | [] => none
  | (k, v) :: rest => if p k v then some k else SMap.findKey p rest

/-- Change the value at a key. -/
def SMap.modify {α : Type} [DecidableEq α] (d : Nat → α) (m : SMap α) (k : Nat) (f : α → α) : SMap α :=
  SMap.set d m k (f (SMap.get d m k))

end Sys2Proof.Machine
end

