-- ==== Sys2Proof/Machine/Bytes.lean ====
section
/-! DEFINITION. Byte order (R18: every record is little-endian), bit fields, and DRAM as a sparse byte store. -/

namespace Sys2Proof.Machine

/-- The bits of `v` from `lo` up, `n` of them. -/
def bitsOf (v lo n : Nat) : Nat := v / 2 ^ lo % 2 ^ n

/-- Whether bit `i` of `v` is 1. -/
def bitOf (v i : Nat) : Bool := v / 2 ^ i % 2 == 1

/-- The number of a Bool, as a register bit holds it. -/
def b2n (b : Bool) : Nat := if b then 1 else 0

/-- A little-endian number. -/
def leNat : List Byte → Nat
  | [] => 0
  | b :: rest => b.toNat + 256 * leNat rest

/-- `n` bytes of a number, lowest first. -/
def leBytes : Nat → Nat → List Byte
  | 0, _ => []
  | n + 1, v => BitVec.ofNat 8 v :: leBytes n (v / 256)

/-- The field of `n` bytes at an offset of a record. -/
def recField (r : List Byte) (off n : Nat) : Nat := leNat ((r.drop off).take n)

/-- A record with `n` bytes at an offset replaced. -/
def recSet (r : List Byte) (off n v : Nat) : List Byte :=
  r.take off ++ leBytes n v ++ r.drop (off + n)

/-- Whether `n` bytes at an offset of a record are all 0 (R19). -/
def recZero (r : List Byte) (off n : Nat) : Bool := ((r.drop off).take n).all (· == 0)

/-- A signed number of `n` bits. -/
def toSigned (v n : Nat) : Int := if v < 2 ^ (n - 1) then v else (v : Int) - (2 : Int) ^ n

/-- Round up to a whole number of `k`. -/
def ceilDiv (a k : Nat) : Nat := (a + k - 1) / k

/-- What a byte of DRAM that nothing has written reads as (log entry 5). -/
def dramBlank : Nat → Byte := fun _ => 0

/-- The size of DRAM in bytes: 256 GiB. -/
def dramSize : Nat := 2 ^ 38

/-- Read `n` bytes. -/
def dramRead (m : SMap Byte) (a : Nat) : Nat → List Byte
  | 0 => []
  | n + 1 => SMap.get dramBlank m a :: dramRead m (a + 1) n

/-- Write bytes in order of address. -/
def dramWrite : SMap Byte → Nat → List Byte → SMap Byte
  | m, _, [] => m
  | m, a, b :: rest => dramWrite (SMap.set dramBlank m a b) (a + 1) rest

/-- Write the bytes whose mask is set. -/
def dramWriteMask : SMap Byte → Nat → List Byte → List Bool → SMap Byte
  | m, a, b :: bs, k :: ks =>
    dramWriteMask (if k then SMap.set dramBlank m a b else m) (a + 1) bs ks
  | m, _, _, _ => m

/-- Zero a range: the listed bytes of the range go (an unlisted byte reads as 0). -/
def dramZero (m : SMap Byte) (a n : Nat) : SMap Byte := SMap.keep (fun k => k < a || a + n ≤ k) m

end Sys2Proof.Machine
end

