-- ==== Sys2Proof/Machine/Codes.lean ====
section
/-! DEFINITION. The status codes, with the values the chapters give them (family constants, R1), and the class of
an error report (R410). A code's high byte names its block. -/

namespace Sys2Proof.Machine

namespace Code

def ITN_E_MAGIC : Nat := 0x0101
def ITN_E_VERSION : Nat := 0x0102
def ITN_E_MEMBER : Nat := 0x0103
def ITN_E_CRC : Nat := 0x0104
def ITN_E_LENGTH : Nat := 0x0105
def ITN_E_SECTION : Nat := 0x0106
def ITN_E_FORMAT : Nat := 0x0107
def ITN_E_PARTMAP : Nat := 0x0108
def ITN_E_ROUTE : Nat := 0x0109
def ITN_E_TILE_SLOW : Nat := 0x010a
def ITN_E_OWNER : Nat := 0x010b
def ITN_E_COLLIDE : Nat := 0x010c
def ITN_E_WINDOW : Nat := 0x010d
def ITN_E_BOUNDS : Nat := 0x010e
def ITN_E_HUBFRAME : Nat := 0x010f
def ITN_E_WEIGHTS : Nat := 0x0110
def ITN_E_CHAIN : Nat := 0x0111
def ITN_E_SLOT_BUSY : Nat := 0x0112
def ITN_E_LOAD_BUSY : Nat := 0x0113
def ITN_E_DMA : Nat := 0x0114
def ITN_E_BIND : Nat := 0x0115
def ITN_E_ABORTED : Nat := 0x0116
def ITN_E_SUPERSEDED : Nat := 0x0117
def ITN_E_MAPDIFF : Nat := 0x0118
def ITN_E_SAVE : Nat := 0x0119
def HIF_E_FORMAT : Nat := 0x0201
def HIF_E_OPCODE : Nat := 0x0202
def HIF_E_RING : Nat := 0x0203
def HIF_E_FETCH : Nat := 0x0204
def HIF_E_QUEUE : Nat := 0x0205
def HIF_E_CONTEXT : Nat := 0x0206
def HIF_E_FLR : Nat := 0x0207
def HIF_E_CANCELLED : Nat := 0x0208
def HIF_E_NO_TARGET : Nat := 0x0209
def HIF_E_PARTIAL : Nat := 0x020a
def XLT_E_NOT_PRESENT : Nat := 0x0401
def XLT_E_WRITE : Nat := 0x0402
def XLT_E_FORMAT : Nat := 0x0403
def XLT_E_OWNER : Nat := 0x0404
def XLT_E_RANGE : Nat := 0x0405
def XLT_E_TIER1 : Nat := 0x0406
def XLT_E_LATE : Nat := 0x0407
def XLT_E_TIER2 : Nat := 0x0408
def XLT_E_TIER3 : Nat := 0x0409
def XLT_E_UNCORR : Nat := 0x040a
def XLT_E_UNPINNED : Nat := 0x040b
def MEM_E_GRANULE : Nat := 0x0501
def MEM_E_PINNED : Nat := 0x0502
def MEM_E_MIGRATE : Nat := 0x0503
def MEM_E_ABORTED : Nat := 0x0504
def MEM_E_COPY_FORMAT : Nat := 0x0505
def MEM_E_DMA : Nat := 0x0506
def MEM_E_REGION : Nat := 0x0507
def MEM_E_SCR_OWNER : Nat := 0x0508
def MEM_E_SCR_ECC : Nat := 0x0509
def MEM_E_SCR_TEST : Nat := 0x050a
def MEM_E_BOOK_TIER : Nat := 0x050b
def MEM_E_BOOK_SIZE : Nat := 0x050c
def MEM_E_BOOK_FALLBACK : Nat := 0x050d
def MEM_E_BOOK_PARITY : Nat := 0x050e
def MEM_E_FLR : Nat := 0x050f
def CEL_E_BANK_BUSY : Nat := 0x0601
def CEL_E_UNCORR : Nat := 0x0602
def CEL_E_PROGRAM : Nat := 0x0603
def CEL_E_ERASE : Nat := 0x0604
def CEL_E_CAPACITY : Nat := 0x0605
def CEL_E_IMPAIRED : Nat := 0x0606
def CEL_E_JOURNAL : Nat := 0x0607
def CEL_E_CALIB : Nat := 0x0608
def EXP_E_SLOT_BUSY : Nat := 0x0701
def EXP_E_TABLE : Nat := 0x0702
def EXP_E_EPOCH : Nat := 0x0703
def EXP_E_DECODE : Nat := 0x0704
def EXP_E_DIGEST : Nat := 0x0705
def EXP_E_IMAGE : Nat := 0x0706
def EXP_E_SPACE : Nat := 0x0707
def EXP_E_SET_BUSY : Nat := 0x0708
def EXP_E_SWAP : Nat := 0x0709
def EXP_E_INSTALL_LOST : Nat := 0x070a
def EXP_E_ABORTED : Nat := 0x070b
def EXP_E_DMA : Nat := 0x070c
def EXP_E_LATE : Nat := 0x070d
def TIL_E_OVERRUN : Nat := 0x0801
def TIL_E_WBUF : Nat := 0x0802
def TIL_E_TALLY : Nat := 0x0803
def TIL_E_THREAD : Nat := 0x0804
def TIL_E_START : Nat := 0x0805
def TIL_E_FORMAT : Nat := 0x0806
def TIL_E_STREAM : Nat := 0x0807
def TIL_E_SEQ : Nat := 0x0808
def TIL_E_SEQ_LIMIT : Nat := 0x0809
def TIL_E_KV_FRAME : Nat := 0x080a
def SRV_E_ADMIT_TIME : Nat := 0x0901
def SRV_E_ADMIT_MEMORY : Nat := 0x0902
def SRV_E_DEADLINE : Nat := 0x0903
def SRV_E_GB : Nat := 0x0904
def SRV_E_EVAL : Nat := 0x0905
def CHN_E_WIRING : Nat := 0x0a01
def CHN_E_LINK_VER : Nat := 0x0a02
def CHN_E_LINK_LOST : Nat := 0x0a03
def CHN_E_NOT_HEAD : Nat := 0x0a04
def CHN_E_HEAD_CONFLICT : Nat := 0x0a05
def CHN_E_TOO_MANY : Nat := 0x0a06
def CHN_E_ROLL_TIMEOUT : Nat := 0x0a07
def CHN_E_ROSTER : Nat := 0x0a08
def CHN_E_EXPORT : Nat := 0x0a09
def CHN_E_ROUTE : Nat := 0x0a0a
def CHN_E_SPAN : Nat := 0x0a0b
def CHN_E_SPAN_WAIT : Nat := 0x0a0c
def CHN_E_MSG : Nat := 0x0a0d
def CHN_E_BUSY : Nat := 0x0a0e
def PWR_E_CAP_LIMIT : Nat := 0x0b01
def PWR_E_MAXDIV : Nat := 0x0b02
def PWR_E_BRAKE_STUCK : Nat := 0x0b03
def PWR_E_RAIL : Nat := 0x0b04
def PWR_E_MODEL : Nat := 0x0b05
def PWR_E_VR : Nat := 0x0b06
def PWR_E_THERM_TRIP : Nat := 0x0b07
def SEC_E_FORMAT : Nat := 0x0c01
def SEC_E_CTX_STATE : Nat := 0x0c02
def SEC_E_CTX_BUSY : Nat := 0x0c03
def SEC_E_LIFECYCLE : Nat := 0x0c04
def SEC_E_TOKEN : Nat := 0x0c05
def SEC_E_DMA : Nat := 0x0c06
def SEC_E_KEY_EXHAUSTED : Nat := 0x0c07
def SEC_E_TAMPER : Nat := 0x0c08
def SEC_E_PEER : Nat := 0x0c09
def SEC_E_WIPE : Nat := 0x0c0a
def SEC_E_OPCODE : Nat := 0x0c0b
def SEC_E_BUSY : Nat := 0x0c0c
def KPR_E_BOOT : Nat := 0x0d01
def KPR_E_FALLBACK : Nat := 0x0d02
def KPR_E_WATCHDOG : Nat := 0x0d03
def KPR_E_NOT_READY : Nat := 0x0d04
def KPR_E_FETCH : Nat := 0x0d05
def KPR_E_UPD_FORMAT : Nat := 0x0d06
def KPR_E_UPD_SIG : Nat := 0x0d07
def KPR_E_UPD_HWTYPE : Nat := 0x0d08
def KPR_E_UPD_UNIT : Nat := 0x0d09
def KPR_E_UPD_PRED : Nat := 0x0d0a
def KPR_E_UPD_CRC : Nat := 0x0d0b
def KPR_E_UPD_RESULT : Nat := 0x0d0c
def KPR_E_UPD_NOR : Nat := 0x0d0d
def KPR_E_UPD_BUSY : Nat := 0x0d0e
def KPR_E_UPD_DMA : Nat := 0x0d0f
def KPR_E_DRAIN : Nat := 0x0d10
def KPR_E_HOSTIF : Nat := 0x0d11
def ERR_E_DOUBLE : Nat := 0x0e01
def ERR_E_INTERNAL : Nat := 0x0e02
def ERR_E_LOCKSTEP : Nat := 0x0e03
def ERR_E_COLLIDE : Nat := 0x0e04

end Code

/-- The class of an error report follows from its code (R410); the clock-limit stop of R74 is the one exception and
is passed as class 7 by its caller. Codes of no class (SRV_E_*) are never reported. -/
def errClass (code : Nat) : Nat :=
  if code = Code.MEM_E_SCR_OWNER then 3
  else if code = Code.ERR_E_DOUBLE then 11
  else
    match code / 256 with
    | 0x01 => 0
    | 0x02 => 1
    | 0x04 => 2
    | 0x05 => 2
    | 0x06 => 4
    | 0x07 => 5
    | 0x08 => 3
    | 0x0A => 6
    | 0x0B => 7
    | 0x0C => 8
    | 0x0D => 9
    | _ => 10

end Sys2Proof.Machine
end

