-- ==== Sys2Proof/Machine/RegMap.lean ====
section
/-! DEFINITION. The register map of the part, one constant per register field (its home offset in BAR0, lowest bit and
width) and one table row per register, written from the register maps of the chapters (spec/00 to spec/16). A field of
an array takes its indices. A pair `_LO`/`_HI` (R16) is one field of up to 64 bits at its `_LO` offset. A register
reached through a selector (HIF_RQ_SEL and so on) has one home per entity, at an offset above the 64 MiB of BAR0 that
no access reaches; `windowed` marks the BAR0 row that a selector redirects. No TIL register changes what a tile holds
(R98); in a status field 0 is success (R20). -/

namespace Sys2Proof.Machine

/-- A register field: the offset of its register, its lowest bit, its width. -/
structure Fld where
  off   : Nat
  lo    : Nat
  width : Nat
  deriving DecidableEq, Repr

/-- The key of a field in the register store. -/
def Fld.key (f : Fld) : Nat := f.off * 64 + f.lo

/-- The access codes of 00_scope.md. -/
inductive Acc where
  | rw | ro | wo | w1c | w1s | rws
  deriving DecidableEq, Repr

/-- What resets a field: every reset (`warm`), COLD_RST_N only (`cold`), none (`kept`: non-volatile). -/
inductive ResetCls where
  | warm | cold | kept
  deriving DecidableEq, Repr

/-- How the part answers a read of a field: from the store, by computing it from other state, or from the home
that a selector picks. -/
inductive FldKind where
  | stored | computed | windowed
  deriving DecidableEq, Repr

/-- One field of a register's row. -/
structure FieldRow where
  lo    : Nat
  width : Nat
  acc   : Acc
  reset : Nat
  cls   : ResetCls
  kind  : FldKind
  deriving DecidableEq, Repr

/-- One array dimension of a register: how many and how far apart. -/
structure Dim where
  count  : Nat
  stride : Nat
  deriving DecidableEq, Repr

/-- One register (or pair) of the map. -/
structure RegRow where
  off    : Nat
  dims   : List Dim
  pair   : Bool
  fields : List FieldRow
  deriving DecidableEq, Repr

namespace Reg


/-! Fields of the GEN block: spec/00_scope.md, R4. -/

def GEN_ID_FAMILY : Fld := ⟨0x0, 16, 16⟩
def GEN_ID_MEMBER : Fld := ⟨0x0, 0, 16⟩
def GEN_REV_STEP_MAJOR : Fld := ⟨0x4, 4, 4⟩
def GEN_REV_STEP_MINOR : Fld := ⟨0x4, 0, 4⟩
def GEN_PARAM_CHAIN_PORTS : Fld := ⟨0x8, 24, 4⟩
def GEN_PARAM_DRAM_32G : Fld := ⟨0x8, 16, 8⟩
def GEN_PARAM_CELLAR_64G : Fld := ⟨0x8, 8, 8⟩
def GEN_PARAM_TILE_HALVES : Fld := ⟨0x8, 0, 8⟩

/-! Fields of the ITN block: spec/02_itinerary.md, R61-R75. -/

def ITN_CAPS_SLOTS : Fld := ⟨0x100000, 24, 8⟩
def ITN_CAPS_FMT_MAJOR : Fld := ⟨0x100000, 16, 8⟩
def ITN_CAPS_FMT_MINOR : Fld := ⟨0x100000, 0, 16⟩
def ITN_CFG_SLOT_SIZE : Fld := ⟨0x100004, 0, 2⟩
def ITN_LOAD_CTRL_GO : Fld := ⟨0x100010, 31, 1⟩
def ITN_LOAD_CTRL_ABORT : Fld := ⟨0x100010, 30, 1⟩
def ITN_LOAD_CTRL_SRC_LIST : Fld := ⟨0x100010, 4, 1⟩
def ITN_LOAD_CTRL_SLOT : Fld := ⟨0x100010, 0, 3⟩
def ITN_LOAD_LEN_LEN : Fld := ⟨0x100014, 12, 20⟩
def ITN_LOAD_SRC : Fld := ⟨0x100018, 0, 64⟩
def ITN_LOAD_STATUS_STATE : Fld := ⟨0x100020, 30, 2⟩
def ITN_LOAD_STATUS_SLOT : Fld := ⟨0x100020, 27, 3⟩
def ITN_LOAD_STATUS_CODE : Fld := ⟨0x100020, 0, 16⟩
def ITN_LOAD_DETAIL_DETAIL : Fld := ⟨0x100024, 0, 32⟩
def ITN_LOAD_PROGRESS_BYTES : Fld := ⟨0x100028, 0, 32⟩
def ITN_IRQ_STATUS_PART1_EVENT : Fld := ⟨0x100030, 3, 1⟩
def ITN_IRQ_STATUS_PART0_EVENT : Fld := ⟨0x100030, 2, 1⟩
def ITN_IRQ_STATUS_BIND_DONE : Fld := ⟨0x100030, 1, 1⟩
def ITN_IRQ_STATUS_LOAD_DONE : Fld := ⟨0x100030, 0, 1⟩
def ITN_IRQ_EN_BITS : Fld := ⟨0x100034, 0, 4⟩
def ITN_SLOT_FREE (s : Nat) : Fld := ⟨0x100040 + s * 0x4, 31, 1⟩
def ITN_SLOT_ACTIVE1 (s : Nat) : Fld := ⟨0x100040 + s * 0x4, 30, 1⟩
def ITN_SLOT_ACTIVE0 (s : Nat) : Fld := ⟨0x100040 + s * 0x4, 29, 1⟩
def ITN_SLOT_PARTS (s : Nat) : Fld := ⟨0x100040 + s * 0x4, 28, 1⟩
def ITN_SLOT_BOUND_COUNT (s : Nat) : Fld := ⟨0x100040 + s * 0x4, 3, 13⟩
def ITN_SLOT_STATE (s : Nat) : Fld := ⟨0x100040 + s * 0x4, 0, 3⟩
def ITN_BIND_GO : Fld := ⟨0x100080, 31, 1⟩
def ITN_BIND_OP : Fld := ⟨0x100080, 16, 2⟩
def ITN_BIND_SLOT : Fld := ⟨0x100080, 12, 3⟩
def ITN_BIND_CONTEXT : Fld := ⟨0x100080, 0, 12⟩
def ITN_BIND_STATUS_BUSY : Fld := ⟨0x100084, 31, 1⟩
def ITN_BIND_STATUS_CODE : Fld := ⟨0x100084, 0, 16⟩
def ITN_P_CTRL_GO (p : Nat) : Fld := ⟨0x100100 + p * 0x80, 31, 1⟩
def ITN_P_CTRL_STOP (p : Nat) : Fld := ⟨0x100100 + p * 0x80, 30, 1⟩
def ITN_P_CTRL_CONTEXT (p : Nat) : Fld := ⟨0x100100 + p * 0x80, 0, 12⟩
def ITN_P_STATUS_PENDING (p : Nat) : Fld := ⟨0x100104 + p * 0x80, 31, 1⟩
def ITN_P_STATUS_STATE (p : Nat) : Fld := ⟨0x100104 + p * 0x80, 28, 3⟩
def ITN_P_STATUS_CONTEXT_RUN (p : Nat) : Fld := ⟨0x100104 + p * 0x80, 16, 12⟩
def ITN_P_STATUS_DIVIDER (p : Nat) : Fld := ⟨0x100104 + p * 0x80, 8, 8⟩
def ITN_P_STATUS_SLOT (p : Nat) : Fld := ⟨0x100104 + p * 0x80, 0, 3⟩
def ITN_P_RESULT_CODE (p : Nat) : Fld := ⟨0x100108 + p * 0x80, 0, 16⟩
def ITN_P_STEPS (p : Nat) : Fld := ⟨0x100110 + p * 0x80, 0, 64⟩
def ITN_P_STALL_TOTAL (p : Nat) : Fld := ⟨0x100118 + p * 0x80, 0, 64⟩
def ITN_P_STALL_RETRY (p : Nat) : Fld := ⟨0x100120 + p * 0x80, 0, 64⟩
def ITN_P_STALL_DROOP (p : Nat) : Fld := ⟨0x100128 + p * 0x80, 0, 64⟩
def ITN_P_STALL_CLOCK (p : Nat) : Fld := ⟨0x100130 + p * 0x80, 0, 64⟩
def ITN_P_STALL_BOOKING (p : Nat) : Fld := ⟨0x100138 + p * 0x80, 0, 64⟩

/-! Fields of the HIF block: spec/11_host_interface_and_queues.md, R281-R300. -/

def HIF_CAPS_RQ_LOG2 : Fld := ⟨0x200000, 24, 8⟩
def HIF_CAPS_CQ_LOG2 : Fld := ⟨0x200000, 16, 8⟩
def HIF_CAPS_VECTORS : Fld := ⟨0x200000, 0, 16⟩
def HIF_LINK_SPEED : Fld := ⟨0x200004, 8, 4⟩
def HIF_LINK_WIDTH : Fld := ⟨0x200004, 0, 5⟩
def HIF_TIME : Fld := ⟨0x200008, 0, 64⟩
def HIF_INFLIGHT_COUNT : Fld := ⟨0x200010, 0, 18⟩
def HIF_RQ_SEL_QUEUE : Fld := ⟨0x200020, 0, 16⟩
def HIF_RQ_CFG_SIZE_LOG2 (q : Nat) : Fld := ⟨0x4000024 + q * 0x40, 27, 5⟩
def HIF_RQ_CFG_CQ (q : Nat) : Fld := ⟨0x4000024 + q * 0x40, 12, 12⟩
def HIF_RQ_CFG_CONTEXT (q : Nat) : Fld := ⟨0x4000024 + q * 0x40, 0, 12⟩
def HIF_RQ_BASE (q : Nat) : Fld := ⟨0x4000028 + q * 0x40, 0, 64⟩
def HIF_RQ_CMD_GO : Fld := ⟨0x200030, 31, 1⟩
def HIF_RQ_CMD_OP : Fld := ⟨0x200030, 0, 2⟩
def HIF_RQ_STATUS_BUSY (q : Nat) : Fld := ⟨0x4000034 + q * 0x40, 31, 1⟩
def HIF_RQ_STATUS_STATE (q : Nat) : Fld := ⟨0x4000034 + q * 0x40, 28, 3⟩
def HIF_RQ_STATUS_CODE (q : Nat) : Fld := ⟨0x4000034 + q * 0x40, 0, 16⟩
def HIF_RQ_HEAD_HEAD (q : Nat) : Fld := ⟨0x4000038 + q * 0x40, 0, 32⟩
def HIF_RQ_TAIL_TAIL (q : Nat) : Fld := ⟨0x400003c + q * 0x40, 0, 32⟩
def HIF_CQ_SEL_QUEUE : Fld := ⟨0x200040, 0, 12⟩
def HIF_CQ_CFG_SIZE_LOG2 (q : Nat) : Fld := ⟨0x5000004 + q * 0x40, 27, 5⟩
def HIF_CQ_CFG_VECTOR (q : Nat) : Fld := ⟨0x5000004 + q * 0x40, 16, 11⟩
def HIF_CQ_CFG_IRQ_EN (q : Nat) : Fld := ⟨0x5000004 + q * 0x40, 15, 1⟩
def HIF_CQ_CFG_COAL_COUNT (q : Nat) : Fld := ⟨0x5000004 + q * 0x40, 8, 7⟩
def HIF_CQ_CFG_COAL_US (q : Nat) : Fld := ⟨0x5000004 + q * 0x40, 0, 8⟩
def HIF_CQ_BASE (q : Nat) : Fld := ⟨0x5000008 + q * 0x40, 0, 64⟩
def HIF_CQ_CMD_GO : Fld := ⟨0x200050, 31, 1⟩
def HIF_CQ_CMD_OP : Fld := ⟨0x200050, 0, 2⟩
def HIF_CQ_STATUS_BUSY (q : Nat) : Fld := ⟨0x5000014 + q * 0x40, 31, 1⟩
def HIF_CQ_STATUS_ENABLED (q : Nat) : Fld := ⟨0x5000014 + q * 0x40, 30, 1⟩
def HIF_CQ_STATUS_HELD (q : Nat) : Fld := ⟨0x5000014 + q * 0x40, 16, 14⟩
def HIF_CQ_STATUS_CODE (q : Nat) : Fld := ⟨0x5000014 + q * 0x40, 0, 16⟩
def HIF_IRQ_STATUS_PARTIAL : Fld := ⟨0x200080, 3, 1⟩
def HIF_IRQ_STATUS_DB_DROP : Fld := ⟨0x200080, 2, 1⟩
def HIF_IRQ_STATUS_CQ_HOLD : Fld := ⟨0x200080, 1, 1⟩
def HIF_IRQ_STATUS_RQ_HALT : Fld := ⟨0x200080, 0, 1⟩
def HIF_IRQ_EN_BITS : Fld := ⟨0x200084, 0, 4⟩
def HIF_HALT_FIRST_QUEUE : Fld := ⟨0x200088, 0, 16⟩
def HIF_IVEC_VECTOR (s : Nat) : Fld := ⟨0x200100 + s * 0x4, 0, 11⟩
def HIF_FETCHED : Fld := ⟨0x200200, 0, 64⟩
def HIF_COMPLETIONS : Fld := ⟨0x200208, 0, 64⟩
def HIF_TOKENS : Fld := ⟨0x200210, 0, 64⟩
def HIF_DB_DROPPED : Fld := ⟨0x200218, 0, 64⟩
def HIF_CQ_HELD : Fld := ⟨0x200220, 0, 64⟩
def HIF_FETCH_ERR : Fld := ⟨0x200228, 0, 64⟩

/-! Fields of the MSIX block: spec/11_host_interface_and_queues.md, R298. -/

def MSIX_ADDR_LO_ADDR (v : Nat) : Fld := ⟨0x300000 + v * 0x10, 0, 32⟩
def MSIX_ADDR_HI_ADDR (v : Nat) : Fld := ⟨0x300004 + v * 0x10, 0, 32⟩
def MSIX_DATA_DATA (v : Nat) : Fld := ⟨0x300008 + v * 0x10, 0, 32⟩
def MSIX_CTRL_MASK (v : Nat) : Fld := ⟨0x30000c + v * 0x10, 0, 1⟩
def MSIX_PBA_BITS (w : Nat) : Fld := ⟨0x308000 + w * 0x4, 0, 32⟩

/-! Fields of the SYN block: spec/11_host_interface_and_queues.md, R296-R301. -/

def SYN_CAPS_CELLS : Fld := ⟨0x400000, 16, 16⟩
def SYN_CAPS_WAITS_LOG2 : Fld := ⟨0x400000, 8, 8⟩
def SYN_CELL (c : Nat) : Fld := ⟨0x410000 + c * 0x8, 0, 64⟩
def SYN_ADD (c : Nat) : Fld := ⟨0x450000 + c * 0x8, 0, 64⟩
def SYN_W_CTRL_ARMED (w : Nat) : Fld := ⟨0x490000 + w * 0x20, 31, 1⟩
def SYN_W_CTRL_FIRED (w : Nat) : Fld := ⟨0x490000 + w * 0x20, 30, 1⟩
def SYN_W_CTRL_VECTOR (w : Nat) : Fld := ⟨0x490000 + w * 0x20, 16, 11⟩
def SYN_W_CTRL_CELL (w : Nat) : Fld := ⟨0x490000 + w * 0x20, 0, 15⟩
def SYN_W_VALUE (w : Nat) : Fld := ⟨0x490008 + w * 0x20, 0, 64⟩

/-! Fields of the XLT block: spec/09_memory_tiers_and_scratchpads.md, R221-R256. -/

def XLT_CAPS_VA_BITS : Fld := ⟨0x800000, 24, 8⟩
def XLT_CAPS_LEVELS : Fld := ⟨0x800000, 20, 4⟩
def XLT_CAPS_PAGES : Fld := ⟨0x800000, 16, 4⟩
def XLT_CAPS_PIN_LOG2 : Fld := ⟨0x800000, 8, 8⟩
def XLT_PIN_USED_USED (p : Nat) : Fld := ⟨0x800004 + p * 0x4, 0, 21⟩
def XLT_INV_CMD_GO : Fld := ⟨0x80000c, 31, 1⟩
def XLT_INV_CMD_BUSY : Fld := ⟨0x80000c, 30, 1⟩
def XLT_INV_CMD_CONTEXT : Fld := ⟨0x80000c, 0, 12⟩
def XLT_BAR4_CTRL_ENABLE : Fld := ⟨0x800010, 31, 1⟩
def XLT_BAR4_CTRL_CONTEXT : Fld := ⟨0x800010, 0, 12⟩
def XLT_BAR4_STATUS_FAULT : Fld := ⟨0x800014, 31, 1⟩
def XLT_BAR4_STATUS_CODE : Fld := ⟨0x800014, 0, 16⟩
def XLT_BAR4_BASE : Fld := ⟨0x800018, 0, 52⟩
def XLT_WALKS : Fld := ⟨0x800100, 0, 64⟩
def XLT_PINS : Fld := ⟨0x800108, 0, 64⟩
def XLT_FAULTS : Fld := ⟨0x800110, 0, 64⟩
def XLT_LATE : Fld := ⟨0x800118, 0, 64⟩

/-! Fields of the MEM block: spec/09_memory_tiers_and_scratchpads.md, R226-R256,R261-R267. -/

def MEM_CAPS_GRAN_LOG2 : Fld := ⟨0xc00000, 24, 8⟩
def MEM_CAPS_CHANNELS : Fld := ⟨0xc00000, 16, 8⟩
def MEM_CAPS_DRAM_GIB : Fld := ⟨0xc00000, 0, 16⟩
def MEM_CFG_SETREC_GIB : Fld := ⟨0xc00004, 0, 3⟩
def MEM_GRAN_AVAIL_COUNT : Fld := ⟨0xc00008, 0, 18⟩
def MEM_GRAN_FREE_COUNT : Fld := ⟨0xc0000c, 0, 18⟩
def MEM_GRAN_SCRUB_COUNT : Fld := ⟨0xc00010, 0, 18⟩
def MEM_GRANT_CMD_GO : Fld := ⟨0xc00020, 31, 1⟩
def MEM_GRANT_CMD_OP : Fld := ⟨0xc00020, 29, 2⟩
def MEM_GRANT_CMD_CONTEXT : Fld := ⟨0xc00020, 0, 12⟩
def MEM_GRANT_FIRST_FIRST : Fld := ⟨0xc00024, 0, 17⟩
def MEM_GRANT_COUNT_COUNT : Fld := ⟨0xc00028, 0, 18⟩
def MEM_GRANT_STATUS_BUSY : Fld := ⟨0xc0002c, 31, 1⟩
def MEM_GRANT_STATUS_OWNED : Fld := ⟨0xc0002c, 28, 1⟩
def MEM_GRANT_STATUS_OWNER : Fld := ⟨0xc0002c, 16, 12⟩
def MEM_GRANT_STATUS_CODE : Fld := ⟨0xc0002c, 0, 16⟩
def MEM_MIG_CMD_GO : Fld := ⟨0xc00040, 31, 1⟩
def MEM_MIG_CMD_ABORT : Fld := ⟨0xc00040, 30, 1⟩
def MEM_MIG_CMD_DST_TIER : Fld := ⟨0xc00040, 24, 2⟩
def MEM_MIG_CMD_CONTEXT : Fld := ⟨0xc00040, 0, 12⟩
def MEM_MIG_PAGES_PAGES : Fld := ⟨0xc00044, 0, 21⟩
def MEM_MIG_VA : Fld := ⟨0xc00048, 0, 64⟩
def MEM_MIG_DST : Fld := ⟨0xc00050, 0, 64⟩
def MEM_MIG_STATUS_BUSY : Fld := ⟨0xc00058, 31, 1⟩
def MEM_MIG_STATUS_CODE : Fld := ⟨0xc00058, 0, 16⟩
def MEM_MIG_MOVED_PAGES : Fld := ⟨0xc0005c, 0, 21⟩
def MEM_MIG_SKIPPED_PAGES : Fld := ⟨0xc00060, 0, 21⟩
def MEM_SCR_SEL_TILE : Fld := ⟨0xc00070, 5, 5⟩
def MEM_SCR_SEL_BANK : Fld := ⟨0xc00070, 0, 5⟩
def MEM_SCR_CONF (n b : Nat) : Fld := ⟨0x6000000 + n * 0x100 + b * 0x8, 0, 64⟩
def MEM_SCR_TEST_CTRL_ENABLE : Fld := ⟨0xc00080, 0, 1⟩
def MEM_SCR_TEST_STATUS_FAIL : Fld := ⟨0xc00084, 31, 1⟩
def MEM_SCR_TEST_STATUS_TILE : Fld := ⟨0xc00084, 21, 5⟩
def MEM_SCR_TEST_STATUS_BANK : Fld := ⟨0xc00084, 16, 5⟩
def MEM_SCR_TEST_STATUS_REGION : Fld := ⟨0xc00084, 0, 6⟩
def MEM_SEC_STATUS_WIPING : Fld := ⟨0xc00090, 31, 1⟩
def MEM_SEC_STATUS_WIPES : Fld := ⟨0xc00090, 0, 8⟩
def MEM_IRQ_STATUS_SEC_WIPE : Fld := ⟨0xc000a0, 5, 1⟩
def MEM_IRQ_STATUS_COPY_HALT : Fld := ⟨0xc000a0, 4, 1⟩
def MEM_IRQ_STATUS_SCR_TEST : Fld := ⟨0xc000a0, 3, 1⟩
def MEM_IRQ_STATUS_SCRUB_DONE : Fld := ⟨0xc000a0, 2, 1⟩
def MEM_IRQ_STATUS_MIG_DONE : Fld := ⟨0xc000a0, 1, 1⟩
def MEM_IRQ_STATUS_GRANT_DONE : Fld := ⟨0xc000a0, 0, 1⟩
def MEM_IRQ_EN_BITS : Fld := ⟨0xc000a4, 0, 6⟩
def MEM_DRAM_CORR : Fld := ⟨0xc00100, 0, 64⟩
def MEM_DRAM_UNCORR : Fld := ⟨0xc00108, 0, 64⟩
def MEM_SCR_ECC_CORR : Fld := ⟨0xc00110, 0, 64⟩
def MEM_SCR_TESTED : Fld := ⟨0xc00118, 0, 64⟩
def MEM_SCRUB_BYTES : Fld := ⟨0xc00120, 0, 64⟩
def MEM_MIG_BYTES : Fld := ⟨0xc00128, 0, 64⟩
def MEM_COPY_BYTES : Fld := ⟨0xc00130, 0, 64⟩
def MEM_BKG_STATUS_KEEPER : Fld := ⟨0xc00180, 24, 7⟩
def MEM_BKG_STATUS_PART1 : Fld := ⟨0xc00180, 16, 7⟩
def MEM_BKG_STATUS_PART0 : Fld := ⟨0xc00180, 8, 7⟩
def MEM_BKG_WATCH_PART1 : Fld := ⟨0xc00184, 16, 12⟩
def MEM_BKG_WATCH_PART0 : Fld := ⟨0xc00184, 0, 12⟩
def MEM_BKG_COMMITS : Fld := ⟨0xc00200, 0, 64⟩
def MEM_BKG_AB_CONFLICT : Fld := ⟨0xc00208, 0, 64⟩
def MEM_BKG_AB_CHECK : Fld := ⟨0xc00210, 0, 64⟩
def MEM_BKG_AB_FAULT : Fld := ⟨0xc00218, 0, 64⟩
def MEM_BKG_AB_PREEMPT : Fld := ⟨0xc00220, 0, 64⟩
def MEM_BKG_FALLBACK : Fld := ⟨0xc00228, 0, 64⟩
def MEM_CH_BASE (c : Nat) : Fld := ⟨0xc01000 + c * 0x40, 0, 64⟩
def MEM_CH_CFG_ENABLE (c : Nat) : Fld := ⟨0xc01008 + c * 0x40, 31, 1⟩
def MEM_CH_CFG_SIZE_LOG2 (c : Nat) : Fld := ⟨0xc01008 + c * 0x40, 0, 5⟩
def MEM_CH_PROD_PROD (c : Nat) : Fld := ⟨0xc0100c + c * 0x40, 0, 32⟩
def MEM_CH_CONS_CONS (c : Nat) : Fld := ⟨0xc01010 + c * 0x40, 0, 32⟩
def MEM_CH_STATUS_HALTED (c : Nat) : Fld := ⟨0xc01014 + c * 0x40, 31, 1⟩
def MEM_CH_STATUS_BUSY (c : Nat) : Fld := ⟨0xc01014 + c * 0x40, 30, 1⟩
def MEM_CH_STATUS_CODE (c : Nat) : Fld := ⟨0xc01014 + c * 0x40, 0, 16⟩
def MEM_CH_FAULT_OFF (c : Nat) : Fld := ⟨0xc01018 + c * 0x40, 0, 64⟩
def MEM_CH_CTRL_RESUME (c : Nat) : Fld := ⟨0xc01020 + c * 0x40, 31, 1⟩
def MEM_CH_CTRL_SKIP (c : Nat) : Fld := ⟨0xc01020 + c * 0x40, 30, 1⟩
def MEM_CH_TAG (c : Nat) : Fld := ⟨0xc01028 + c * 0x40, 0, 64⟩

/-! Fields of the CEL block: spec/07_cellar_weight_store.md, R163-R188. -/

def CEL_CAPS_DIES : Fld := ⟨0x1000000, 24, 8⟩
def CEL_CAPS_BANKS : Fld := ⟨0x1000000, 16, 8⟩
def CEL_CAPS_BLOCKS : Fld := ⟨0x1000000, 8, 8⟩
def CEL_CAPS_PLANES_LOG2 : Fld := ⟨0x1000000, 4, 4⟩
def CEL_CAPS_PAGE_LOG2 : Fld := ⟨0x1000000, 0, 4⟩
def CEL_STATUS_REBUILT : Fld := ⟨0x1000004, 16, 1⟩
def CEL_STATUS_INT_BLOCKS : Fld := ⟨0x1000004, 8, 8⟩
def CEL_STATUS_PHASE : Fld := ⟨0x1000004, 0, 3⟩
def CEL_CAPACITY_USER_BLOCKS : Fld := ⟨0x1000008, 0, 17⟩
def CEL_CAPACITY_ALLOC_BLOCKS : Fld := ⟨0x100000c, 0, 17⟩
def CEL_SPARE_MIN_PLANE : Fld := ⟨0x1000010, 16, 10⟩
def CEL_SPARE_MIN_SPARE : Fld := ⟨0x1000010, 0, 3⟩
def CEL_DISTURB_CFG_THRESH_K : Fld := ⟨0x1000020, 0, 16⟩
def CEL_WEAR_STAGE1_COUNT : Fld := ⟨0x1000030, 0, 18⟩
def CEL_WEAR_STAGE2_COUNT : Fld := ⟨0x1000034, 0, 18⟩
def CEL_WEAR_RETIRED_FACTORY : Fld := ⟨0x1000038, 20, 12⟩
def CEL_WEAR_RETIRED_COUNT : Fld := ⟨0x1000038, 0, 18⟩
def CEL_BANK_BUSY : Fld := ⟨0x1000040, 0, 64⟩
def CEL_IRQ_STATUS_READY : Fld := ⟨0x1000050, 6, 1⟩
def CEL_IRQ_STATUS_CAPACITY : Fld := ⟨0x1000050, 5, 1⟩
def CEL_IRQ_STATUS_IMPAIRED : Fld := ⟨0x1000050, 4, 1⟩
def CEL_IRQ_STATUS_RETIRE : Fld := ⟨0x1000050, 3, 1⟩
def CEL_IRQ_STATUS_STAGE : Fld := ⟨0x1000050, 2, 1⟩
def CEL_IRQ_STATUS_BUS_FAULT : Fld := ⟨0x1000050, 1, 1⟩
def CEL_IRQ_STATUS_UNCORR : Fld := ⟨0x1000050, 0, 1⟩
def CEL_IRQ_EN_BITS : Fld := ⟨0x1000054, 0, 7⟩
def CEL_CAL_SEL_DIE : Fld := ⟨0x1000060, 10, 4⟩
def CEL_CAL_SEL_WORD : Fld := ⟨0x1000060, 0, 10⟩
def CEL_CAL_DATA_DATA : Fld := ⟨0x1000064, 0, 32⟩
def CEL_BQ_SEL_GO : Fld := ⟨0x1000070, 31, 1⟩
def CEL_BQ_SEL_BUSY : Fld := ⟨0x1000070, 30, 1⟩
def CEL_BQ_SEL_PLANE : Fld := ⟨0x1000070, 16, 10⟩
def CEL_BQ_SEL_PHYS : Fld := ⟨0x1000070, 7, 1⟩
def CEL_BQ_SEL_BLOCK : Fld := ⟨0x1000070, 0, 7⟩
def CEL_BQ_DATA0_SWEEPS_K : Fld := ⟨0x1000074, 16, 16⟩
def CEL_BQ_DATA0_PE : Fld := ⟨0x1000074, 0, 16⟩
def CEL_BQ_DATA1_STATE : Fld := ⟨0x1000078, 28, 4⟩
def CEL_BQ_DATA1_STAGE : Fld := ⟨0x1000078, 26, 2⟩
def CEL_BQ_DATA1_PROG_10US : Fld := ⟨0x1000078, 16, 10⟩
def CEL_BQ_DATA1_RETRY : Fld := ⟨0x1000078, 8, 8⟩
def CEL_BQ_DATA1_PBLOCK : Fld := ⟨0x1000078, 0, 7⟩
def CEL_READS : Fld := ⟨0x1000100, 0, 64⟩
def CEL_RETRIES : Fld := ⟨0x1000108, 0, 64⟩
def CEL_REBUILDS : Fld := ⟨0x1000110, 0, 64⟩
def CEL_UNCORR : Fld := ⟨0x1000118, 0, 64⟩
def CEL_RELOC : Fld := ⟨0x1000120, 0, 64⟩
def CEL_ERASES : Fld := ⟨0x1000128, 0, 64⟩
def CEL_BUSFAULTS : Fld := ⟨0x1000130, 0, 64⟩
def CEL_FORCED_WAIT : Fld := ⟨0x1000138, 0, 64⟩

/-! Fields of the EXP block: spec/08_expander_and_weight_lifecycle.md, R189-R220,R456,R459. -/

def EXP_CAPS_EXPANDERS : Fld := ⟨0x1400000, 24, 8⟩
def EXP_CAPS_SETS : Fld := ⟨0x1400000, 16, 8⟩
def EXP_CAPS_MODEL_SLOTS : Fld := ⟨0x1400000, 8, 8⟩
def EXP_CAPS_TABLE_IDS : Fld := ⟨0x1400000, 0, 8⟩
def EXP_TBL_CMD_GO : Fld := ⟨0x1400010, 31, 1⟩
def EXP_TBL_CMD_FROM_SET : Fld := ⟨0x1400010, 30, 1⟩
def EXP_TBL_CMD_SET : Fld := ⟨0x1400010, 24, 6⟩
def EXP_TBL_CMD_TABLE_ID : Fld := ⟨0x1400010, 16, 5⟩
def EXP_TBL_CMD_SLOT : Fld := ⟨0x1400010, 8, 1⟩
def EXP_TBL_CMD_EPOCH : Fld := ⟨0x1400010, 0, 8⟩
def EXP_TBL_CRC_CRC : Fld := ⟨0x1400014, 0, 32⟩
def EXP_TBL_SRC : Fld := ⟨0x1400018, 0, 64⟩
def EXP_TBL_STATUS_BUSY : Fld := ⟨0x1400020, 31, 1⟩
def EXP_TBL_STATUS_CODE : Fld := ⟨0x1400020, 0, 16⟩
def EXP_INST_CMD_GO : Fld := ⟨0x1400040, 31, 1⟩
def EXP_INST_CMD_ABORT : Fld := ⟨0x1400040, 30, 1⟩
def EXP_INST_CMD_OP : Fld := ⟨0x1400040, 8, 2⟩
def EXP_INST_CMD_SRC_LIST : Fld := ⟨0x1400040, 7, 1⟩
def EXP_INST_CMD_SET : Fld := ⟨0x1400040, 0, 6⟩
def EXP_INST_SRC : Fld := ⟨0x1400048, 0, 64⟩
def EXP_INST_STATUS_STATE : Fld := ⟨0x1400050, 29, 3⟩
def EXP_INST_STATUS_SET : Fld := ⟨0x1400050, 16, 6⟩
def EXP_INST_STATUS_CODE : Fld := ⟨0x1400050, 0, 16⟩
def EXP_INST_PROGRESS : Fld := ⟨0x1400058, 0, 64⟩
def EXP_SETQ_SEL_SET : Fld := ⟨0x1400060, 8, 6⟩
def EXP_SETQ_SEL_WORD : Fld := ⟨0x1400060, 0, 4⟩
def EXP_SETQ_DATA_DATA : Fld := ⟨0x1400064, 0, 32⟩
def EXP_MSLOT_CMD_GO : Fld := ⟨0x1400080, 31, 1⟩
def EXP_MSLOT_CMD_CLEAR : Fld := ⟨0x1400080, 30, 1⟩
def EXP_MSLOT_CMD_MODEL_SLOT : Fld := ⟨0x1400080, 16, 6⟩
def EXP_MSLOT_CMD_SET : Fld := ⟨0x1400080, 0, 6⟩
def EXP_MSLOT_STATUS_BUSY : Fld := ⟨0x1400084, 31, 1⟩
def EXP_MSLOT_STATUS_CODE : Fld := ⟨0x1400084, 0, 16⟩
def EXP_CTXV_SEL_CONTEXT : Fld := ⟨0x1400090, 0, 12⟩
def EXP_CTXV_DATA_PREFILL_SLOT (x : Nat) : Fld := ⟨0x7000000 + x * 0x4, 8, 8⟩
def EXP_CTXV_DATA_DECODE_SLOT (x : Nat) : Fld := ⟨0x7000000 + x * 0x4, 0, 8⟩
def EXP_RECHECK_CFG_HOURS : Fld := ⟨0x14000a0, 0, 8⟩
def EXP_RECHECK_STATUS_ACTIVE : Fld := ⟨0x14000a4, 31, 1⟩
def EXP_RECHECK_STATUS_SET : Fld := ⟨0x14000a4, 24, 6⟩
def EXP_RECHECK_STATUS_AGE_H : Fld := ⟨0x14000a4, 0, 16⟩
def EXP_IRQ_STATUS_LATE_CLEAN : Fld := ⟨0x14000b0, 6, 1⟩
def EXP_IRQ_STATUS_RECHECK_DONE : Fld := ⟨0x14000b0, 5, 1⟩
def EXP_IRQ_STATUS_FAULT : Fld := ⟨0x14000b0, 4, 1⟩
def EXP_IRQ_STATUS_DIGEST_FAIL : Fld := ⟨0x14000b0, 3, 1⟩
def EXP_IRQ_STATUS_SWAP_DONE : Fld := ⟨0x14000b0, 2, 1⟩
def EXP_IRQ_STATUS_INST_DONE : Fld := ⟨0x14000b0, 1, 1⟩
def EXP_IRQ_STATUS_TBL_DONE : Fld := ⟨0x14000b0, 0, 1⟩
def EXP_IRQ_EN_BITS : Fld := ⟨0x14000b4, 0, 7⟩
def EXP_TBL_TAG_B (t : Nat) : Fld := ⟨0x1400100 + t * 0x4, 24, 8⟩
def EXP_TBL_TAG_A (t : Nat) : Fld := ⟨0x1400100 + t * 0x4, 16, 8⟩
def EXP_TBL_BUSY_B (t : Nat) : Fld := ⟨0x1400100 + t * 0x4, 1, 1⟩
def EXP_TBL_BUSY_A (t : Nat) : Fld := ⟨0x1400100 + t * 0x4, 0, 1⟩
def EXP_SET_STATE (s : Nat) : Fld := ⟨0x1400200 + s * 0x4, 29, 3⟩
def EXP_SET_FORM (s : Nat) : Fld := ⟨0x1400200 + s * 0x4, 27, 2⟩
def EXP_SET_LBLOCKS (s : Nat) : Fld := ⟨0x1400200 + s * 0x4, 0, 17⟩
def EXP_MSLOT_VALID (m : Nat) : Fld := ⟨0x1400300 + m * 0x4, 31, 1⟩
def EXP_MSLOT_PENDING (m : Nat) : Fld := ⟨0x1400300 + m * 0x4, 30, 1⟩
def EXP_MSLOT_SET (m : Nat) : Fld := ⟨0x1400300 + m * 0x4, 24, 6⟩
def EXP_MSLOT_NEXT_SET (m : Nat) : Fld := ⟨0x1400300 + m * 0x4, 16, 6⟩
def EXP_BLOCKS : Fld := ⟨0x1400400, 0, 64⟩
def EXP_EXC : Fld := ⟨0x1400408, 0, 64⟩
def EXP_ESCAPES : Fld := ⟨0x1400410, 0, 64⟩
def EXP_CLAMPS : Fld := ⟨0x1400418, 0, 64⟩
def EXP_LATE : Fld := ⟨0x1400420, 0, 64⟩
def EXP_LATE_CLEAN : Fld := ⟨0x1400428, 0, 64⟩
def EXP_FAULTS : Fld := ⟨0x1400430, 0, 64⟩
def EXP_RECHECK_BYTES : Fld := ⟨0x1400438, 0, 64⟩

/-! Fields of the TIL block: spec/03_tiles_and_matrix_arrays.md and spec/04_numeric_formats.md, R96-R99,R119-R121. -/

def TIL_STATUS_MAXDIV (n : Nat) : Fld := ⟨0x1800000 + n * 0x10000, 24, 8⟩
def TIL_STATUS_DIV (n : Nat) : Fld := ⟨0x1800000 + n * 0x10000, 16, 8⟩
def TIL_STATUS_PART (n : Nat) : Fld := ⟨0x1800000 + n * 0x10000, 10, 2⟩
def TIL_STATUS_STATE (n : Nat) : Fld := ⟨0x1800000 + n * 0x10000, 0, 3⟩
def TIL_CAPS_ARRAYS (n : Nat) : Fld := ⟨0x1800004 + n * 0x10000, 24, 8⟩
def TIL_CAPS_THREAD_LOG2 (n : Nat) : Fld := ⟨0x1800004 + n * 0x10000, 16, 8⟩
def TIL_CAPS_BANKS (n : Nat) : Fld := ⟨0x1800004 + n * 0x10000, 8, 8⟩
def TIL_CAPS_BANK_16K (n : Nat) : Fld := ⟨0x1800004 + n * 0x10000, 0, 8⟩
def TIL_THREADS_BOUND (n : Nat) : Fld := ⟨0x1800008 + n * 0x10000, 16, 16⟩
def TIL_THREADS_DECLARED (n : Nat) : Fld := ⟨0x1800008 + n * 0x10000, 0, 16⟩
def TIL_BEAT_BEAT (n : Nat) : Fld := ⟨0x180000c + n * 0x10000, 0, 32⟩
def TIL_ARR_LIVE (n a : Nat) : Fld := ⟨0x1800100 + n * 0x10000 + a * 0x80, 0, 64⟩
def TIL_ARR_PAD (n a : Nat) : Fld := ⟨0x1800108 + n * 0x10000 + a * 0x80, 0, 64⟩
def TIL_ARR_FILLER (n a : Nat) : Fld := ⟨0x1800110 + n * 0x10000 + a * 0x80, 0, 64⟩
def TIL_ARR_LOADS (n a : Nat) : Fld := ⟨0x1800118 + n * 0x10000 + a * 0x80, 0, 64⟩
def TIL_ARR_RAMP (n a : Nat) : Fld := ⟨0x1800120 + n * 0x10000 + a * 0x80, 0, 64⟩
def TIL_ARR_GATED (n a : Nat) : Fld := ⟨0x1800128 + n * 0x10000 + a * 0x80, 0, 64⟩
def TIL_ERR_STATUS_START (n : Nat) : Fld := ⟨0x1800200 + n * 0x10000, 4, 1⟩
def TIL_ERR_STATUS_THREAD (n : Nat) : Fld := ⟨0x1800200 + n * 0x10000, 3, 1⟩
def TIL_ERR_STATUS_TALLY (n : Nat) : Fld := ⟨0x1800200 + n * 0x10000, 2, 1⟩
def TIL_ERR_STATUS_WBUF (n : Nat) : Fld := ⟨0x1800200 + n * 0x10000, 1, 1⟩
def TIL_ERR_STATUS_OVERRUN (n : Nat) : Fld := ⟨0x1800200 + n * 0x10000, 0, 1⟩
def TIL_ERR_INFO_SOURCE (n : Nat) : Fld := ⟨0x1800204 + n * 0x10000, 28, 4⟩
def TIL_ERR_INFO_ROW (n : Nat) : Fld := ⟨0x1800204 + n * 0x10000, 16, 8⟩
def TIL_ERR_INFO_THREAD (n : Nat) : Fld := ⟨0x1800204 + n * 0x10000, 0, 15⟩
def TIL_ECC_CORR_COUNT (n : Nat) : Fld := ⟨0x1800208 + n * 0x10000, 0, 32⟩
def TIL_MSE_SUM (n i : Nat) : Fld := ⟨0x1800400 + n * 0x10000 + i * 0x20, 0, 48⟩
def TIL_MSE_COUNT (n i : Nat) : Fld := ⟨0x1800408 + n * 0x10000 + i * 0x20, 0, 48⟩
def TIL_MSE_CLIP_CLIP (n i : Nat) : Fld := ⟨0x1800410 + n * 0x10000 + i * 0x20, 0, 32⟩
def TIL_MSE_NONFIN_NONFIN (n i : Nat) : Fld := ⟨0x1800414 + n * 0x10000 + i * 0x20, 0, 32⟩
def TIL_MSE_SITE_SITE_ID (n i : Nat) : Fld := ⟨0x1800418 + n * 0x10000 + i * 0x20, 16, 16⟩
def TIL_MSE_SITE_GEN (n i : Nat) : Fld := ⟨0x1800418 + n * 0x10000 + i * 0x20, 8, 8⟩
def TIL_MSE_SITE_VALID (n i : Nat) : Fld := ⟨0x1800418 + n * 0x10000 + i * 0x20, 7, 1⟩
def TIL_MSE_SITE_ITN_SLOT (n i : Nat) : Fld := ⟨0x1800418 + n * 0x10000 + i * 0x20, 0, 3⟩

/-! Fields of the SRV block: spec/12_serving_and_latency.md, R302-R326. -/

def SRV_CAPS_ROW_GROUPS : Fld := ⟨0x1c00000, 24, 8⟩
def SRV_CAPS_PROMISE_PCT : Fld := ⟨0x1c00000, 16, 8⟩
def SRV_IRQ_STATUS_EVAL_CHANGE : Fld := ⟨0x1c00010, 3, 1⟩
def SRV_IRQ_STATUS_OVER : Fld := ⟨0x1c00010, 2, 1⟩
def SRV_IRQ_STATUS_REFUSED : Fld := ⟨0x1c00010, 1, 1⟩
def SRV_IRQ_STATUS_DEADLINE : Fld := ⟨0x1c00010, 0, 1⟩
def SRV_IRQ_EN_BITS : Fld := ⟨0x1c00014, 0, 4⟩
def SRV_EVAL_CTRL_GO : Fld := ⟨0x1c00020, 31, 1⟩
def SRV_EVAL_CTRL_PART : Fld := ⟨0x1c00020, 8, 1⟩
def SRV_EVAL_CTRL_CAP_W : Fld := ⟨0x1c00020, 0, 8⟩
def SRV_EVAL_STATUS_BUSY : Fld := ⟨0x1c00024, 31, 1⟩
def SRV_EVAL_STATUS_VALID : Fld := ⟨0x1c00024, 30, 1⟩
def SRV_EVAL_STATUS_DIVIDER : Fld := ⟨0x1c00024, 16, 8⟩
def SRV_EVAL_STATUS_CODE : Fld := ⟨0x1c00024, 0, 16⟩
def SRV_GB_SEL_CONTEXT : Fld := ⟨0x1c00030, 0, 12⟩
def SRV_GB_CFG_MAX_FRAMES (x : Nat) : Fld := ⟨0x9000000 + x * 0x8, 0, 23⟩
def SRV_GB_CMD_GO : Fld := ⟨0x1c00038, 31, 1⟩
def SRV_GB_CMD_OP : Fld := ⟨0x1c00038, 0, 2⟩
def SRV_GB_STATUS_BUSY (x : Nat) : Fld := ⟨0x9000004 + x * 0x8, 31, 1⟩
def SRV_GB_STATUS_ENABLED : Fld := ⟨0x1c0003c, 30, 1⟩
def SRV_GB_STATUS_CODE (x : Nat) : Fld := ⟨0x9000004 + x * 0x8, 0, 16⟩
def SRV_GB_ENTRIES_LIVE : Fld := ⟨0x1c00040, 0, 32⟩
def SRV_GB_FRAMES_HELD : Fld := ⟨0x1c00044, 0, 23⟩
def SRV_P_CFG_ADMIT_EN (p : Nat) : Fld := ⟨0x1c00100 + p * 0x80, 31, 1⟩
def SRV_P_CFG_CHUNK_RESERVE (p : Nat) : Fld := ⟨0x1c00100 + p * 0x80, 16, 3⟩
def SRV_P_CFG_ADMIT_REQS (p : Nat) : Fld := ⟨0x1c00100 + p * 0x80, 0, 9⟩
def SRV_P_STEP_US_US (p : Nat) : Fld := ⟨0x1c00104 + p * 0x80, 0, 32⟩
def SRV_P_CHUNK_US_US (p : Nat) : Fld := ⟨0x1c00108 + p * 0x80, 0, 32⟩
def SRV_P_URGENT_GO (p : Nat) : Fld := ⟨0x1c0010c + p * 0x80, 31, 1⟩
def SRV_P_URGENT_STOP (p : Nat) : Fld := ⟨0x1c0010c + p * 0x80, 30, 1⟩
def SRV_P_URGENT_CONTEXT (p : Nat) : Fld := ⟨0x1c0010c + p * 0x80, 0, 12⟩
def SRV_P_LOAD_ADMITTED (p : Nat) : Fld := ⟨0x1c00110 + p * 0x80, 0, 18⟩
def SRV_P_LAST_BEATS_BEATS (p : Nat) : Fld := ⟨0x1c00114 + p * 0x80, 0, 32⟩
def SRV_P_LAST_FORMULA_BEATS (p : Nat) : Fld := ⟨0x1c00118 + p * 0x80, 0, 32⟩
def SRV_P_PREFILL_POS_POS (p : Nat) : Fld := ⟨0x1c0011c + p * 0x80, 0, 32⟩
def SRV_P_ADMITTED (p : Nat) : Fld := ⟨0x1c00120 + p * 0x80, 0, 64⟩
def SRV_P_REF_TIME (p : Nat) : Fld := ⟨0x1c00128 + p * 0x80, 0, 64⟩
def SRV_P_REF_MEM (p : Nat) : Fld := ⟨0x1c00130 + p * 0x80, 0, 64⟩
def SRV_P_DEADLINE (p : Nat) : Fld := ⟨0x1c00138 + p * 0x80, 0, 64⟩
def SRV_P_OVER (p : Nat) : Fld := ⟨0x1c00140 + p * 0x80, 0, 64⟩
def SRV_P_EXEMPT (p : Nat) : Fld := ⟨0x1c00148 + p * 0x80, 0, 64⟩

/-! Fields of the CHN block: spec/13_chain.md, R327-R353. -/

def CHN_STATUS_CALLED : Fld := ⟨0x2000000, 31, 1⟩
def CHN_STATUS_RING : Fld := ⟨0x2000000, 30, 1⟩
def CHN_STATUS_STALE : Fld := ⟨0x2000000, 29, 1⟩
def CHN_STATUS_HEAD_STRAP : Fld := ⟨0x2000000, 28, 1⟩
def CHN_STATUS_COUNT : Fld := ⟨0x2000000, 8, 7⟩
def CHN_STATUS_ROOM : Fld := ⟨0x2000000, 0, 7⟩
def CHN_LEVEL_COMPAT_LEVEL : Fld := ⟨0x2000004, 16, 16⟩
def CHN_LEVEL_LINK_VER : Fld := ⟨0x2000004, 8, 8⟩
def CHN_LEVEL_LINK_MIN : Fld := ⟨0x2000004, 0, 8⟩
def CHN_CFG_SQ_SHIFT : Fld := ⟨0x2000008, 0, 6⟩
def CHN_ROLL_CMD_GO : Fld := ⟨0x2000010, 31, 1⟩
def CHN_ROLL_STATUS_BUSY : Fld := ⟨0x2000014, 31, 1⟩
def CHN_ROLL_STATUS_CODE : Fld := ⟨0x2000014, 0, 16⟩
def CHN_ROSTER_SEL_ROOM : Fld := ⟨0x2000018, 2, 7⟩
def CHN_ROSTER_SEL_WORD : Fld := ⟨0x2000018, 0, 2⟩
def CHN_ROSTER_DATA_DATA : Fld := ⟨0x200001c, 0, 32⟩
def CHN_IRQ_STATUS_SPAN_HALT : Fld := ⟨0x2000020, 4, 1⟩
def CHN_IRQ_STATUS_EXPORT_REFUSED : Fld := ⟨0x2000020, 3, 1⟩
def CHN_IRQ_STATUS_ROSTER : Fld := ⟨0x2000020, 2, 1⟩
def CHN_IRQ_STATUS_ROLL_DONE : Fld := ⟨0x2000020, 1, 1⟩
def CHN_IRQ_STATUS_PORT : Fld := ⟨0x2000020, 0, 1⟩
def CHN_IRQ_EN_BITS : Fld := ⟨0x2000024, 0, 5⟩
def CHN_P_CTRL_ENABLE (p : Nat) : Fld := ⟨0x2000100 + p * 0x40, 31, 1⟩
def CHN_P_CTRL_RETRAIN (p : Nat) : Fld := ⟨0x2000100 + p * 0x40, 30, 1⟩
def CHN_P_STATUS_STATE (p : Nat) : Fld := ⟨0x2000104 + p * 0x40, 29, 3⟩
def CHN_P_STATUS_NEG_VER (p : Nat) : Fld := ⟨0x2000104 + p * 0x40, 16, 8⟩
def CHN_P_STATUS_CODE (p : Nat) : Fld := ⟨0x2000104 + p * 0x40, 0, 16⟩
def CHN_P_PEER_LINK_VER (p : Nat) : Fld := ⟨0x2000108 + p * 0x40, 24, 8⟩
def CHN_P_PEER_LINK_MIN (p : Nat) : Fld := ⟨0x2000108 + p * 0x40, 16, 8⟩
def CHN_P_PEER_ROOM (p : Nat) : Fld := ⟨0x2000108 + p * 0x40, 0, 7⟩
def CHN_EXP_SEL_GO : Fld := ⟨0x2000200, 31, 1⟩
def CHN_EXP_SEL_LOAD : Fld := ⟨0x2000200, 30, 1⟩
def CHN_EXP_SEL_ENTRY : Fld := ⟨0x2000200, 0, 14⟩
def CHN_EXP_DATA0_VALID : Fld := ⟨0x2000204, 31, 1⟩
def CHN_EXP_DATA0_W : Fld := ⟨0x2000204, 30, 1⟩
def CHN_EXP_DATA0_REQ_ROOM : Fld := ⟨0x2000204, 23, 7⟩
def CHN_EXP_DATA0_GRANULE : Fld := ⟨0x2000204, 0, 17⟩
def CHN_EXP_DATA1_CODE : Fld := ⟨0x2000208, 16, 12⟩
def CHN_EXP_DATA1_CONTEXT : Fld := ⟨0x2000208, 0, 12⟩
def CHN_S_ROOMSEL_STAGE (p : Nat) : Fld := ⟨0x2000300 + p * 0x40, 0, 6⟩
def CHN_S_ROOM_ROOM (p g : Nat) : Fld := ⟨0x8000000 + p * 0x100 + g * 0x4, 0, 7⟩
def CHN_S_IN_VA (p : Nat) : Fld := ⟨0x2000308 + p * 0x40, 0, 52⟩
def CHN_S_OUT_VA (p : Nat) : Fld := ⟨0x2000310 + p * 0x40, 0, 52⟩
def CHN_S_STATUS_RUNNING (p : Nat) : Fld := ⟨0x2000318 + p * 0x40, 31, 1⟩
def CHN_S_STATUS_CODE (p : Nat) : Fld := ⟨0x2000318 + p * 0x40, 0, 16⟩
def CHN_P_TX_FLITS (p : Nat) : Fld := ⟨0x2001000 + p * 0x80, 0, 64⟩
def CHN_P_RX_FLITS (p : Nat) : Fld := ⟨0x2001008 + p * 0x80, 0, 64⟩
def CHN_P_FEC_CORR (p : Nat) : Fld := ⟨0x2001010 + p * 0x80, 0, 64⟩
def CHN_P_FEC_UNCORR (p : Nat) : Fld := ⟨0x2001018 + p * 0x80, 0, 64⟩
def CHN_P_REPLAYS (p : Nat) : Fld := ⟨0x2001020 + p * 0x80, 0, 64⟩
def CHN_P_UNKNOWN (p : Nat) : Fld := ⟨0x2001028 + p * 0x80, 0, 64⟩
def CHN_P_MSE_SUM (p : Nat) : Fld := ⟨0x2001030 + p * 0x80, 0, 48⟩
def CHN_P_MSE_COUNT (p : Nat) : Fld := ⟨0x2001038 + p * 0x80, 0, 48⟩
def CHN_P_MSE_CLIP (p : Nat) : Fld := ⟨0x2001040 + p * 0x80, 0, 64⟩

/-! Fields of the PWR block: spec/14_power_clocks_thermal.md, R354-R375. -/

def PWR_CAPS_CAP_MIN_W : Fld := ⟨0x2400000, 24, 8⟩
def PWR_CAPS_CEIL_W : Fld := ⟨0x2400000, 16, 8⟩
def PWR_CAPS_TRIP_C : Fld := ⟨0x2400000, 8, 8⟩
def PWR_CAPS_DIV_SET : Fld := ⟨0x2400000, 0, 8⟩
def PWR_CAP_CTRL_CODE : Fld := ⟨0x2400004, 16, 16⟩
def PWR_CAP_CTRL_CLAMPED : Fld := ⟨0x2400004, 8, 1⟩
def PWR_CAP_CTRL_CAP_W : Fld := ⟨0x2400004, 0, 8⟩
def PWR_STATUS_SAFE : Fld := ⟨0x2400008, 31, 1⟩
def PWR_STATUS_BRAKE_IN : Fld := ⟨0x2400008, 30, 1⟩
def PWR_STATUS_VDD_MV : Fld := ⟨0x2400008, 0, 16⟩
def PWR_POWER_PKG_DW : Fld := ⟨0x240000c, 16, 16⟩
def PWR_POWER_CORE_DW : Fld := ⟨0x240000c, 0, 16⟩
def PWR_CURRENT_PEAK_A : Fld := ⟨0x2400010, 16, 16⟩
def PWR_CURRENT_CORE_A : Fld := ⟨0x2400010, 0, 16⟩
def PWR_TEMP_TJ_C : Fld := ⟨0x2400014, 24, 8⟩
def PWR_TEMP_CELLAR_C : Fld := ⟨0x2400014, 16, 8⟩
def PWR_TEMP_PEAK_TJ_C : Fld := ⟨0x2400014, 8, 8⟩
def PWR_TEMP_HOT_SENSOR : Fld := ⟨0x2400014, 0, 6⟩
def PWR_UNCORE_PARK_MW : Fld := ⟨0x2400018, 16, 16⟩
def PWR_UNCORE_PU_DW : Fld := ⟨0x2400018, 0, 16⟩
def PWR_THERM_CFG_CELLAR_C : Fld := ⟨0x2400020, 8, 8⟩
def PWR_THERM_CFG_THROTTLE_C : Fld := ⟨0x2400020, 0, 8⟩
def PWR_THR_ACTIVE_KEEPER_REQUEST : Fld := ⟨0x2400030, 5, 1⟩
def PWR_THR_ACTIVE_RAIL_FAULT : Fld := ⟨0x2400030, 4, 1⟩
def PWR_THR_ACTIVE_EXTERNAL_BRAKE : Fld := ⟨0x2400030, 3, 1⟩
def PWR_THR_ACTIVE_THERMAL : Fld := ⟨0x2400030, 2, 1⟩
def PWR_THR_ACTIVE_CURRENT_LIMIT : Fld := ⟨0x2400030, 1, 1⟩
def PWR_THR_ACTIVE_POWER_CAP : Fld := ⟨0x2400030, 0, 1⟩
def PWR_THR_SEEN_KEEPER_REQUEST : Fld := ⟨0x2400034, 5, 1⟩
def PWR_THR_SEEN_RAIL_FAULT : Fld := ⟨0x2400034, 4, 1⟩
def PWR_THR_SEEN_EXTERNAL_BRAKE : Fld := ⟨0x2400034, 3, 1⟩
def PWR_THR_SEEN_THERMAL : Fld := ⟨0x2400034, 2, 1⟩
def PWR_THR_SEEN_CURRENT_LIMIT : Fld := ⟨0x2400034, 1, 1⟩
def PWR_THR_SEEN_POWER_CAP : Fld := ⟨0x2400034, 0, 1⟩
def PWR_IRQ_STATUS_VR : Fld := ⟨0x2400040, 5, 1⟩
def PWR_IRQ_STATUS_MODEL : Fld := ⟨0x2400040, 4, 1⟩
def PWR_IRQ_STATUS_RAIL : Fld := ⟨0x2400040, 3, 1⟩
def PWR_IRQ_STATUS_BRAKE_STUCK : Fld := ⟨0x2400040, 2, 1⟩
def PWR_IRQ_STATUS_MAXDIV : Fld := ⟨0x2400040, 1, 1⟩
def PWR_IRQ_STATUS_THROTTLE : Fld := ⟨0x2400040, 0, 1⟩
def PWR_IRQ_EN_BITS : Fld := ⟨0x2400044, 0, 6⟩
def PWR_BRAKE_GLITCH_COUNT : Fld := ⟨0x2400048, 0, 32⟩
def PWR_P_DIV_DIV (p : Nat) : Fld := ⟨0x2400100 + p * 0x40, 24, 8⟩
def PWR_P_DIV_FLOOR (p : Nat) : Fld := ⟨0x2400100 + p * 0x40, 16, 8⟩
def PWR_P_DIV_CAP_DIV (p : Nat) : Fld := ⟨0x2400100 + p * 0x40, 8, 8⟩
def PWR_P_DIV_FORCE_DIV (p : Nat) : Fld := ⟨0x2400100 + p * 0x40, 0, 8⟩
def PWR_P_CHANGES (p : Nat) : Fld := ⟨0x2400108 + p * 0x40, 0, 64⟩
def PWR_TILE_MAXDIV (n : Nat) : Fld := ⟨0x2400200 + n * 0x4, 24, 8⟩
def PWR_TILE_FUSED_DIV (n : Nat) : Fld := ⟨0x2400200 + n * 0x4, 16, 8⟩
def PWR_TILE_K_MW (n : Nat) : Fld := ⟨0x2400200 + n * 0x4, 0, 16⟩
def PWR_DUR (r : Nat) : Fld := ⟨0x2400400 + r * 0x8, 0, 64⟩
def PWR_DROOPS : Fld := ⟨0x2400440, 0, 64⟩

/-! Fields of the KPR block: spec/16_keeper_errors_and_update.md, R396-R424,R457. -/

def KPR_STATUS_READY : Fld := ⟨0x2800000, 31, 1⟩
def KPR_STATUS_TRIAL : Fld := ⟨0x2800000, 30, 1⟩
def KPR_STATUS_IF_MISMATCH : Fld := ⟨0x2800000, 29, 1⟩
def KPR_STATUS_BOOT_SLOT : Fld := ⟨0x2800000, 28, 1⟩
def KPR_STATUS_STATE : Fld := ⟨0x2800000, 24, 4⟩
def KPR_STATUS_BOOT_CODE : Fld := ⟨0x2800000, 0, 16⟩
def KPR_FW_VERSION_VERSION : Fld := ⟨0x2800004, 0, 32⟩
def KPR_HOSTIF_MAX : Fld := ⟨0x2800008, 16, 16⟩
def KPR_HOSTIF_MIN : Fld := ⟨0x2800008, 0, 16⟩
def KPR_DRV_IF_VERSION : Fld := ⟨0x280000c, 0, 16⟩
def KPR_HEARTBEAT_MS : Fld := ⟨0x2800010, 0, 32⟩
def KPR_DB_MARK_VALUE : Fld := ⟨0x2800020, 0, 32⟩
def KPR_DB_SEQ_SEQ : Fld := ⟨0x2800024, 0, 32⟩
def KPR_TRACE_MASK : Fld := ⟨0x2800030, 0, 64⟩
def KPR_FETCH_CMD_GO : Fld := ⟨0x2800040, 31, 1⟩
def KPR_FETCH_CMD_SRC : Fld := ⟨0x2800040, 0, 1⟩
def KPR_FETCH_FIRST_FIRST : Fld := ⟨0x2800044, 0, 32⟩
def KPR_FETCH_DST : Fld := ⟨0x2800048, 0, 64⟩
def KPR_FETCH_COUNT_COUNT : Fld := ⟨0x2800050, 0, 19⟩
def KPR_FETCH_STATUS_BUSY : Fld := ⟨0x2800054, 31, 1⟩
def KPR_FETCH_STATUS_CODE : Fld := ⟨0x2800054, 0, 16⟩
def KPR_UPD_CMD_GO : Fld := ⟨0x2800080, 31, 1⟩
def KPR_UPD_CMD_SRC_LIST : Fld := ⟨0x2800080, 2, 1⟩
def KPR_UPD_CMD_OP : Fld := ⟨0x2800080, 0, 2⟩
def KPR_UPD_CFG_AUTO_ACT : Fld := ⟨0x2800084, 31, 1⟩
def KPR_UPD_CFG_RELAY : Fld := ⟨0x2800084, 30, 1⟩
def KPR_UPD_CFG_DRAIN_S : Fld := ⟨0x2800084, 0, 16⟩
def KPR_UPD_SRC : Fld := ⟨0x2800088, 0, 64⟩
def KPR_UPD_LEN_LEN : Fld := ⟨0x2800090, 12, 20⟩
def KPR_UPD_STATUS_STATE : Fld := ⟨0x2800094, 28, 4⟩
def KPR_UPD_STATUS_RELAYED : Fld := ⟨0x2800094, 27, 1⟩
def KPR_UPD_STATUS_CODE : Fld := ⟨0x2800094, 0, 16⟩
def KPR_UPD_PROGRESS_FORWARDED : Fld := ⟨0x2800098, 16, 16⟩
def KPR_UPD_PROGRESS_APPLIED : Fld := ⟨0x2800098, 0, 16⟩
def KPR_UPD_VERSION_VERSION : Fld := ⟨0x280009c, 0, 32⟩
def KPR_UPD_HOSTIF_RANGE : Fld := ⟨0x28000a0, 0, 32⟩
def KPR_MCTP_CFG_SMB_EN : Fld := ⟨0x28000c0, 31, 1⟩
def KPR_MCTP_CFG_VDM_EN : Fld := ⟨0x28000c0, 30, 1⟩
def KPR_MCTP_CFG_SMB_ADDR : Fld := ⟨0x28000c0, 0, 7⟩
def KPR_MCTP_EID_EID : Fld := ⟨0x28000c4, 0, 8⟩
def KPR_IRQ_STATUS_TRACE_DROP : Fld := ⟨0x28000e0, 4, 1⟩
def KPR_IRQ_STATUS_DRAINING : Fld := ⟨0x28000e0, 3, 1⟩
def KPR_IRQ_STATUS_UPD_DONE : Fld := ⟨0x28000e0, 2, 1⟩
def KPR_IRQ_STATUS_FETCH_DONE : Fld := ⟨0x28000e0, 1, 1⟩
def KPR_IRQ_STATUS_READY : Fld := ⟨0x28000e0, 0, 1⟩
def KPR_IRQ_EN_BITS : Fld := ⟨0x28000e4, 0, 5⟩
def KPR_DB_WRITTEN : Fld := ⟨0x2800100, 0, 64⟩
def KPR_TRACE_DROPPED : Fld := ⟨0x2800108, 0, 64⟩
def KPR_MCTP_RX : Fld := ⟨0x2800110, 0, 64⟩
def KPR_RESTARTS : Fld := ⟨0x2800118, 0, 64⟩

/-! Fields of the ERR block: spec/16_keeper_errors_and_update.md, R408-R415,R426,R458. -/

def ERR_CAPS_RING : Fld := ⟨0x2c00000, 16, 16⟩
def ERR_CAPS_BUF : Fld := ⟨0x2c00000, 8, 8⟩
def ERR_CAPS_CLASSES : Fld := ⟨0x2c00000, 0, 8⟩
def ERR_RING_PROD_PROD : Fld := ⟨0x2c00004, 0, 32⟩
def ERR_RING_CONS_CONS : Fld := ⟨0x2c00008, 0, 32⟩
def ERR_RD_IDX_IDX : Fld := ⟨0x2c0000c, 0, 10⟩
def ERR_SAFE_SAFE : Fld := ⟨0x2c00010, 31, 1⟩
def ERR_SAFE_CLASS : Fld := ⟨0x2c00010, 16, 4⟩
def ERR_SAFE_CODE : Fld := ⟨0x2c00010, 0, 16⟩
def ERR_LOST_BUF_COUNT : Fld := ⟨0x2c00014, 0, 32⟩
def ERR_LOST_RING_COUNT : Fld := ⟨0x2c00018, 0, 32⟩
def ERR_CTRL_CLEAR : Fld := ⟨0x2c0001c, 0, 1⟩
def ERR_SUM_SEL_CLASS : Fld := ⟨0x2c00020, 8, 4⟩
def ERR_SUM_SEL_LAST : Fld := ⟨0x2c00020, 4, 1⟩
def ERR_SUM_SEL_WORD : Fld := ⟨0x2c00020, 0, 4⟩
def ERR_SUM_DATA_DATA : Fld := ⟨0x2c00024, 0, 32⟩
def ERR_ALERT_EN_SEV : Fld := ⟨0x2c00028, 16, 4⟩
def ERR_ALERT_EN_CLASS_MASK : Fld := ⟨0x2c00028, 0, 16⟩
def ERR_IRQ_STATUS_SAFE : Fld := ⟨0x2c00030, 3, 1⟩
def ERR_IRQ_STATUS_ALERT : Fld := ⟨0x2c00030, 2, 1⟩
def ERR_IRQ_STATUS_LOST : Fld := ⟨0x2c00030, 1, 1⟩
def ERR_IRQ_STATUS_RECORD : Fld := ⟨0x2c00030, 0, 1⟩
def ERR_IRQ_EN_BITS : Fld := ⟨0x2c00034, 0, 4⟩
def ERR_REC_WORD (w : Nat) : Fld := ⟨0x2c00040 + w * 0x4, 0, 32⟩
def ERR_CLASS_CNT_COUNT (c : Nat) : Fld := ⟨0x2c00100 + c * 0x4, 0, 32⟩

/-! Fields of the SEC block: spec/15_security_and_contexts.md, R376-R395. -/

def SEC_CAPS_CONTEXTS : Fld := ⟨0x3000000, 16, 16⟩
def SEC_CAPS_KEY_SLOTS : Fld := ⟨0x3000000, 12, 4⟩
def SEC_MBX_CMD_GO : Fld := ⟨0x3000010, 31, 1⟩
def SEC_MBX_CMD_OP : Fld := ⟨0x3000010, 0, 8⟩
def SEC_MBX_ARG_ARG (i : Nat) : Fld := ⟨0x3000020 + i * 0x4, 0, 32⟩
def SEC_MBX_BUF : Fld := ⟨0x3000060, 0, 64⟩
def SEC_MBX_LEN_LEN : Fld := ⟨0x3000068, 0, 16⟩
def SEC_MBX_STATUS_BUSY : Fld := ⟨0x300006c, 31, 1⟩
def SEC_MBX_STATUS_CODE : Fld := ⟨0x300006c, 0, 16⟩
def SEC_MBX_RESULT_PEER_CODE : Fld := ⟨0x3000070, 16, 16⟩
def SEC_MBX_RESULT_BYTES : Fld := ⟨0x3000070, 0, 16⟩
def SEC_IRQ_STATUS_INDEX_LOW : Fld := ⟨0x3000080, 4, 1⟩
def SEC_IRQ_STATUS_CTX_FREE : Fld := ⟨0x3000080, 3, 1⟩
def SEC_IRQ_STATUS_LC_CHANGE : Fld := ⟨0x3000080, 2, 1⟩
def SEC_IRQ_STATUS_TAMPER : Fld := ⟨0x3000080, 1, 1⟩
def SEC_IRQ_STATUS_MBX_DONE : Fld := ⟨0x3000080, 0, 1⟩
def SEC_IRQ_EN_BITS : Fld := ⟨0x3000084, 0, 5⟩
def SRM_LC_STATE : Fld := ⟨0x3001000, 29, 3⟩
def SRM_LIMITS0_MIN_DIV : Fld := ⟨0x3001004, 24, 8⟩
def SRM_LIMITS0_THROTTLE_HW_C : Fld := ⟨0x3001004, 16, 8⟩
def SRM_LIMITS0_TRIP_C : Fld := ⟨0x3001004, 8, 8⟩
def SRM_LIMITS0_CEIL_W : Fld := ⟨0x3001004, 0, 8⟩
def SRM_LIMITS1_VMAX_MV : Fld := ⟨0x3001008, 16, 16⟩
def SRM_LIMITS1_VMIN_MV : Fld := ⟨0x3001008, 0, 16⟩
def SRM_LIMITS2_ICC_PEAK_A : Fld := ⟨0x300100c, 16, 16⟩
def SRM_LIMITS2_ICC_SUST_A : Fld := ⟨0x300100c, 0, 16⟩
def SRM_UID_UID (i : Nat) : Fld := ⟨0x3001010 + i * 0x4, 0, 32⟩
def SRM_KEYS_PRESENT : Fld := ⟨0x3001020, 4, 4⟩
def SRM_KEYS_REVOKED : Fld := ⟨0x3001020, 0, 4⟩
def SRM_ORDER_CONTENT : Fld := ⟨0x3001024, 16, 8⟩
def SRM_ORDER_TEMP : Fld := ⟨0x3001024, 8, 8⟩
def SRM_ORDER_CEIL : Fld := ⟨0x3001024, 0, 8⟩
def SRM_TAMPER_LAST_SRC : Fld := ⟨0x3001028, 16, 8⟩
def SRM_TAMPER_COUNT : Fld := ⟨0x3001028, 0, 16⟩
def SRM_IDX_NEXT : Fld := ⟨0x3001030, 0, 40⟩
def SRM_IDX_RSV_BLOCKS : Fld := ⟨0x3001038, 0, 25⟩
def SRM_OWNER_DIGEST (i : Nat) : Fld := ⟨0x3001040 + i * 0x4, 0, 32⟩
def SEC_CTX_STATE (c : Nat) : Fld := ⟨0x3008000 + c * 0x4, 29, 3⟩
def SEC_CTX_RUN1 (c : Nat) : Fld := ⟨0x3008000 + c * 0x4, 28, 1⟩
def SEC_CTX_RUN0 (c : Nat) : Fld := ⟨0x3008000 + c * 0x4, 27, 1⟩
def SEC_CTX_BOUND (c : Nat) : Fld := ⟨0x3008000 + c * 0x4, 26, 1⟩
def SEC_CTX_SLOT (c : Nat) : Fld := ⟨0x3008000 + c * 0x4, 0, 3⟩

end Reg

/-- Rows of the GEN block: GEN_ID, GEN_REV, GEN_PARAM. -/
def rowsGEN : List RegRow := [
  ⟨0x0, [], false, [⟨16, 16, .ro, 0x484c, .warm, .stored⟩, ⟨0, 16, .ro, 0x3200, .warm, .stored⟩]⟩,
  ⟨0x4, [], false, [⟨4, 4, .ro, 0x2, .warm, .stored⟩, ⟨0, 4, .ro, 0x1, .warm, .stored⟩]⟩,
  ⟨0x8, [], false, [⟨24, 4, .ro, 0x2, .warm, .stored⟩, ⟨16, 8, .ro, 0x8, .warm, .stored⟩, ⟨8, 8, .ro, 0x8, .warm, .stored⟩, ⟨0, 8, .ro, 0x40, .warm, .stored⟩]⟩]

/-- Rows of the ITN block: ITN_CAPS, ITN_CFG, ITN_LOAD_CTRL, ITN_LOAD_LEN, ITN_LOAD_SRC, ITN_LOAD_STATUS,
ITN_LOAD_DETAIL, ITN_LOAD_PROGRESS, ITN_IRQ_STATUS, ITN_IRQ_EN, ITN_SLOT, ITN_BIND, ITN_BIND_STATUS,
ITN_P_CTRL, ITN_P_STATUS, ITN_P_RESULT, ITN_P_STEPS, ITN_P_STALL_TOTAL, ITN_P_STALL_RETRY, ITN_P_STALL_DROOP,
ITN_P_STALL_CLOCK, ITN_P_STALL_BOOKING. -/
def rowsITN : List RegRow := [
  ⟨0x100000, [], false, [⟨24, 8, .ro, 0x8, .warm, .stored⟩, ⟨16, 8, .ro, 0x1, .warm, .stored⟩, ⟨0, 16, .ro, 0x2, .warm, .stored⟩]⟩,
  ⟨0x100004, [], false, [⟨0, 2, .rw, 0x2, .warm, .stored⟩]⟩,
  ⟨0x100010, [], false, [⟨31, 1, .wo, 0x0, .warm, .stored⟩, ⟨30, 1, .wo, 0x0, .warm, .stored⟩, ⟨4, 1, .rw, 0x0, .warm, .stored⟩, ⟨0, 3, .rw, 0x0, .warm, .stored⟩]⟩,
  ⟨0x100014, [], false, [⟨12, 20, .rw, 0x0, .warm, .stored⟩]⟩,
  ⟨0x100018, [], true, [⟨0, 64, .rw, 0x0, .warm, .stored⟩]⟩,
  ⟨0x100020, [], false, [⟨30, 2, .ro, 0x0, .warm, .stored⟩, ⟨27, 3, .ro, 0x0, .warm, .stored⟩, ⟨0, 16, .ro, 0x0, .warm, .stored⟩]⟩,
  ⟨0x100024, [], false, [⟨0, 32, .ro, 0x0, .warm, .stored⟩]⟩,
  ⟨0x100028, [], false, [⟨0, 32, .ro, 0x0, .warm, .stored⟩]⟩,
  ⟨0x100030, [], false, [⟨3, 1, .w1c, 0x0, .warm, .stored⟩, ⟨2, 1, .w1c, 0x0, .warm, .stored⟩, ⟨1, 1, .w1c, 0x0, .warm, .stored⟩, ⟨0, 1, .w1c, 0x0, .warm, .stored⟩]⟩,
  ⟨0x100034, [], false, [⟨0, 4, .rw, 0x0, .warm, .stored⟩]⟩,
  ⟨0x100040, [⟨8, 0x4⟩], false, [⟨31, 1, .wo, 0x0, .warm, .stored⟩, ⟨30, 1, .ro, 0x0, .warm, .stored⟩, ⟨29, 1, .ro, 0x0, .warm, .stored⟩, ⟨28, 1, .ro, 0x0, .warm, .stored⟩, ⟨3, 13, .ro, 0x0, .warm, .stored⟩, ⟨0, 3, .ro, 0x0, .warm, .stored⟩]⟩,
  ⟨0x100080, [], false, [⟨31, 1, .wo, 0x0, .warm, .stored⟩, ⟨16, 2, .rw, 0x0, .warm, .stored⟩, ⟨12, 3, .rw, 0x0, .warm, .stored⟩, ⟨0, 12, .rw, 0x0, .warm, .stored⟩]⟩,
  ⟨0x100084, [], false, [⟨31, 1, .ro, 0x0, .warm, .stored⟩, ⟨0, 16, .ro, 0x0, .warm, .stored⟩]⟩,
  ⟨0x100100, [⟨2, 0x80⟩], false, [⟨31, 1, .wo, 0x0, .warm, .stored⟩, ⟨30, 1, .wo, 0x0, .warm, .stored⟩, ⟨0, 12, .rw, 0x0, .warm, .stored⟩]⟩,
  ⟨0x100104, [⟨2, 0x80⟩], false, [⟨31, 1, .ro, 0x0, .warm, .stored⟩, ⟨28, 3, .ro, 0x0, .warm, .stored⟩, ⟨16, 12, .ro, 0x0, .warm, .stored⟩, ⟨8, 8, .ro, 0x0, .warm, .stored⟩, ⟨0, 3, .ro, 0x0, .warm, .stored⟩]⟩,
  ⟨0x100108, [⟨2, 0x80⟩], false, [⟨0, 16, .ro, 0x0, .warm, .stored⟩]⟩,
  ⟨0x100110, [⟨2, 0x80⟩], true, [⟨0, 64, .ro, 0x0, .cold, .stored⟩]⟩,
  ⟨0x100118, [⟨2, 0x80⟩], true, [⟨0, 64, .ro, 0x0, .cold, .stored⟩]⟩,
  ⟨0x100120, [⟨2, 0x80⟩], true, [⟨0, 64, .ro, 0x0, .cold, .stored⟩]⟩,
  ⟨0x100128, [⟨2, 0x80⟩], true, [⟨0, 64, .ro, 0x0, .cold, .stored⟩]⟩,
  ⟨0x100130, [⟨2, 0x80⟩], true, [⟨0, 64, .ro, 0x0, .cold, .stored⟩]⟩,
  ⟨0x100138, [⟨2, 0x80⟩], true, [⟨0, 64, .ro, 0x0, .cold, .stored⟩]⟩]

/-- Rows of the HIF block: HIF_CAPS, HIF_LINK, HIF_TIME, HIF_INFLIGHT, HIF_RQ_SEL, HIF_RQ_CFG, HIF_RQ_BASE,
HIF_RQ_CMD, HIF_RQ_STATUS, HIF_RQ_HEAD, HIF_RQ_TAIL, HIF_CQ_SEL, HIF_CQ_CFG, HIF_CQ_BASE, HIF_CQ_CMD,
HIF_CQ_STATUS, HIF_IRQ_STATUS, HIF_IRQ_EN, HIF_HALT_FIRST, HIF_IVEC, HIF_FETCHED, HIF_COMPLETIONS, HIF_TOKENS,
HIF_DB_DROPPED. -/
def rowsHIF0 : List RegRow := [
  ⟨0x200000, [], false, [⟨24, 8, .ro, 0x10, .warm, .stored⟩, ⟨16, 8, .ro, 0xc, .warm, .stored⟩, ⟨0, 16, .ro, 0x800, .warm, .stored⟩]⟩,
  ⟨0x200004, [], false, [⟨8, 4, .ro, 0x0, .warm, .stored⟩, ⟨0, 5, .ro, 0x0, .warm, .stored⟩]⟩,
  ⟨0x200008, [], true, [⟨0, 64, .ro, 0x0, .cold, .computed⟩]⟩,
  ⟨0x200010, [], false, [⟨0, 18, .ro, 0x0, .warm, .computed⟩]⟩,
  ⟨0x200020, [], false, [⟨0, 16, .rw, 0x0, .warm, .stored⟩]⟩,
  ⟨0x200024, [], false, [⟨27, 5, .rw, 0x4, .warm, .windowed⟩, ⟨12, 12, .rw, 0x0, .warm, .windowed⟩, ⟨0, 12, .rw, 0x0, .warm, .windowed⟩]⟩,
  ⟨0x200028, [], true, [⟨0, 64, .rw, 0x0, .warm, .windowed⟩]⟩,
  ⟨0x200030, [], false, [⟨31, 1, .wo, 0x0, .warm, .stored⟩, ⟨0, 2, .rw, 0x0, .warm, .stored⟩]⟩,
  ⟨0x200034, [], false, [⟨31, 1, .ro, 0x0, .warm, .windowed⟩, ⟨28, 3, .ro, 0x0, .warm, .windowed⟩, ⟨0, 16, .ro, 0x0, .warm, .windowed⟩]⟩,
  ⟨0x200038, [], false, [⟨0, 32, .ro, 0x0, .warm, .windowed⟩]⟩,
  ⟨0x20003c, [], false, [⟨0, 32, .ro, 0x0, .warm, .windowed⟩]⟩,
  ⟨0x200040, [], false, [⟨0, 12, .rw, 0x0, .warm, .stored⟩]⟩,
  ⟨0x200044, [], false, [⟨27, 5, .rw, 0x4, .warm, .windowed⟩, ⟨16, 11, .rw, 0x0, .warm, .windowed⟩, ⟨15, 1, .rw, 0x0, .warm, .windowed⟩, ⟨8, 7, .rw, 0x0, .warm, .windowed⟩, ⟨0, 8, .rw, 0x0, .warm, .windowed⟩]⟩,
  ⟨0x200048, [], true, [⟨0, 64, .rw, 0x0, .warm, .windowed⟩]⟩,
  ⟨0x200050, [], false, [⟨31, 1, .wo, 0x0, .warm, .stored⟩, ⟨0, 2, .rw, 0x0, .warm, .stored⟩]⟩,
  ⟨0x200054, [], false, [⟨31, 1, .ro, 0x0, .warm, .windowed⟩, ⟨30, 1, .ro, 0x0, .warm, .windowed⟩, ⟨16, 14, .ro, 0x0, .warm, .windowed⟩, ⟨0, 16, .ro, 0x0, .warm, .windowed⟩]⟩,
  ⟨0x200080, [], false, [⟨3, 1, .w1c, 0x0, .warm, .stored⟩, ⟨2, 1, .w1c, 0x0, .warm, .stored⟩, ⟨1, 1, .w1c, 0x0, .warm, .stored⟩, ⟨0, 1, .w1c, 0x0, .warm, .stored⟩]⟩,
  ⟨0x200084, [], false, [⟨0, 4, .rw, 0x0, .warm, .stored⟩]⟩,
  ⟨0x200088, [], false, [⟨0, 16, .ro, 0x0, .warm, .stored⟩]⟩,
  ⟨0x200100, [⟨19, 0x4⟩], false, [⟨0, 11, .rw, 0x0, .warm, .stored⟩]⟩,
  ⟨0x200200, [], true, [⟨0, 64, .ro, 0x0, .cold, .stored⟩]⟩,
  ⟨0x200208, [], true, [⟨0, 64, .ro, 0x0, .cold, .stored⟩]⟩,
  ⟨0x200210, [], true, [⟨0, 64, .ro, 0x0, .cold, .stored⟩]⟩,
  ⟨0x200218, [], true, [⟨0, 64, .ro, 0x0, .cold, .stored⟩]⟩]

/-- Rows of the HIF block: HIF_CQ_HELD, HIF_FETCH_ERR. -/
def rowsHIF1 : List RegRow := [
  ⟨0x200220, [], true, [⟨0, 64, .ro, 0x0, .cold, .stored⟩]⟩,
  ⟨0x200228, [], true, [⟨0, 64, .ro, 0x0, .cold, .stored⟩]⟩]

/-- Rows of the MSIX block: MSIX_ADDR_LO, MSIX_ADDR_HI, MSIX_DATA, MSIX_CTRL, MSIX_PBA. -/
def rowsMSIX : List RegRow := [
  ⟨0x300000, [⟨2048, 0x10⟩], false, [⟨0, 32, .rw, 0x0, .warm, .stored⟩]⟩,
  ⟨0x300004, [⟨2048, 0x10⟩], false, [⟨0, 32, .rw, 0x0, .warm, .stored⟩]⟩,
  ⟨0x300008, [⟨2048, 0x10⟩], false, [⟨0, 32, .rw, 0x0, .warm, .stored⟩]⟩,
  ⟨0x30000c, [⟨2048, 0x10⟩], false, [⟨0, 1, .rw, 0x1, .warm, .stored⟩]⟩,
  ⟨0x308000, [⟨64, 0x4⟩], false, [⟨0, 32, .ro, 0x0, .warm, .stored⟩]⟩]

/-- Rows of the SYN block: SYN_CAPS, SYN_CELL, SYN_ADD, SYN_W_CTRL, SYN_W_VALUE. -/
def rowsSYN : List RegRow := [
  ⟨0x400000, [], false, [⟨16, 16, .ro, 0x8000, .warm, .stored⟩, ⟨8, 8, .ro, 0x8, .warm, .stored⟩]⟩,
  ⟨0x410000, [⟨32768, 0x8⟩], true, [⟨0, 64, .rw, 0x0, .warm, .stored⟩]⟩,
  ⟨0x450000, [⟨32768, 0x8⟩], true, [⟨0, 64, .wo, 0x0, .warm, .stored⟩]⟩,
  ⟨0x490000, [⟨256, 0x20⟩], false, [⟨31, 1, .rw, 0x0, .warm, .stored⟩, ⟨30, 1, .w1c, 0x0, .warm, .stored⟩, ⟨16, 11, .rw, 0x0, .warm, .stored⟩, ⟨0, 15, .rw, 0x0, .warm, .stored⟩]⟩,
  ⟨0x490008, [⟨256, 0x20⟩], true, [⟨0, 64, .rw, 0x0, .warm, .stored⟩]⟩]

/-- Rows of the XLT block: XLT_CAPS, XLT_PIN_USED, XLT_INV_CMD, XLT_BAR4_CTRL, XLT_BAR4_STATUS, XLT_BAR4_BASE,
XLT_WALKS, XLT_PINS, XLT_FAULTS, XLT_LATE. -/
def rowsXLT : List RegRow := [
  ⟨0x800000, [], false, [⟨24, 8, .ro, 0x34, .warm, .stored⟩, ⟨20, 4, .ro, 0x4, .warm, .stored⟩, ⟨16, 4, .ro, 0x7, .warm, .stored⟩, ⟨8, 8, .ro, 0x14, .warm, .stored⟩]⟩,
  ⟨0x800004, [⟨2, 0x4⟩], false, [⟨0, 21, .ro, 0x0, .warm, .computed⟩]⟩,
  ⟨0x80000c, [], false, [⟨31, 1, .wo, 0x0, .warm, .stored⟩, ⟨30, 1, .ro, 0x0, .warm, .stored⟩, ⟨0, 12, .rw, 0x0, .warm, .stored⟩]⟩,
  ⟨0x800010, [], false, [⟨31, 1, .rw, 0x0, .warm, .stored⟩, ⟨0, 12, .rw, 0x0, .warm, .stored⟩]⟩,
  ⟨0x800014, [], false, [⟨31, 1, .w1c, 0x0, .warm, .stored⟩, ⟨0, 16, .ro, 0x0, .warm, .stored⟩]⟩,
  ⟨0x800018, [], true, [⟨0, 52, .rw, 0x0, .warm, .stored⟩]⟩,
  ⟨0x800100, [], true, [⟨0, 64, .ro, 0x0, .cold, .stored⟩]⟩,
  ⟨0x800108, [], true, [⟨0, 64, .ro, 0x0, .cold, .stored⟩]⟩,
  ⟨0x800110, [], true, [⟨0, 64, .ro, 0x0, .cold, .stored⟩]⟩,
  ⟨0x800118, [], true, [⟨0, 64, .ro, 0x0, .cold, .stored⟩]⟩]

/-- Rows of the MEM block: MEM_CAPS, MEM_CFG, MEM_GRAN_AVAIL, MEM_GRAN_FREE, MEM_GRAN_SCRUB, MEM_GRANT_CMD,
MEM_GRANT_FIRST, MEM_GRANT_COUNT, MEM_GRANT_STATUS, MEM_MIG_CMD, MEM_MIG_PAGES, MEM_MIG_VA, MEM_MIG_DST,
MEM_MIG_STATUS, MEM_MIG_MOVED, MEM_MIG_SKIPPED, MEM_SCR_SEL, MEM_SCR_CONF, MEM_SCR_TEST_CTRL,
MEM_SCR_TEST_STATUS, MEM_SEC_STATUS, MEM_IRQ_STATUS, MEM_IRQ_EN, MEM_DRAM_CORR. -/
def rowsMEM0 : List RegRow := [
  ⟨0xc00000, [], false, [⟨24, 8, .ro, 0x15, .warm, .stored⟩, ⟨16, 8, .ro, 0x8, .warm, .stored⟩, ⟨0, 16, .ro, 0x100, .warm, .stored⟩]⟩,
  ⟨0xc00004, [], false, [⟨0, 3, .rw, 0x2, .warm, .stored⟩]⟩,
  ⟨0xc00008, [], false, [⟨0, 18, .ro, 0x0, .warm, .computed⟩]⟩,
  ⟨0xc0000c, [], false, [⟨0, 18, .ro, 0x0, .warm, .computed⟩]⟩,
  ⟨0xc00010, [], false, [⟨0, 18, .ro, 0x0, .warm, .computed⟩]⟩,
  ⟨0xc00020, [], false, [⟨31, 1, .wo, 0x0, .warm, .stored⟩, ⟨29, 2, .rw, 0x0, .warm, .stored⟩, ⟨0, 12, .rw, 0x0, .warm, .stored⟩]⟩,
  ⟨0xc00024, [], false, [⟨0, 17, .rw, 0x0, .warm, .stored⟩]⟩,
  ⟨0xc00028, [], false, [⟨0, 18, .rw, 0x0, .warm, .stored⟩]⟩,
  ⟨0xc0002c, [], false, [⟨31, 1, .ro, 0x0, .warm, .stored⟩, ⟨28, 1, .ro, 0x0, .warm, .stored⟩, ⟨16, 12, .ro, 0x0, .warm, .stored⟩, ⟨0, 16, .ro, 0x0, .warm, .stored⟩]⟩,
  ⟨0xc00040, [], false, [⟨31, 1, .wo, 0x0, .warm, .stored⟩, ⟨30, 1, .wo, 0x0, .warm, .stored⟩, ⟨24, 2, .rw, 0x0, .warm, .stored⟩, ⟨0, 12, .rw, 0x0, .warm, .stored⟩]⟩,
  ⟨0xc00044, [], false, [⟨0, 21, .rw, 0x0, .warm, .stored⟩]⟩,
  ⟨0xc00048, [], true, [⟨0, 64, .rw, 0x0, .warm, .stored⟩]⟩,
  ⟨0xc00050, [], true, [⟨0, 64, .rw, 0x0, .warm, .stored⟩]⟩,
  ⟨0xc00058, [], false, [⟨31, 1, .ro, 0x0, .warm, .stored⟩, ⟨0, 16, .ro, 0x0, .warm, .stored⟩]⟩,
  ⟨0xc0005c, [], false, [⟨0, 21, .ro, 0x0, .warm, .stored⟩]⟩,
  ⟨0xc00060, [], false, [⟨0, 21, .ro, 0x0, .warm, .stored⟩]⟩,
  ⟨0xc00070, [], false, [⟨5, 5, .rw, 0x0, .warm, .stored⟩, ⟨0, 5, .rw, 0x0, .warm, .stored⟩]⟩,
  ⟨0xc00078, [], true, [⟨0, 64, .ro, 0x0, .cold, .windowed⟩]⟩,
  ⟨0xc00080, [], false, [⟨0, 1, .rw, 0x0, .warm, .stored⟩]⟩,
  ⟨0xc00084, [], false, [⟨31, 1, .w1c, 0x0, .warm, .stored⟩, ⟨21, 5, .ro, 0x0, .warm, .stored⟩, ⟨16, 5, .ro, 0x0, .warm, .stored⟩, ⟨0, 6, .ro, 0x0, .warm, .stored⟩]⟩,
  ⟨0xc00090, [], false, [⟨31, 1, .ro, 0x0, .warm, .stored⟩, ⟨0, 8, .ro, 0x0, .cold, .stored⟩]⟩,
  ⟨0xc000a0, [], false, [⟨5, 1, .w1c, 0x0, .warm, .stored⟩, ⟨4, 1, .w1c, 0x0, .warm, .stored⟩, ⟨3, 1, .w1c, 0x0, .warm, .stored⟩, ⟨2, 1, .w1c, 0x0, .warm, .stored⟩, ⟨1, 1, .w1c, 0x0, .warm, .stored⟩, ⟨0, 1, .w1c, 0x0, .warm, .stored⟩]⟩,
  ⟨0xc000a4, [], false, [⟨0, 6, .rw, 0x0, .warm, .stored⟩]⟩,
  ⟨0xc00100, [], true, [⟨0, 64, .ro, 0x0, .cold, .stored⟩]⟩]

/-- Rows of the MEM block: MEM_DRAM_UNCORR, MEM_SCR_ECC_CORR, MEM_SCR_TESTED, MEM_SCRUB_BYTES, MEM_MIG_BYTES,
MEM_COPY_BYTES, MEM_BKG_STATUS, MEM_BKG_WATCH, MEM_BKG_COMMITS, MEM_BKG_AB_CONFLICT, MEM_BKG_AB_CHECK,
MEM_BKG_AB_FAULT, MEM_BKG_AB_PREEMPT, MEM_BKG_FALLBACK, MEM_CH_BASE, MEM_CH_CFG, MEM_CH_PROD, MEM_CH_CONS,
MEM_CH_STATUS, MEM_CH_FAULT_OFF, MEM_CH_CTRL, MEM_CH_TAG. -/
def rowsMEM1 : List RegRow := [
  ⟨0xc00108, [], true, [⟨0, 64, .ro, 0x0, .cold, .stored⟩]⟩,
  ⟨0xc00110, [], true, [⟨0, 64, .ro, 0x0, .cold, .stored⟩]⟩,
  ⟨0xc00118, [], true, [⟨0, 64, .ro, 0x0, .cold, .stored⟩]⟩,
  ⟨0xc00120, [], true, [⟨0, 64, .ro, 0x0, .cold, .stored⟩]⟩,
  ⟨0xc00128, [], true, [⟨0, 64, .ro, 0x0, .cold, .stored⟩]⟩,
  ⟨0xc00130, [], true, [⟨0, 64, .ro, 0x0, .cold, .stored⟩]⟩,
  ⟨0xc00180, [], false, [⟨24, 7, .ro, 0x0, .warm, .computed⟩, ⟨16, 7, .ro, 0x0, .warm, .computed⟩, ⟨8, 7, .ro, 0x0, .warm, .computed⟩]⟩,
  ⟨0xc00184, [], false, [⟨16, 12, .ro, 0x0, .warm, .computed⟩, ⟨0, 12, .ro, 0x0, .warm, .computed⟩]⟩,
  ⟨0xc00200, [], true, [⟨0, 64, .ro, 0x0, .cold, .stored⟩]⟩,
  ⟨0xc00208, [], true, [⟨0, 64, .ro, 0x0, .cold, .stored⟩]⟩,
  ⟨0xc00210, [], true, [⟨0, 64, .ro, 0x0, .cold, .stored⟩]⟩,
  ⟨0xc00218, [], true, [⟨0, 64, .ro, 0x0, .cold, .stored⟩]⟩,
  ⟨0xc00220, [], true, [⟨0, 64, .ro, 0x0, .cold, .stored⟩]⟩,
  ⟨0xc00228, [], true, [⟨0, 64, .ro, 0x0, .cold, .stored⟩]⟩,
  ⟨0xc01000, [⟨8, 0x40⟩], true, [⟨0, 64, .rw, 0x0, .warm, .stored⟩]⟩,
  ⟨0xc01008, [⟨8, 0x40⟩], false, [⟨31, 1, .rw, 0x0, .warm, .stored⟩, ⟨0, 5, .rw, 0x4, .warm, .stored⟩]⟩,
  ⟨0xc0100c, [⟨8, 0x40⟩], false, [⟨0, 32, .rw, 0x0, .warm, .stored⟩]⟩,
  ⟨0xc01010, [⟨8, 0x40⟩], false, [⟨0, 32, .ro, 0x0, .warm, .stored⟩]⟩,
  ⟨0xc01014, [⟨8, 0x40⟩], false, [⟨31, 1, .ro, 0x0, .warm, .stored⟩, ⟨30, 1, .ro, 0x0, .warm, .stored⟩, ⟨0, 16, .ro, 0x0, .warm, .stored⟩]⟩,
  ⟨0xc01018, [⟨8, 0x40⟩], true, [⟨0, 64, .ro, 0x0, .warm, .stored⟩]⟩,
  ⟨0xc01020, [⟨8, 0x40⟩], false, [⟨31, 1, .wo, 0x0, .warm, .stored⟩, ⟨30, 1, .wo, 0x0, .warm, .stored⟩]⟩,
  ⟨0xc01028, [⟨8, 0x40⟩], true, [⟨0, 64, .ro, 0x0, .warm, .stored⟩]⟩]

/-- Rows of the CEL block: CEL_CAPS, CEL_STATUS, CEL_CAPACITY_USER, CEL_CAPACITY_ALLOC, CEL_SPARE_MIN,
CEL_DISTURB_CFG, CEL_WEAR_STAGE1, CEL_WEAR_STAGE2, CEL_WEAR_RETIRED, CEL_BANK_BUSY, CEL_IRQ_STATUS,
CEL_IRQ_EN, CEL_CAL_SEL, CEL_CAL_DATA, CEL_BQ_SEL, CEL_BQ_DATA0, CEL_BQ_DATA1, CEL_READS, CEL_RETRIES,
CEL_REBUILDS, CEL_UNCORR, CEL_RELOC, CEL_ERASES, CEL_BUSFAULTS. -/
def rowsCEL0 : List RegRow := [
  ⟨0x1000000, [], false, [⟨24, 8, .ro, 0x10, .warm, .stored⟩, ⟨16, 8, .ro, 0x40, .warm, .stored⟩, ⟨8, 8, .ro, 0x80, .warm, .stored⟩, ⟨4, 4, .ro, 0x4, .warm, .stored⟩, ⟨0, 4, .ro, 0xe, .warm, .stored⟩]⟩,
  ⟨0x1000004, [], false, [⟨16, 1, .ro, 0x0, .cold, .stored⟩, ⟨8, 8, .ro, 0x0, .warm, .stored⟩, ⟨0, 3, .ro, 0x0, .warm, .stored⟩]⟩,
  ⟨0x1000008, [], false, [⟨0, 17, .ro, 0x0, .warm, .stored⟩]⟩,
  ⟨0x100000c, [], false, [⟨0, 17, .ro, 0x0, .warm, .stored⟩]⟩,
  ⟨0x1000010, [], false, [⟨16, 10, .ro, 0x0, .warm, .computed⟩, ⟨0, 3, .ro, 0x0, .warm, .computed⟩]⟩,
  ⟨0x1000020, [], false, [⟨0, 16, .rw, 0xfa0, .kept, .stored⟩]⟩,
  ⟨0x1000030, [], false, [⟨0, 18, .ro, 0x0, .kept, .stored⟩]⟩,
  ⟨0x1000034, [], false, [⟨0, 18, .ro, 0x0, .kept, .stored⟩]⟩,
  ⟨0x1000038, [], false, [⟨20, 12, .ro, 0x0, .kept, .stored⟩, ⟨0, 18, .ro, 0x0, .kept, .stored⟩]⟩,
  ⟨0x1000040, [], true, [⟨0, 64, .ro, 0x0, .warm, .computed⟩]⟩,
  ⟨0x1000050, [], false, [⟨6, 1, .w1c, 0x0, .warm, .stored⟩, ⟨5, 1, .w1c, 0x0, .warm, .stored⟩, ⟨4, 1, .w1c, 0x0, .warm, .stored⟩, ⟨3, 1, .w1c, 0x0, .warm, .stored⟩, ⟨2, 1, .w1c, 0x0, .warm, .stored⟩, ⟨1, 1, .w1c, 0x0, .warm, .stored⟩, ⟨0, 1, .w1c, 0x0, .warm, .stored⟩]⟩,
  ⟨0x1000054, [], false, [⟨0, 7, .rw, 0x0, .warm, .stored⟩]⟩,
  ⟨0x1000060, [], false, [⟨10, 4, .rw, 0x0, .warm, .stored⟩, ⟨0, 10, .rw, 0x0, .warm, .stored⟩]⟩,
  ⟨0x1000064, [], false, [⟨0, 32, .ro, 0x0, .warm, .computed⟩]⟩,
  ⟨0x1000070, [], false, [⟨31, 1, .wo, 0x0, .warm, .stored⟩, ⟨30, 1, .ro, 0x0, .warm, .stored⟩, ⟨16, 10, .rw, 0x0, .warm, .stored⟩, ⟨7, 1, .rw, 0x0, .warm, .stored⟩, ⟨0, 7, .rw, 0x0, .warm, .stored⟩]⟩,
  ⟨0x1000074, [], false, [⟨16, 16, .ro, 0x0, .warm, .stored⟩, ⟨0, 16, .ro, 0x0, .warm, .stored⟩]⟩,
  ⟨0x1000078, [], false, [⟨28, 4, .ro, 0x0, .warm, .stored⟩, ⟨26, 2, .ro, 0x0, .warm, .stored⟩, ⟨16, 10, .ro, 0x0, .warm, .stored⟩, ⟨8, 8, .ro, 0x0, .warm, .stored⟩, ⟨0, 7, .ro, 0x0, .warm, .stored⟩]⟩,
  ⟨0x1000100, [], true, [⟨0, 64, .ro, 0x0, .cold, .stored⟩]⟩,
  ⟨0x1000108, [], true, [⟨0, 64, .ro, 0x0, .cold, .stored⟩]⟩,
  ⟨0x1000110, [], true, [⟨0, 64, .ro, 0x0, .cold, .stored⟩]⟩,
  ⟨0x1000118, [], true, [⟨0, 64, .ro, 0x0, .cold, .stored⟩]⟩,
  ⟨0x1000120, [], true, [⟨0, 64, .ro, 0x0, .cold, .stored⟩]⟩,
  ⟨0x1000128, [], true, [⟨0, 64, .ro, 0x0, .cold, .stored⟩]⟩,
  ⟨0x1000130, [], true, [⟨0, 64, .ro, 0x0, .cold, .stored⟩]⟩]

/-- Rows of the CEL block: CEL_FORCED_WAIT. -/
def rowsCEL1 : List RegRow := [
  ⟨0x1000138, [], true, [⟨0, 64, .ro, 0x0, .cold, .stored⟩]⟩]

/-- Rows of the EXP block: EXP_CAPS, EXP_TBL_CMD, EXP_TBL_CRC, EXP_TBL_SRC, EXP_TBL_STATUS, EXP_INST_CMD,
EXP_INST_SRC, EXP_INST_STATUS, EXP_INST_PROGRESS, EXP_SETQ_SEL, EXP_SETQ_DATA, EXP_MSLOT_CMD,
EXP_MSLOT_STATUS, EXP_CTXV_SEL, EXP_CTXV_DATA, EXP_RECHECK_CFG, EXP_RECHECK_STATUS, EXP_IRQ_STATUS,
EXP_IRQ_EN, EXP_TBL, EXP_SET, EXP_MSLOT, EXP_BLOCKS, EXP_EXC. -/
def rowsEXP0 : List RegRow := [
  ⟨0x1400000, [], false, [⟨24, 8, .ro, 0x40, .warm, .stored⟩, ⟨16, 8, .ro, 0x40, .warm, .stored⟩, ⟨8, 8, .ro, 0x40, .warm, .stored⟩, ⟨0, 8, .ro, 0x20, .warm, .stored⟩]⟩,
  ⟨0x1400010, [], false, [⟨31, 1, .wo, 0x0, .warm, .stored⟩, ⟨30, 1, .rw, 0x0, .warm, .stored⟩, ⟨24, 6, .rw, 0x0, .warm, .stored⟩, ⟨16, 5, .rw, 0x0, .warm, .stored⟩, ⟨8, 1, .rw, 0x0, .warm, .stored⟩, ⟨0, 8, .rw, 0x0, .warm, .stored⟩]⟩,
  ⟨0x1400014, [], false, [⟨0, 32, .rw, 0x0, .warm, .stored⟩]⟩,
  ⟨0x1400018, [], true, [⟨0, 64, .rw, 0x0, .warm, .stored⟩]⟩,
  ⟨0x1400020, [], false, [⟨31, 1, .ro, 0x0, .warm, .stored⟩, ⟨0, 16, .ro, 0x0, .warm, .stored⟩]⟩,
  ⟨0x1400040, [], false, [⟨31, 1, .wo, 0x0, .warm, .stored⟩, ⟨30, 1, .wo, 0x0, .warm, .stored⟩, ⟨8, 2, .rw, 0x0, .warm, .stored⟩, ⟨7, 1, .rw, 0x0, .warm, .stored⟩, ⟨0, 6, .rw, 0x0, .warm, .stored⟩]⟩,
  ⟨0x1400048, [], true, [⟨0, 64, .rw, 0x0, .warm, .stored⟩]⟩,
  ⟨0x1400050, [], false, [⟨29, 3, .ro, 0x0, .warm, .stored⟩, ⟨16, 6, .ro, 0x0, .warm, .stored⟩, ⟨0, 16, .ro, 0x0, .warm, .stored⟩]⟩,
  ⟨0x1400058, [], true, [⟨0, 64, .ro, 0x0, .warm, .stored⟩]⟩,
  ⟨0x1400060, [], false, [⟨8, 6, .rw, 0x0, .warm, .stored⟩, ⟨0, 4, .rw, 0x0, .warm, .stored⟩]⟩,
  ⟨0x1400064, [], false, [⟨0, 32, .ro, 0x0, .warm, .computed⟩]⟩,
  ⟨0x1400080, [], false, [⟨31, 1, .wo, 0x0, .warm, .stored⟩, ⟨30, 1, .rw, 0x0, .warm, .stored⟩, ⟨16, 6, .rw, 0x0, .warm, .stored⟩, ⟨0, 6, .rw, 0x0, .warm, .stored⟩]⟩,
  ⟨0x1400084, [], false, [⟨31, 1, .ro, 0x0, .warm, .stored⟩, ⟨0, 16, .ro, 0x0, .warm, .stored⟩]⟩,
  ⟨0x1400090, [], false, [⟨0, 12, .rw, 0x0, .warm, .stored⟩]⟩,
  ⟨0x1400094, [], false, [⟨8, 8, .rw, 0xff, .warm, .windowed⟩, ⟨0, 8, .rw, 0xff, .warm, .windowed⟩]⟩,
  ⟨0x14000a0, [], false, [⟨0, 8, .rw, 0x18, .kept, .stored⟩]⟩,
  ⟨0x14000a4, [], false, [⟨31, 1, .ro, 0x0, .warm, .stored⟩, ⟨24, 6, .ro, 0x0, .warm, .stored⟩, ⟨0, 16, .ro, 0x0, .warm, .computed⟩]⟩,
  ⟨0x14000b0, [], false, [⟨6, 1, .w1c, 0x0, .warm, .stored⟩, ⟨5, 1, .w1c, 0x0, .warm, .stored⟩, ⟨4, 1, .w1c, 0x0, .warm, .stored⟩, ⟨3, 1, .w1c, 0x0, .warm, .stored⟩, ⟨2, 1, .w1c, 0x0, .warm, .stored⟩, ⟨1, 1, .w1c, 0x0, .warm, .stored⟩, ⟨0, 1, .w1c, 0x0, .warm, .stored⟩]⟩,
  ⟨0x14000b4, [], false, [⟨0, 7, .rw, 0x0, .warm, .stored⟩]⟩,
  ⟨0x1400100, [⟨32, 0x4⟩], false, [⟨24, 8, .ro, 0x0, .warm, .stored⟩, ⟨16, 8, .ro, 0x0, .warm, .stored⟩, ⟨1, 1, .ro, 0x0, .warm, .computed⟩, ⟨0, 1, .ro, 0x0, .warm, .computed⟩]⟩,
  ⟨0x1400200, [⟨64, 0x4⟩], false, [⟨29, 3, .ro, 0x0, .warm, .computed⟩, ⟨27, 2, .ro, 0x0, .warm, .computed⟩, ⟨0, 17, .ro, 0x0, .warm, .computed⟩]⟩,
  ⟨0x1400300, [⟨64, 0x4⟩], false, [⟨31, 1, .ro, 0x0, .kept, .stored⟩, ⟨30, 1, .ro, 0x0, .kept, .stored⟩, ⟨24, 6, .ro, 0x0, .kept, .stored⟩, ⟨16, 6, .ro, 0x0, .kept, .stored⟩]⟩,
  ⟨0x1400400, [], true, [⟨0, 64, .ro, 0x0, .cold, .stored⟩]⟩,
  ⟨0x1400408, [], true, [⟨0, 64, .ro, 0x0, .cold, .stored⟩]⟩]

/-- Rows of the EXP block: EXP_ESCAPES, EXP_CLAMPS, EXP_LATE, EXP_LATE_CLEAN, EXP_FAULTS, EXP_RECHECK_BYTES. -/
def rowsEXP1 : List RegRow := [
  ⟨0x1400410, [], true, [⟨0, 64, .ro, 0x0, .cold, .stored⟩]⟩,
  ⟨0x1400418, [], true, [⟨0, 64, .ro, 0x0, .cold, .stored⟩]⟩,
  ⟨0x1400420, [], true, [⟨0, 64, .ro, 0x0, .cold, .stored⟩]⟩,
  ⟨0x1400428, [], true, [⟨0, 64, .ro, 0x0, .cold, .stored⟩]⟩,
  ⟨0x1400430, [], true, [⟨0, 64, .ro, 0x0, .cold, .stored⟩]⟩,
  ⟨0x1400438, [], true, [⟨0, 64, .ro, 0x0, .cold, .stored⟩]⟩]

/-- Rows of the TIL block: TIL_STATUS, TIL_CAPS, TIL_THREADS, TIL_BEAT, TIL_ARR_LIVE, TIL_ARR_PAD, TIL_ARR_FILLER,
TIL_ARR_LOADS, TIL_ARR_RAMP, TIL_ARR_GATED, TIL_ERR_STATUS, TIL_ERR_INFO, TIL_ECC_CORR, TIL_MSE_SUM,
TIL_MSE_COUNT, TIL_MSE_CLIP, TIL_MSE_NONFIN, TIL_MSE_SITE. -/
def rowsTIL : List RegRow := [
  ⟨0x1800000, [⟨32, 0x10000⟩], false, [⟨24, 8, .ro, 0x0, .warm, .stored⟩, ⟨16, 8, .ro, 0x0, .warm, .stored⟩, ⟨10, 2, .ro, 0x0, .warm, .stored⟩, ⟨0, 3, .ro, 0x0, .warm, .stored⟩]⟩,
  ⟨0x1800004, [⟨32, 0x10000⟩], false, [⟨24, 8, .ro, 0x2, .warm, .stored⟩, ⟨16, 8, .ro, 0xf, .warm, .stored⟩, ⟨8, 8, .ro, 0x20, .warm, .stored⟩, ⟨0, 8, .ro, 0x10, .warm, .stored⟩]⟩,
  ⟨0x1800008, [⟨32, 0x10000⟩], false, [⟨16, 16, .ro, 0x0, .warm, .stored⟩, ⟨0, 16, .ro, 0x0, .warm, .stored⟩]⟩,
  ⟨0x180000c, [⟨32, 0x10000⟩], false, [⟨0, 32, .ro, 0x0, .warm, .computed⟩]⟩,
  ⟨0x1800100, [⟨32, 0x10000⟩, ⟨2, 0x80⟩], true, [⟨0, 64, .ro, 0x0, .cold, .stored⟩]⟩,
  ⟨0x1800108, [⟨32, 0x10000⟩, ⟨2, 0x80⟩], true, [⟨0, 64, .ro, 0x0, .cold, .stored⟩]⟩,
  ⟨0x1800110, [⟨32, 0x10000⟩, ⟨2, 0x80⟩], true, [⟨0, 64, .ro, 0x0, .cold, .stored⟩]⟩,
  ⟨0x1800118, [⟨32, 0x10000⟩, ⟨2, 0x80⟩], true, [⟨0, 64, .ro, 0x0, .cold, .stored⟩]⟩,
  ⟨0x1800120, [⟨32, 0x10000⟩, ⟨2, 0x80⟩], true, [⟨0, 64, .ro, 0x0, .cold, .stored⟩]⟩,
  ⟨0x1800128, [⟨32, 0x10000⟩, ⟨2, 0x80⟩], true, [⟨0, 64, .ro, 0x0, .cold, .stored⟩]⟩,
  ⟨0x1800200, [⟨32, 0x10000⟩], false, [⟨4, 1, .w1c, 0x0, .warm, .stored⟩, ⟨3, 1, .w1c, 0x0, .warm, .stored⟩, ⟨2, 1, .w1c, 0x0, .warm, .stored⟩, ⟨1, 1, .w1c, 0x0, .warm, .stored⟩, ⟨0, 1, .w1c, 0x0, .warm, .stored⟩]⟩,
  ⟨0x1800204, [⟨32, 0x10000⟩], false, [⟨28, 4, .ro, 0x0, .warm, .stored⟩, ⟨16, 8, .ro, 0x0, .warm, .stored⟩, ⟨0, 15, .ro, 0x0, .warm, .stored⟩]⟩,
  ⟨0x1800208, [⟨32, 0x10000⟩], false, [⟨0, 32, .ro, 0x0, .cold, .stored⟩]⟩,
  ⟨0x1800400, [⟨32, 0x10000⟩, ⟨64, 0x20⟩], true, [⟨0, 48, .ro, 0x0, .cold, .stored⟩]⟩,
  ⟨0x1800408, [⟨32, 0x10000⟩, ⟨64, 0x20⟩], true, [⟨0, 48, .ro, 0x0, .cold, .stored⟩]⟩,
  ⟨0x1800410, [⟨32, 0x10000⟩, ⟨64, 0x20⟩], false, [⟨0, 32, .ro, 0x0, .cold, .stored⟩]⟩,
  ⟨0x1800414, [⟨32, 0x10000⟩, ⟨64, 0x20⟩], false, [⟨0, 32, .ro, 0x0, .cold, .stored⟩]⟩,
  ⟨0x1800418, [⟨32, 0x10000⟩, ⟨64, 0x20⟩], false, [⟨16, 16, .ro, 0x0, .warm, .stored⟩, ⟨8, 8, .ro, 0x0, .warm, .stored⟩, ⟨7, 1, .ro, 0x0, .warm, .stored⟩, ⟨0, 3, .ro, 0x0, .warm, .stored⟩]⟩]

/-- Rows of the SRV block: SRV_CAPS, SRV_IRQ_STATUS, SRV_IRQ_EN, SRV_EVAL_CTRL, SRV_EVAL_STATUS, SRV_GB_SEL,
SRV_GB_CFG, SRV_GB_CMD, SRV_GB_STATUS, SRV_GB_ENTRIES, SRV_GB_FRAMES, SRV_P_CFG, SRV_P_STEP_US,
SRV_P_CHUNK_US, SRV_P_URGENT, SRV_P_LOAD, SRV_P_LAST_BEATS, SRV_P_LAST_FORMULA, SRV_P_PREFILL_POS,
SRV_P_ADMITTED, SRV_P_REF_TIME, SRV_P_REF_MEM, SRV_P_DEADLINE, SRV_P_OVER. -/
def rowsSRV0 : List RegRow := [
  ⟨0x1c00000, [], false, [⟨24, 8, .ro, 0x4, .warm, .stored⟩, ⟨16, 8, .ro, 0x4, .warm, .stored⟩]⟩,
  ⟨0x1c00010, [], false, [⟨3, 1, .w1c, 0x0, .warm, .stored⟩, ⟨2, 1, .w1c, 0x0, .warm, .stored⟩, ⟨1, 1, .w1c, 0x0, .warm, .stored⟩, ⟨0, 1, .w1c, 0x0, .warm, .stored⟩]⟩,
  ⟨0x1c00014, [], false, [⟨0, 4, .rw, 0x0, .warm, .stored⟩]⟩,
  ⟨0x1c00020, [], false, [⟨31, 1, .wo, 0x0, .warm, .stored⟩, ⟨8, 1, .rw, 0x0, .warm, .stored⟩, ⟨0, 8, .rw, 0xb4, .warm, .stored⟩]⟩,
  ⟨0x1c00024, [], false, [⟨31, 1, .ro, 0x0, .warm, .stored⟩, ⟨30, 1, .ro, 0x0, .warm, .stored⟩, ⟨16, 8, .ro, 0x0, .warm, .stored⟩, ⟨0, 16, .ro, 0x0, .warm, .stored⟩]⟩,
  ⟨0x1c00030, [], false, [⟨0, 12, .rw, 0x0, .warm, .stored⟩]⟩,
  ⟨0x1c00034, [], false, [⟨0, 23, .rw, 0x0, .warm, .windowed⟩]⟩,
  ⟨0x1c00038, [], false, [⟨31, 1, .wo, 0x0, .warm, .stored⟩, ⟨0, 2, .rw, 0x0, .warm, .stored⟩]⟩,
  ⟨0x1c0003c, [], false, [⟨31, 1, .ro, 0x0, .warm, .windowed⟩, ⟨30, 1, .ro, 0x0, .warm, .computed⟩, ⟨0, 16, .ro, 0x0, .warm, .windowed⟩]⟩,
  ⟨0x1c00040, [], false, [⟨0, 32, .ro, 0x0, .warm, .computed⟩]⟩,
  ⟨0x1c00044, [], false, [⟨0, 23, .ro, 0x0, .warm, .computed⟩]⟩,
  ⟨0x1c00100, [⟨2, 0x80⟩], false, [⟨31, 1, .rw, 0x0, .warm, .stored⟩, ⟨16, 3, .rw, 0x0, .warm, .stored⟩, ⟨0, 9, .rw, 0x100, .warm, .stored⟩]⟩,
  ⟨0x1c00104, [⟨2, 0x80⟩], false, [⟨0, 32, .rw, 0x0, .warm, .stored⟩]⟩,
  ⟨0x1c00108, [⟨2, 0x80⟩], false, [⟨0, 32, .rw, 0x0, .warm, .stored⟩]⟩,
  ⟨0x1c0010c, [⟨2, 0x80⟩], false, [⟨31, 1, .wo, 0x0, .warm, .stored⟩, ⟨30, 1, .wo, 0x0, .warm, .stored⟩, ⟨0, 12, .rw, 0x0, .warm, .stored⟩]⟩,
  ⟨0x1c00110, [⟨2, 0x80⟩], false, [⟨0, 18, .ro, 0x0, .warm, .computed⟩]⟩,
  ⟨0x1c00114, [⟨2, 0x80⟩], false, [⟨0, 32, .ro, 0x0, .warm, .stored⟩]⟩,
  ⟨0x1c00118, [⟨2, 0x80⟩], false, [⟨0, 32, .ro, 0x0, .warm, .stored⟩]⟩,
  ⟨0x1c0011c, [⟨2, 0x80⟩], false, [⟨0, 32, .ro, 0x0, .warm, .computed⟩]⟩,
  ⟨0x1c00120, [⟨2, 0x80⟩], true, [⟨0, 64, .ro, 0x0, .cold, .stored⟩]⟩,
  ⟨0x1c00128, [⟨2, 0x80⟩], true, [⟨0, 64, .ro, 0x0, .cold, .stored⟩]⟩,
  ⟨0x1c00130, [⟨2, 0x80⟩], true, [⟨0, 64, .ro, 0x0, .cold, .stored⟩]⟩,
  ⟨0x1c00138, [⟨2, 0x80⟩], true, [⟨0, 64, .ro, 0x0, .cold, .stored⟩]⟩,
  ⟨0x1c00140, [⟨2, 0x80⟩], true, [⟨0, 64, .ro, 0x0, .cold, .stored⟩]⟩]

/-- Rows of the SRV block: SRV_P_EXEMPT. -/
def rowsSRV1 : List RegRow := [
  ⟨0x1c00148, [⟨2, 0x80⟩], true, [⟨0, 64, .ro, 0x0, .cold, .stored⟩]⟩]

/-- Rows of the CHN block: CHN_STATUS, CHN_LEVEL, CHN_CFG, CHN_ROLL_CMD, CHN_ROLL_STATUS, CHN_ROSTER_SEL,
CHN_ROSTER_DATA, CHN_IRQ_STATUS, CHN_IRQ_EN, CHN_P_CTRL, CHN_P_STATUS, CHN_P_PEER, CHN_EXP_SEL, CHN_EXP_DATA0,
CHN_EXP_DATA1, CHN_S_ROOMSEL, CHN_S_ROOM, CHN_S_IN_VA, CHN_S_OUT_VA, CHN_S_STATUS, CHN_P_TX_FLITS,
CHN_P_RX_FLITS, CHN_P_FEC_CORR, CHN_P_FEC_UNCORR. -/
def rowsCHN0 : List RegRow := [
  ⟨0x2000000, [], false, [⟨31, 1, .ro, 0x0, .cold, .stored⟩, ⟨30, 1, .ro, 0x0, .warm, .stored⟩, ⟨29, 1, .ro, 0x0, .warm, .stored⟩, ⟨28, 1, .ro, 0x0, .warm, .stored⟩, ⟨8, 7, .ro, 0x0, .warm, .stored⟩, ⟨0, 7, .ro, 0x0, .warm, .stored⟩]⟩,
  ⟨0x2000004, [], false, [⟨16, 16, .ro, 0x0, .warm, .stored⟩, ⟨8, 8, .ro, 0x0, .warm, .stored⟩, ⟨0, 8, .ro, 0x0, .warm, .stored⟩]⟩,
  ⟨0x2000008, [], false, [⟨0, 6, .rw, 0x18, .warm, .stored⟩]⟩,
  ⟨0x2000010, [], false, [⟨31, 1, .wo, 0x0, .warm, .stored⟩]⟩,
  ⟨0x2000014, [], false, [⟨31, 1, .ro, 0x0, .warm, .stored⟩, ⟨0, 16, .ro, 0x0, .warm, .stored⟩]⟩,
  ⟨0x2000018, [], false, [⟨2, 7, .rw, 0x1, .warm, .stored⟩, ⟨0, 2, .rw, 0x0, .warm, .stored⟩]⟩,
  ⟨0x200001c, [], false, [⟨0, 32, .ro, 0x0, .warm, .computed⟩]⟩,
  ⟨0x2000020, [], false, [⟨4, 1, .w1c, 0x0, .warm, .stored⟩, ⟨3, 1, .w1c, 0x0, .warm, .stored⟩, ⟨2, 1, .w1c, 0x0, .warm, .stored⟩, ⟨1, 1, .w1c, 0x0, .warm, .stored⟩, ⟨0, 1, .w1c, 0x0, .warm, .stored⟩]⟩,
  ⟨0x2000024, [], false, [⟨0, 5, .rw, 0x0, .warm, .stored⟩]⟩,
  ⟨0x2000100, [⟨2, 0x40⟩], false, [⟨31, 1, .rw, 0x0, .warm, .stored⟩, ⟨30, 1, .wo, 0x0, .warm, .stored⟩]⟩,
  ⟨0x2000104, [⟨2, 0x40⟩], false, [⟨29, 3, .ro, 0x0, .warm, .stored⟩, ⟨16, 8, .ro, 0x0, .warm, .stored⟩, ⟨0, 16, .ro, 0x0, .warm, .stored⟩]⟩,
  ⟨0x2000108, [⟨2, 0x40⟩], false, [⟨24, 8, .ro, 0x0, .warm, .stored⟩, ⟨16, 8, .ro, 0x0, .warm, .stored⟩, ⟨0, 7, .ro, 0x0, .warm, .stored⟩]⟩,
  ⟨0x2000200, [], false, [⟨31, 1, .wo, 0x0, .warm, .stored⟩, ⟨30, 1, .wo, 0x0, .warm, .stored⟩, ⟨0, 14, .rw, 0x0, .warm, .stored⟩]⟩,
  ⟨0x2000204, [], false, [⟨31, 1, .rw, 0x0, .warm, .stored⟩, ⟨30, 1, .rw, 0x0, .warm, .stored⟩, ⟨23, 7, .rw, 0x0, .warm, .stored⟩, ⟨0, 17, .rw, 0x0, .warm, .stored⟩]⟩,
  ⟨0x2000208, [], false, [⟨16, 12, .ro, 0x0, .warm, .stored⟩, ⟨0, 12, .rw, 0x0, .warm, .stored⟩]⟩,
  ⟨0x2000300, [⟨2, 0x40⟩], false, [⟨0, 6, .rw, 0x0, .warm, .stored⟩]⟩,
  ⟨0x2000304, [⟨2, 0x40⟩], false, [⟨0, 7, .rw, 0x0, .warm, .windowed⟩]⟩,
  ⟨0x2000308, [⟨2, 0x40⟩], true, [⟨0, 52, .rw, 0x0, .warm, .stored⟩]⟩,
  ⟨0x2000310, [⟨2, 0x40⟩], true, [⟨0, 52, .rw, 0x0, .warm, .stored⟩]⟩,
  ⟨0x2000318, [⟨2, 0x40⟩], false, [⟨31, 1, .ro, 0x0, .warm, .stored⟩, ⟨0, 16, .ro, 0x0, .warm, .stored⟩]⟩,
  ⟨0x2001000, [⟨2, 0x80⟩], true, [⟨0, 64, .ro, 0x0, .cold, .stored⟩]⟩,
  ⟨0x2001008, [⟨2, 0x80⟩], true, [⟨0, 64, .ro, 0x0, .cold, .stored⟩]⟩,
  ⟨0x2001010, [⟨2, 0x80⟩], true, [⟨0, 64, .ro, 0x0, .cold, .stored⟩]⟩,
  ⟨0x2001018, [⟨2, 0x80⟩], true, [⟨0, 64, .ro, 0x0, .cold, .stored⟩]⟩]

/-- Rows of the CHN block: CHN_P_REPLAYS, CHN_P_UNKNOWN, CHN_P_MSE_SUM, CHN_P_MSE_COUNT, CHN_P_MSE_CLIP. -/
def rowsCHN1 : List RegRow := [
  ⟨0x2001020, [⟨2, 0x80⟩], true, [⟨0, 64, .ro, 0x0, .cold, .stored⟩]⟩,
  ⟨0x2001028, [⟨2, 0x80⟩], true, [⟨0, 64, .ro, 0x0, .cold, .stored⟩]⟩,
  ⟨0x2001030, [⟨2, 0x80⟩], true, [⟨0, 48, .ro, 0x0, .cold, .stored⟩]⟩,
  ⟨0x2001038, [⟨2, 0x80⟩], true, [⟨0, 48, .ro, 0x0, .cold, .stored⟩]⟩,
  ⟨0x2001040, [⟨2, 0x80⟩], true, [⟨0, 64, .ro, 0x0, .cold, .stored⟩]⟩]

/-- Rows of the PWR block: PWR_CAPS, PWR_CAP_CTRL, PWR_STATUS, PWR_POWER, PWR_CURRENT, PWR_TEMP, PWR_UNCORE,
PWR_THERM_CFG, PWR_THR_ACTIVE, PWR_THR_SEEN, PWR_IRQ_STATUS, PWR_IRQ_EN, PWR_BRAKE_GLITCH, PWR_P_DIV,
PWR_P_CHANGES, PWR_TILE, PWR_DUR, PWR_DROOPS. -/
def rowsPWR : List RegRow := [
  ⟨0x2400000, [], false, [⟨24, 8, .ro, 0x5a, .warm, .stored⟩, ⟨16, 8, .ro, 0xdc, .warm, .stored⟩, ⟨8, 8, .ro, 0x73, .warm, .stored⟩, ⟨0, 8, .ro, 0x1f, .warm, .stored⟩]⟩,
  ⟨0x2400004, [], false, [⟨16, 16, .ro, 0x0, .cold, .stored⟩, ⟨8, 1, .ro, 0x0, .cold, .stored⟩, ⟨0, 8, .rw, 0xb4, .cold, .stored⟩]⟩,
  ⟨0x2400008, [], false, [⟨31, 1, .ro, 0x0, .warm, .computed⟩, ⟨30, 1, .ro, 0x0, .warm, .stored⟩, ⟨0, 16, .ro, 0x0, .warm, .stored⟩]⟩,
  ⟨0x240000c, [], false, [⟨16, 16, .ro, 0x0, .warm, .stored⟩, ⟨0, 16, .ro, 0x0, .warm, .stored⟩]⟩,
  ⟨0x2400010, [], false, [⟨16, 16, .ro, 0x0, .cold, .stored⟩, ⟨0, 16, .ro, 0x0, .warm, .stored⟩]⟩,
  ⟨0x2400014, [], false, [⟨24, 8, .ro, 0x0, .warm, .stored⟩, ⟨16, 8, .ro, 0x0, .warm, .stored⟩, ⟨8, 8, .ro, 0x0, .cold, .stored⟩, ⟨0, 6, .ro, 0x0, .warm, .stored⟩]⟩,
  ⟨0x2400018, [], false, [⟨16, 16, .ro, 0x12c, .kept, .stored⟩, ⟨0, 16, .ro, 0x190, .kept, .stored⟩]⟩,
  ⟨0x2400020, [], false, [⟨8, 8, .rw, 0x55, .cold, .stored⟩, ⟨0, 8, .rw, 0x64, .cold, .stored⟩]⟩,
  ⟨0x2400030, [], false, [⟨5, 1, .ro, 0x0, .cold, .stored⟩, ⟨4, 1, .ro, 0x0, .cold, .stored⟩, ⟨3, 1, .ro, 0x0, .cold, .stored⟩, ⟨2, 1, .ro, 0x0, .cold, .stored⟩, ⟨1, 1, .ro, 0x0, .cold, .stored⟩, ⟨0, 1, .ro, 0x0, .cold, .stored⟩]⟩,
  ⟨0x2400034, [], false, [⟨5, 1, .w1c, 0x0, .cold, .stored⟩, ⟨4, 1, .w1c, 0x0, .cold, .stored⟩, ⟨3, 1, .w1c, 0x0, .cold, .stored⟩, ⟨2, 1, .w1c, 0x0, .cold, .stored⟩, ⟨1, 1, .w1c, 0x0, .cold, .stored⟩, ⟨0, 1, .w1c, 0x0, .cold, .stored⟩]⟩,
  ⟨0x2400040, [], false, [⟨5, 1, .w1c, 0x0, .warm, .stored⟩, ⟨4, 1, .w1c, 0x0, .warm, .stored⟩, ⟨3, 1, .w1c, 0x0, .warm, .stored⟩, ⟨2, 1, .w1c, 0x0, .warm, .stored⟩, ⟨1, 1, .w1c, 0x0, .warm, .stored⟩, ⟨0, 1, .w1c, 0x0, .warm, .stored⟩]⟩,
  ⟨0x2400044, [], false, [⟨0, 6, .rw, 0x0, .warm, .stored⟩]⟩,
  ⟨0x2400048, [], false, [⟨0, 32, .ro, 0x0, .cold, .stored⟩]⟩,
  ⟨0x2400100, [⟨2, 0x40⟩], false, [⟨24, 8, .ro, 0x0, .warm, .computed⟩, ⟨16, 8, .ro, 0x0, .warm, .computed⟩, ⟨8, 8, .ro, 0x0, .warm, .computed⟩, ⟨0, 8, .rw, 0x0, .cold, .stored⟩]⟩,
  ⟨0x2400108, [⟨2, 0x40⟩], true, [⟨0, 64, .ro, 0x0, .cold, .stored⟩]⟩,
  ⟨0x2400200, [⟨32, 0x4⟩], false, [⟨24, 8, .ro, 0x0, .warm, .stored⟩, ⟨16, 8, .ro, 0x0, .warm, .stored⟩, ⟨0, 16, .ro, 0x0, .warm, .stored⟩]⟩,
  ⟨0x2400400, [⟨6, 0x8⟩], true, [⟨0, 64, .ro, 0x0, .cold, .stored⟩]⟩,
  ⟨0x2400440, [], true, [⟨0, 64, .ro, 0x0, .cold, .stored⟩]⟩]

/-- Rows of the KPR block: KPR_STATUS, KPR_FW_VERSION, KPR_HOSTIF, KPR_DRV_IF, KPR_HEARTBEAT, KPR_DB_MARK,
KPR_DB_SEQ, KPR_TRACE_MASK, KPR_FETCH_CMD, KPR_FETCH_FIRST, KPR_FETCH_DST, KPR_FETCH_COUNT, KPR_FETCH_STATUS,
KPR_UPD_CMD, KPR_UPD_CFG, KPR_UPD_SRC, KPR_UPD_LEN, KPR_UPD_STATUS, KPR_UPD_PROGRESS, KPR_UPD_VERSION,
KPR_UPD_HOSTIF, KPR_MCTP_CFG, KPR_MCTP_EID, KPR_IRQ_STATUS. -/
def rowsKPR0 : List RegRow := [
  ⟨0x2800000, [], false, [⟨31, 1, .ro, 0x0, .warm, .stored⟩, ⟨30, 1, .ro, 0x0, .warm, .stored⟩, ⟨29, 1, .ro, 0x0, .warm, .stored⟩, ⟨28, 1, .ro, 0x0, .warm, .stored⟩, ⟨24, 4, .ro, 0x0, .warm, .stored⟩, ⟨0, 16, .ro, 0x0, .warm, .stored⟩]⟩,
  ⟨0x2800004, [], false, [⟨0, 32, .ro, 0x0, .warm, .stored⟩]⟩,
  ⟨0x2800008, [], false, [⟨16, 16, .ro, 0x0, .warm, .stored⟩, ⟨0, 16, .ro, 0x0, .warm, .stored⟩]⟩,
  ⟨0x280000c, [], false, [⟨0, 16, .rw, 0x0, .warm, .stored⟩]⟩,
  ⟨0x2800010, [], false, [⟨0, 32, .ro, 0x0, .warm, .stored⟩]⟩,
  ⟨0x2800020, [], false, [⟨0, 32, .wo, 0x0, .warm, .stored⟩]⟩,
  ⟨0x2800024, [], false, [⟨0, 32, .ro, 0x0, .warm, .stored⟩]⟩,
  ⟨0x2800030, [], true, [⟨0, 64, .rw, 0x0, .warm, .stored⟩]⟩,
  ⟨0x2800040, [], false, [⟨31, 1, .wo, 0x0, .warm, .stored⟩, ⟨0, 1, .rw, 0x0, .warm, .stored⟩]⟩,
  ⟨0x2800044, [], false, [⟨0, 32, .rw, 0x0, .warm, .stored⟩]⟩,
  ⟨0x2800048, [], true, [⟨0, 64, .rw, 0x0, .warm, .stored⟩]⟩,
  ⟨0x2800050, [], false, [⟨0, 19, .rw, 0x0, .warm, .stored⟩]⟩,
  ⟨0x2800054, [], false, [⟨31, 1, .ro, 0x0, .warm, .stored⟩, ⟨0, 16, .ro, 0x0, .warm, .stored⟩]⟩,
  ⟨0x2800080, [], false, [⟨31, 1, .wo, 0x0, .warm, .stored⟩, ⟨2, 1, .rw, 0x0, .warm, .stored⟩, ⟨0, 2, .rw, 0x0, .warm, .stored⟩]⟩,
  ⟨0x2800084, [], false, [⟨31, 1, .rw, 0x0, .kept, .stored⟩, ⟨30, 1, .rw, 0x0, .kept, .stored⟩, ⟨0, 16, .rw, 0x258, .kept, .stored⟩]⟩,
  ⟨0x2800088, [], true, [⟨0, 64, .rw, 0x0, .warm, .stored⟩]⟩,
  ⟨0x2800090, [], false, [⟨12, 20, .rw, 0x0, .warm, .stored⟩]⟩,
  ⟨0x2800094, [], false, [⟨28, 4, .ro, 0x0, .warm, .stored⟩, ⟨27, 1, .ro, 0x0, .warm, .stored⟩, ⟨0, 16, .ro, 0x0, .warm, .stored⟩]⟩,
  ⟨0x2800098, [], false, [⟨16, 16, .ro, 0x0, .warm, .stored⟩, ⟨0, 16, .ro, 0x0, .warm, .stored⟩]⟩,
  ⟨0x280009c, [], false, [⟨0, 32, .ro, 0x0, .warm, .stored⟩]⟩,
  ⟨0x28000a0, [], false, [⟨0, 32, .ro, 0x0, .warm, .stored⟩]⟩,
  ⟨0x28000c0, [], false, [⟨31, 1, .rw, 0x0, .kept, .stored⟩, ⟨30, 1, .rw, 0x0, .kept, .stored⟩, ⟨0, 7, .rw, 0x64, .kept, .stored⟩]⟩,
  ⟨0x28000c4, [], false, [⟨0, 8, .ro, 0x0, .warm, .stored⟩]⟩,
  ⟨0x28000e0, [], false, [⟨4, 1, .w1c, 0x0, .warm, .stored⟩, ⟨3, 1, .w1c, 0x0, .warm, .stored⟩, ⟨2, 1, .w1c, 0x0, .warm, .stored⟩, ⟨1, 1, .w1c, 0x0, .warm, .stored⟩, ⟨0, 1, .w1c, 0x0, .warm, .stored⟩]⟩]

/-- Rows of the KPR block: KPR_IRQ_EN, KPR_DB_WRITTEN, KPR_TRACE_DROPPED, KPR_MCTP_RX, KPR_RESTARTS. -/
def rowsKPR1 : List RegRow := [
  ⟨0x28000e4, [], false, [⟨0, 5, .rw, 0x0, .warm, .stored⟩]⟩,
  ⟨0x2800100, [], true, [⟨0, 64, .ro, 0x0, .cold, .stored⟩]⟩,
  ⟨0x2800108, [], true, [⟨0, 64, .ro, 0x0, .cold, .stored⟩]⟩,
  ⟨0x2800110, [], true, [⟨0, 64, .ro, 0x0, .cold, .stored⟩]⟩,
  ⟨0x2800118, [], true, [⟨0, 64, .ro, 0x0, .cold, .stored⟩]⟩]

/-- Rows of the ERR block: ERR_CAPS, ERR_RING_PROD, ERR_RING_CONS, ERR_RD_IDX, ERR_SAFE, ERR_LOST_BUF,
ERR_LOST_RING, ERR_CTRL, ERR_SUM_SEL, ERR_SUM_DATA, ERR_ALERT_EN, ERR_IRQ_STATUS, ERR_IRQ_EN, ERR_REC,
ERR_CLASS_CNT. -/
def rowsERR : List RegRow := [
  ⟨0x2c00000, [], false, [⟨16, 16, .ro, 0x400, .warm, .stored⟩, ⟨8, 8, .ro, 0x40, .warm, .stored⟩, ⟨0, 8, .ro, 0x10, .warm, .stored⟩]⟩,
  ⟨0x2c00004, [], false, [⟨0, 32, .ro, 0x0, .warm, .stored⟩]⟩,
  ⟨0x2c00008, [], false, [⟨0, 32, .rw, 0x0, .warm, .stored⟩]⟩,
  ⟨0x2c0000c, [], false, [⟨0, 10, .rw, 0x0, .warm, .stored⟩]⟩,
  ⟨0x2c00010, [], false, [⟨31, 1, .ro, 0x0, .cold, .stored⟩, ⟨16, 4, .ro, 0x0, .cold, .stored⟩, ⟨0, 16, .ro, 0x0, .cold, .stored⟩]⟩,
  ⟨0x2c00014, [], false, [⟨0, 32, .ro, 0x0, .cold, .stored⟩]⟩,
  ⟨0x2c00018, [], false, [⟨0, 32, .ro, 0x0, .cold, .stored⟩]⟩,
  ⟨0x2c0001c, [], false, [⟨0, 1, .wo, 0x0, .warm, .stored⟩]⟩,
  ⟨0x2c00020, [], false, [⟨8, 4, .rw, 0x0, .warm, .stored⟩, ⟨4, 1, .rw, 0x0, .warm, .stored⟩, ⟨0, 4, .rw, 0x0, .warm, .stored⟩]⟩,
  ⟨0x2c00024, [], false, [⟨0, 32, .ro, 0x0, .warm, .computed⟩]⟩,
  ⟨0x2c00028, [], false, [⟨16, 4, .rw, 0x3, .warm, .stored⟩, ⟨0, 16, .rw, 0x0, .warm, .stored⟩]⟩,
  ⟨0x2c00030, [], false, [⟨3, 1, .w1c, 0x0, .warm, .stored⟩, ⟨2, 1, .w1c, 0x0, .warm, .stored⟩, ⟨1, 1, .w1c, 0x0, .warm, .stored⟩, ⟨0, 1, .w1c, 0x0, .warm, .stored⟩]⟩,
  ⟨0x2c00034, [], false, [⟨0, 4, .rw, 0x0, .warm, .stored⟩]⟩,
  ⟨0x2c00040, [⟨16, 0x4⟩], false, [⟨0, 32, .ro, 0x0, .warm, .computed⟩]⟩,
  ⟨0x2c00100, [⟨16, 0x4⟩], false, [⟨0, 32, .ro, 0x0, .cold, .stored⟩]⟩]

/-- Rows of the SEC block: SEC_CAPS, SEC_MBX_CMD, SEC_MBX_ARG, SEC_MBX_BUF, SEC_MBX_LEN, SEC_MBX_STATUS,
SEC_MBX_RESULT, SEC_IRQ_STATUS, SEC_IRQ_EN, SRM_LC, SRM_LIMITS0, SRM_LIMITS1, SRM_LIMITS2, SRM_UID, SRM_KEYS,
SRM_ORDER, SRM_TAMPER, SRM_IDX_NEXT, SRM_IDX_RSV, SRM_OWNER, SEC_CTX. -/
def rowsSEC : List RegRow := [
  ⟨0x3000000, [], false, [⟨16, 16, .ro, 0x1000, .warm, .stored⟩, ⟨12, 4, .ro, 0x4, .warm, .stored⟩]⟩,
  ⟨0x3000010, [], false, [⟨31, 1, .wo, 0x0, .warm, .stored⟩, ⟨0, 8, .rw, 0x0, .warm, .stored⟩]⟩,
  ⟨0x3000020, [⟨16, 0x4⟩], false, [⟨0, 32, .rw, 0x0, .warm, .stored⟩]⟩,
  ⟨0x3000060, [], true, [⟨0, 64, .rw, 0x0, .warm, .stored⟩]⟩,
  ⟨0x3000068, [], false, [⟨0, 16, .rw, 0x0, .warm, .stored⟩]⟩,
  ⟨0x300006c, [], false, [⟨31, 1, .ro, 0x0, .warm, .stored⟩, ⟨0, 16, .ro, 0x0, .warm, .stored⟩]⟩,
  ⟨0x3000070, [], false, [⟨16, 16, .ro, 0x0, .warm, .stored⟩, ⟨0, 16, .ro, 0x0, .warm, .stored⟩]⟩,
  ⟨0x3000080, [], false, [⟨4, 1, .w1c, 0x0, .warm, .stored⟩, ⟨3, 1, .w1c, 0x0, .warm, .stored⟩, ⟨2, 1, .w1c, 0x0, .warm, .stored⟩, ⟨1, 1, .w1c, 0x0, .warm, .stored⟩, ⟨0, 1, .w1c, 0x0, .warm, .stored⟩]⟩,
  ⟨0x3000084, [], false, [⟨0, 5, .rw, 0x0, .warm, .stored⟩]⟩,
  ⟨0x3001000, [], false, [⟨29, 3, .rws, 0x1, .kept, .stored⟩]⟩,
  ⟨0x3001004, [], false, [⟨24, 8, .rws, 0x4, .kept, .stored⟩, ⟨16, 8, .rws, 0x69, .kept, .stored⟩, ⟨8, 8, .rws, 0x73, .kept, .stored⟩, ⟨0, 8, .rws, 0xdc, .kept, .stored⟩]⟩,
  ⟨0x3001008, [], false, [⟨16, 16, .rws, 0x352, .kept, .stored⟩, ⟨0, 16, .rws, 0x28a, .kept, .stored⟩]⟩,
  ⟨0x300100c, [], false, [⟨16, 16, .rws, 0x12c, .kept, .stored⟩, ⟨0, 16, .rws, 0x118, .kept, .stored⟩]⟩,
  ⟨0x3001010, [⟨4, 0x4⟩], false, [⟨0, 32, .rws, 0x0, .kept, .stored⟩]⟩,
  ⟨0x3001020, [], false, [⟨4, 4, .rws, 0xf, .kept, .stored⟩, ⟨0, 4, .rws, 0x0, .kept, .stored⟩]⟩,
  ⟨0x3001024, [], false, [⟨16, 8, .rws, 0x4e, .kept, .stored⟩, ⟨8, 8, .rws, 0x53, .kept, .stored⟩, ⟨0, 8, .rws, 0x41, .kept, .stored⟩]⟩,
  ⟨0x3001028, [], false, [⟨16, 8, .rws, 0x0, .kept, .stored⟩, ⟨0, 16, .rws, 0x0, .kept, .stored⟩]⟩,
  ⟨0x3001030, [], true, [⟨0, 40, .rws, 0x0, .warm, .stored⟩]⟩,
  ⟨0x3001038, [], false, [⟨0, 25, .rws, 0x0, .kept, .stored⟩]⟩,
  ⟨0x3001040, [⟨8, 0x4⟩], false, [⟨0, 32, .rws, 0x0, .kept, .stored⟩]⟩,
  ⟨0x3008000, [⟨4096, 0x4⟩], false, [⟨29, 3, .ro, 0x0, .warm, .stored⟩, ⟨28, 1, .ro, 0x0, .warm, .stored⟩, ⟨27, 1, .ro, 0x0, .warm, .stored⟩, ⟨26, 1, .ro, 0x0, .warm, .stored⟩, ⟨0, 3, .ro, 0x0, .warm, .stored⟩]⟩]

/-- The homes of the fields that a selector picks. -/
def rowsHOME : List RegRow := [
  ⟨0x4000024, [⟨65536, 0x40⟩], false, [⟨27, 5, .rw, 0x4, .warm, .stored⟩, ⟨12, 12, .rw, 0x0, .warm, .stored⟩, ⟨0, 12, .rw, 0x0, .warm, .stored⟩]⟩,
  ⟨0x4000028, [⟨65536, 0x40⟩], true, [⟨0, 64, .rw, 0x0, .warm, .stored⟩]⟩,
  ⟨0x4000034, [⟨65536, 0x40⟩], false, [⟨31, 1, .ro, 0x0, .warm, .stored⟩, ⟨28, 3, .ro, 0x0, .warm, .stored⟩, ⟨0, 16, .ro, 0x0, .warm, .stored⟩]⟩,
  ⟨0x4000038, [⟨65536, 0x40⟩], false, [⟨0, 32, .ro, 0x0, .warm, .stored⟩]⟩,
  ⟨0x400003c, [⟨65536, 0x40⟩], false, [⟨0, 32, .ro, 0x0, .warm, .stored⟩]⟩,
  ⟨0x5000004, [⟨4096, 0x40⟩], false, [⟨27, 5, .rw, 0x4, .warm, .stored⟩, ⟨16, 11, .rw, 0x0, .warm, .stored⟩, ⟨15, 1, .rw, 0x0, .warm, .stored⟩, ⟨8, 7, .rw, 0x0, .warm, .stored⟩, ⟨0, 8, .rw, 0x0, .warm, .stored⟩]⟩,
  ⟨0x5000008, [⟨4096, 0x40⟩], true, [⟨0, 64, .rw, 0x0, .warm, .stored⟩]⟩,
  ⟨0x5000014, [⟨4096, 0x40⟩], false, [⟨31, 1, .ro, 0x0, .warm, .stored⟩, ⟨30, 1, .ro, 0x0, .warm, .stored⟩, ⟨16, 14, .ro, 0x0, .warm, .stored⟩, ⟨0, 16, .ro, 0x0, .warm, .stored⟩]⟩,
  ⟨0x6000000, [⟨32, 0x100⟩, ⟨32, 0x8⟩], true, [⟨0, 64, .ro, 0x0, .cold, .stored⟩]⟩,
  ⟨0x7000000, [⟨4096, 0x4⟩], false, [⟨8, 8, .rw, 0xff, .warm, .stored⟩, ⟨0, 8, .rw, 0xff, .warm, .stored⟩]⟩,
  ⟨0x9000000, [⟨4096, 0x8⟩], false, [⟨0, 23, .rw, 0x0, .warm, .stored⟩]⟩,
  ⟨0x9000004, [⟨4096, 0x8⟩], false, [⟨31, 1, .ro, 0x0, .warm, .stored⟩, ⟨0, 16, .ro, 0x0, .warm, .stored⟩]⟩,
  ⟨0x8000000, [⟨2, 0x100⟩, ⟨64, 0x4⟩], false, [⟨0, 7, .rw, 0x0, .warm, .stored⟩]⟩]

/-- The rows of the block whose 4 MiB of BAR0 hold an offset (the homes above BAR0 last). -/
def rowsAt (off : Nat) : List RegRow :=
  if off < 0x100000 then rowsGEN
  else if off < 0x200000 then rowsITN
  else if off < 0x300000 then rowsHIF0 ++ rowsHIF1
  else if off < 0x400000 then rowsMSIX
  else if off < 0x800000 then rowsSYN
  else if off < 0xc00000 then rowsXLT
  else if off < 0x1000000 then rowsMEM0 ++ rowsMEM1
  else if off < 0x1400000 then rowsCEL0 ++ rowsCEL1
  else if off < 0x1800000 then rowsEXP0 ++ rowsEXP1
  else if off < 0x1c00000 then rowsTIL
  else if off < 0x2000000 then rowsSRV0 ++ rowsSRV1
  else if off < 0x2400000 then rowsCHN0 ++ rowsCHN1
  else if off < 0x2800000 then rowsPWR
  else if off < 0x2c00000 then rowsKPR0 ++ rowsKPR1
  else if off < 0x3000000 then rowsERR
  else if off < 0x4000000 then rowsSEC
  else rowsHOME

/-- Whether an offset is one of a register's elements, by its array dimensions. -/
def dimsHit : List Dim → Nat → Bool
  | [], rest => rest == 0
  | d :: ds, rest => (rest / d.stride < d.count) && dimsHit ds (rest % d.stride)

/-- Whether a row's register (for a pair: its `_LO` half) stands at an offset. -/
def RegRow.hit (r : RegRow) (off : Nat) : Bool :=
  r.off ≤ off && dimsHit r.dims (off - r.off)

/-- The register at an offset. -/
def regAt (off : Nat) : Option RegRow := (rowsAt off).find? (·.hit off)

/-- The field of a register with a given lowest bit. -/
def RegRow.fieldAt (r : RegRow) (lo : Nat) : Option FieldRow := r.fields.find? (fun f => f.lo == lo)

/-- The field row of a key. -/
def fieldRowOf (key : Nat) : Option FieldRow :=
  match regAt (key / 64) with
  | some r => r.fieldAt (key % 64)
  | none => none

/-- The reset value of a field, by its key: what the register map gives. -/
def regDefault (key : Nat) : Nat :=
  match fieldRowOf key with
  | some f => f.reset
  | none => 0

/-- What resets a field, by its key. -/
def regClass (key : Nat) : ResetCls :=
  match fieldRowOf key with
  | some f => f.cls
  | none => .warm

end Sys2Proof.Machine
end

