-- ==== Sys2Proof/Machine/State.lean ====
section
/-! DEFINITION. The state of the part: every register field (in one store keyed by the register map), DRAM, granules,
the walks and pins, partitions, tiles, itinerary slots, queues and operations, the Cellar, the expanders, the chain,
power control, Keeper, the error path, Porter, and the queue of waiting commands. -/

namespace Sys2Proof.Machine

/-! The sub-records of the state, block by block. Registers a map names are held in the register store, field by
field; what follows is the state the chapters name that no register holds. -/

/-- An operation in flight (R288): one descriptor from its fetch until its completion record is written. -/
inductive OpPhase where
  /-- a GENERATE not yet admitted (R314, R317) -/
  | waiting
  /-- admitted; its shared prefix is being attached (R158) -/
  | attaching
  /-- admitted; prompt positions remain to prefill (R302) -/
  | prefill
  /-- admitted; decode rows remain (R302) -/
  | decode
  /-- a SIGNAL waiting for earlier operations (R290) -/
  | signal
  /-- a WAIT whose cell is below its target (R290) -/
  | waitCell
  /-- ended; its final booking or record is still to come -/
  | ending
  deriving DecidableEq, Repr

/-- An operation in flight. -/
structure Operation where
  id         : Nat := 0
  rq         : Nat := 0
  ctx        : Nat := 0
  cq         : Nat := 0
  fetchIdx   : Nat := 0
  ringKc     : Nat := 0
  desc       : Desc := {}
  phase      : OpPhase := .waiting
  /-- serving order (R303) -/
  order      : Nat := 0
  /-- the partition whose admission tests it passed -/
  admPart    : Nat := 0
  /-- blocks found by lookup and not yet attached (R309) -/
  attach     : Nat := 0
  shared     : Bool := false
  prefillPos : Nat := 0
  /-- tokens committed, and tokens written to the ring (R292) -/
  committed  : Nat := 0
  delivered  : Nat := 0
  length     : Nat := 0
  firstUs    : Option Nat := none
  totalUs    : Nat := 0
  /-- N of R316, and the frames taken so far -/
  reserveN   : Nat := 0
  taken      : Nat := 0
  endCode    : Option Nat := none
  ringCons   : Nat := 0
  anchorDue  : Bool := false
  /-- a committed token was a stop token (R290) -/
  stopHit    : Bool := false
  /-- the line of its own sequence record (R145) -/
  seqPa      : Option Nat := none
  /-- the partition whose step it is in -/
  inStep     : Option Nat := none
  /-- a CANCEL's or an FLR's time in K-cycles and its code (R290, R299) -/
  stop       : Option (Nat × Nat) := none
  noRecord   : Bool := false
  /-- stands at a later stage of a span for a request of stage 0: no descriptor of this unit (R347) -/
  standIn    : Bool := false
  /-- the SPAN_STEP whose TOKENS carries its token (R348) -/
  spanStep   : Option Nat := none
  /-- the K-cycle at which its prefill was complete (R306) -/
  prefillKc  : Nat := 0
  /-- a shared block must be copied before its next step (R159), and how many of its pages have been -/
  copyBlock  : Option Nat := none
  copied     : Nat := 0
  /-- the next block to publish; none once publication has ended for the request (R310) -/
  publish    : Option Nat := none
  /-- bytes of the prompt that lie outside tier 0 -/
  prompt     : List Byte := []
  deriving DecidableEq, Repr

/-- A release that Keeper has in hand or waiting (R160): the reservation of its request stays until it is done (R316). -/
structure Release where
  ctx      : Nat
  seqIndex : Nat
  seqPa    : Nat
  /-- frames still reserved -/
  reserved : Nat := 0
  admitted : Bool := false
  /-- held on a full return ring, its HITS counted (R161) -/
  held     : Bool := false
  tokblk   : Nat := 0
  maxBlocks : Nat := 0
  /-- blocks that an attach may have mapped -/
  mapped    : Nat := 0
  deriving DecidableEq, Repr

/-- A committed token on its way from its staging line to the token ring (R40, R292). -/
structure StagedToken where
  op    : Nat
  token : Nat
  pos   : Nat
  deriving DecidableEq, Repr

/-- A request queue in force (R286): what its create command took, and the rung descriptors' ring times. -/
structure RqConf where
  base     : Nat := 0
  sizeLog2 : Nat := 4
  ctx      : Nat := 0
  cq       : Nat := 0
  /-- (TAIL value up to which the time holds, K-cycles of the doorbell), oldest first (R287) -/
  rung     : List (Nat × Nat) := []
  deriving DecidableEq, Repr

/-- A completion queue in force (R293): its ring, its records written, the head, the records held. -/
structure CqConf where
  base      : Nat := 0
  sizeLog2  : Nat := 4
  vector    : Nat := 0
  irqEn     : Bool := false
  coalCount : Nat := 0
  coalUs    : Nat := 0
  written   : Nat := 0
  head      : Nat := 0
  /-- operations whose records wait for a place, oldest first -/
  held      : List Nat := []
  unreported : Nat := 0
  deriving DecidableEq, Repr

/-- The owner of a granule (R228, R243). A granule that awaits scrub since the end of a context names it (R380). -/
inductive GranSt where
  | free
  | scrub (ctx : Option Nat)
  | owned (ctx : Nat)
  deriving DecidableEq, Repr

/-- A translated leaf (R223): its page's base and size, tier, target, room, write permission, NOMIG. -/
structure Leaf where
  va    : Nat := 0
  size  : Nat := 0
  tier  : Nat := 0
  addr  : Nat := 0
  room  : Nat := 0
  w     : Bool := false
  nomig : Bool := false
  /-- physical address and raw value of the leaf entry -/
  entPa : Nat := 0
  raw   : Nat := 0
  deriving DecidableEq, Repr

/-- A cached walk (R232). -/
structure CachedWalk where
  ctx  : Nat
  leaf : Leaf
  deriving DecidableEq, Repr

/-- Why a pin entry is held (R268, R270): for one step, for a sequence range, for the save area, for a context table. -/
inductive PinKind where
  | step | range | save | table
  deriving DecidableEq, Repr

/-- A pin entry (R231, R268). -/
structure Pin where
  ctx  : Nat
  leaf : Leaf
  kind : PinKind
  deriving DecidableEq, Repr

/-- A watch (R262): the bytes of one line that an issuer's booking will write. -/
structure Watch where
  owner : Nat
  addr  : Nat
  mask  : List Bool
  dirty : Bool := false
  deriving DecidableEq, Repr

/-- A booking in flight (R261, R264): `owner` is the operation it serves. -/
structure Booking where
  id     : Nat
  owner  : Nat
  lines  : List BookLine
  /-- reference counts the booking sets (R152): frame, new word -/
  refs   : List (Nat × Nat) := []
  aborts : Nat := 0
  issued : Bool := false
  deriving DecidableEq, Repr

/-- A write held by the memory hub (R237, R265): applied later, in arrival order. -/
structure HeldWrite where
  /-- the write meets the page that carries the migration mark: `addr` is the offset in that page -/
  page  : Bool := false
  addr  : Nat
  bytes : List Byte
  mask  : List Bool
  /-- who wrote: 0 Keeper, 1 the host through BAR4, 2 and 3 the kernels of partition 0 and 1, 4 + c copy channel c,
  1,024 + r the unit of room r -/
  src   : Nat := 0
  /-- the booking whose lines become visible together (R263), 0 for a write of its own -/
  grp   : Nat := 0
  deriving DecidableEq, Repr

/-- The migration in hand (R235 to R237). -/
structure Mig where
  ctx     : Nat
  dstTier : Nat
  va      : Nat
  dst     : Nat
  left    : Nat
  size    : Nat
  abort   : Bool := false
  /-- the page whose migration mark is set, with the leaf read in step 1 (R236) -/
  page    : Option Leaf := none
  deriving DecidableEq, Repr

/-- What a partition's step is doing. -/
inductive PStage where
  /-- IDLE -/
  | idle
  /-- at a step boundary with nothing to run (R87) -/
  | waiting
  /-- segment 0 before the seal beat -/
  | prologue
  /-- segment 0 after the seal beat -/
  | sealed
  /-- segment 1 on, before the scatter -/
  | body
  /-- the scatter segment -/
  | scatter
  /-- saving the carry set at a boundary (R275) -/
  | saving
  /-- restoring the incoming carry set (R276) -/
  | restoring
  deriving DecidableEq, Repr

/-- A request slot of the step plan (R92, R93): which operation, whether it has a decode row, its chunk rows. -/
structure Slot where
  op      : Nat
  decode  : Bool
  chunk   : Nat := 0
  chunkPos : Nat := 0
  bucket  : Nat := 0
  record  : List Byte := []
  recPa   : Nat := 0
  stream  : List Byte := []
  strPa   : Nat := 0
  token   : Option Nat := none
  fault   : Option Nat := none
  deriving DecidableEq, Repr

/-- The four stall causes (R37). -/
structure Stall where
  retry   : Bool := false
  droop   : Bool := false
  clock   : Bool := false
  booking : Bool := false
  /-- causes asserted at any time of the stall in progress (R35) -/
  seen    : List Nat := []
  deriving DecidableEq, Repr

/-- What a step that was dropped still takes from the Cellar (R200): the set and the base it read, the sequences and the tiles
of its arrays, the pages arrived by plane, and the blocks of each sequence taken so far. -/
structure LateStep where
  set     : Nat := 0
  base    : Option Nat := none
  arrays  : List (Nat × Nat) := []
  tiles   : List Nat := []
  arrived : SMap Nat := []
  seqNo   : SMap Nat := []
  deriving DecidableEq, Repr

/-- A partition. -/
structure Part where
  stage     : PStage := .idle
  ctx       : Nat := 0
  slot      : Nat := 0
  tileMask  : Nat := 0
  role      : Nat := 0
  divLimit  : Nat := 0
  /-- the effective model slot of the running context (R210) -/
  mslot     : Nat := 0xFF
  /-- the base's model slot, 0xFF without one; the sets that the partition reads through the two (R217) -/
  bslot     : Nat := 0xFF
  wset      : Option Nat := none
  wbase     : Option Nat := none
  seg       : Nat := 0
  beat      : Nat := 0
  stepBeats : Nat := 0
  retryBeats : Nat := 0
  pendCtx   : Option Nat := none
  pendStop  : Bool := false
  urgent    : Bool := false
  stopCode  : Nat := 0
  /-- the switch in hand (R275): the incoming context, none for a stop, and the stop's code -/
  incoming  : Option Nat := none
  outCode   : Nat := 0
  plan      : List Slot := []
  bookings  : List Booking := []
  watches   : List Watch := []
  pins      : List Pin := []
  stall     : Stall := {}
  exempt    : Bool := false
  /-- class-4 reads issued and delivered in this step by plane (R208), and the pages among them that were retried -/
  issued    : SMap Nat := []
  arrived   : SMap Nat := []
  retried   : List (Nat × Nat) := []
  /-- blocks of each array's sequence that its expander holds or has rebuilt in this step (R203) -/
  seqNo     : SMap Nat := []
  /-- what the cause read retry waits for: planes in recovery (R170), racks that a load found empty (R204) -/
  waitPlanes : List Nat := []
  waitRacks : List Nat := []
  /-- no step has begun since the context entered (R175) -/
  fresh     : Bool := false
  /-- fences whose thread waits: request slot and scope (R258) -/
  fenced    : List (Nat × Nat) := []
  /-- the K-cycle at which the partition began to wait at a boundary (R87) -/
  waitKc    : Option Nat := none
  /-- the K-cycle since which a bank alone holds back its step (R175, R181) -/
  heldKc    : Option Nat := none
  /-- a dropped step with reads still in flight (R200) -/
  late      : Option LateStep := none
  deriving DecidableEq, Repr

/-- A thread slot (R88). -/
structure Thread where
  kernel : Nat := 0
  row    : Nat := 0xFF
  state  : Nat := 0
  pc     : Nat := 0
  args   : List Nat := [0, 0, 0]
  deriving DecidableEq, Repr

/-- A block in an array's rack (R80, R104): its number, its 4 KiB and its trailer. -/
structure RackBlock where
  block   : Nat
  bytes   : List Nat
  trailer : List Nat
  deriving DecidableEq, Repr

/-- One array of a tile (R76, R79, R81, R84). -/
structure Arr where
  buf0    : List Nat := []
  trail0  : List Nat := []
  buf1    : List Nat := []
  trail1  : List Nat := []
  /-- the buffer holds a slab, whose trailer is a BF16 scale for each column (R154) -/
  slab0   : Bool := false
  slab1   : Bool := false
  badBuf0 : Bool := false
  badBuf1 : Bool := false
  /-- tally halves: FP32 sums by half × 32,768 + row × 128 + column -/
  tally   : SMap Nat := []
  released : List Nat := []
  rack    : List RackBlock := []
  /-- the filler generator (R84): its sequence is not described and changes no visible state -/
  filler  : Nat := 0
  /-- filler duty in sixteenths -/
  duty    : Nat := 0
  /-- the last class-0 entry run in this step and its repeat, and the ramp steps made down and up in the gap since (R85) -/
  last    : Option (Nat × Nat) := none
  gapDown : Nat := 0
  gapUp   : Nat := 0
  deriving DecidableEq, Repr

/-- A tile: bank owners, scratch, threads, arrays (R55, R88, R244 to R253, R272). -/
structure Tile where
  /-- owner code of each bank; 0 before any plan -/
  owners   : SMap Nat := []
  /-- scratch bytes, by bank × 262,144 + line × 64 + byte -/
  scratch  : SMap Nat := []
  /-- written bits, by bank × 4,096 + line -/
  written  : SMap Nat := []
  secure   : SMap Nat := []
  secureWritten : SMap Nat := []
  retention : Bool := true
  filled   : Bool := false
  /-- entries of segment 0 whose fill has completed in this step (R272) -/
  fillDone : List Nat := []
  threads  : SMap Thread := []
  arr0     : Arr := {}
  arr1     : Arr := {}
  testBank : Nat := 0
  testLine : Nat := 0
  deriving DecidableEq, Repr


/-- The error path (R408, R413): buffer, summary table, ring, daybook. -/
structure ErrPath where
  buffer   : List ErrRec := []
  first    : SMap (Option ErrRec) := []
  last     : SMap (Option ErrRec) := []
  ring     : SMap (Option ErrRec) := []
  daybook  : SMap (Option DayEntry) := []
  /-- trace entries waiting on the die, and those dropped since the last TYPE 4 entry (R402) -/
  trace    : List DayEntry := []
  dropped  : Nat := 0
  deriving DecidableEq, Repr

/-- A boot record (R397). -/
structure BootRec where
  good    : Bool := false
  gen     : Nat := 0
  active  : Nat := 0
  trial   : Nat := 0
  tries   : Nat := 0
  /-- how Keeper reads its NOR; the model reads no serial interface (log entry 9) -/
  spiMode : Nat := 0
  spiMhz  : Nat := 25
  deriving DecidableEq, Repr

/-- Keeper, its NOR flash and an update in hand (R396 to R424). -/
structure Keeper where
  everReady : Bool := false
  restarting : Bool := false
  /-- Porter has released Keeper in this start, which has not reported ready yet (R398) -/
  released  : Bool := false
  boot0     : BootRec := {}
  boot1     : BootRec := {}
  /-- the manifests programmed in the NOR's two slots; none where a slot is invalid -/
  slot0     : Option Manifest := some {}
  slot1     : Option Manifest := none
  image0    : List Byte := []
  image1    : List Byte := []
  norBytes  : Nat := 0x2000000
  /-- which slot is tried and how often in this start (R398) -/
  trying    : Nat := 0
  attempts  : Nat := 0
  otherTried : Bool := false
  fallback  : Bool := false
  running   : Manifest := {}
  fwDigest  : List Byte := []
  releaseKc : Nat := 0
  /-- the slot that holds a verified image not yet activated (R425) -/
  verified  : Option Nat := none
  /-- the receipt in hand: manifest, output so far, open INSERT bytes, next block, relay id and origin room -/
  upd       : Option Manifest := none
  updOut    : List Byte := []
  updHead   : List Byte := []
  updInsert : Nat := 0
  updEnded  : Bool := false
  /-- whether the package binds and its blocks are applied (R419, R424), and the code of the check that it failed -/
  updApply  : Bool := true
  updCode   : Nat := 0
  updNext   : Nat := 1
  relayId   : Nat := 0
  relayRoom : Nat := 0
  deriving DecidableEq, Repr

/-- Porter (R382 to R395) beside the Strongroom fields that SRM mirrors. -/
structure Porter where
  cert      : List Byte := []
  idPub     : Bool := true
  keysLive  : Bool := false
  udsBlown  : Bool := false
  inputsZeroed : Bool := false
  pendTamper : Bool := false
  /-- a QUOTE_PEER waiting for its reply: the room asked -/
  peerRoom  : Option Nat := none
  deriving DecidableEq, Repr

/-- The chip as a whole: resets, clocks, link, pins. -/
structure Chip where
  coldLow   : Bool := false
  perstLow  : Bool := false
  pllLocked : Bool := false
  pllFailed : Bool := false
  linkUp    : Bool := false
  /-- the function's configuration state (R281) -/
  pci       : PciConf := {}
  d3hot     : Bool := false
  tripped   : Bool := false
  /-- the trip flag in the non-volatile record of R370 -/
  tripFlag  : Bool := false
  thermTripLow : Bool := false
  alertLow  : Bool := false
  chainHead : Bool := false
  bootSel   : Bool := false
  spiVsel   : Bool := false
  coreUp    : Bool := true
  ioUp      : Bool := true
  tapInstr  : Nat := 0
  tilesStarted : Nat := 0
  /-- tiles that have failed a start self-test since COLD_RST_N (R97) -/
  badTiles  : List Nat := []
  /-- the check of installed sets is done (step 5 of R46) -/
  setsChecked : Bool := false
  /-- the tile whose scratch the transparent test is at (R250) -/
  testTile  : Nat := 0
  /-- the stagger of a chained start is over and tiles may start (R337) -/
  tileGo    : Bool := false
  deriving DecidableEq, Repr


/-- A physical block of the Cellar (R163, R180, R182). `use`: 0 free, 1 user, 2 system, 3 parity, 4 factory bad,
5 retired, 6 interrupted. -/
structure PBlock where
  use      : Nat := 0
  logical  : Nat := 0
  sweeps   : Nat := 0
  reads    : Nat := 0
  retried  : Nat := 0
  sinceRefresh : Nat := 0
  pe       : Nat := 0
  stage    : Nat := 0
  prog10us : Nat := 0
  /-- queued for relocation: 0 no, 1 by its counter (R181), 2 by a retried page (R170) -/
  queued   : Nat := 0
  /-- the margins added before the block was last erased (R180), and its counter at the last checkpoint -/
  base     : Nat := 0
  ckpt     : Nat := 0
  /-- the tag in page 0 (R163, R185): the logical number plus one, 0 where there is none, and the program generation -/
  tag      : Nat := 0
  gen      : Nat := 0
  deriving DecidableEq, Repr

/-- The one operation a bank holds (R172): a program or an erase, on which physical block, suspended or not. -/
structure BankOp where
  erase     : Bool
  plane     : Nat
  block     : Nat
  suspended : Bool := false
  suspending : Bool := false
  /-- it has overrun and its block is retired, but the die has not ended it yet (R174) -/
  dead      : Bool := false
  deriving DecidableEq, Repr

/-- A relocation in hand in a bank (R181). -/
structure Reloc where
  plane : Nat
  src   : Nat
  dst   : Nat
  page  : Nat := 0
  /-- the source is retired: it is not erased afterwards (R182) -/
  retire : Bool := false
  deriving DecidableEq, Repr

/-- A page read in flight (R168): page `n` of the run on `plane` of `set`, for partition `part`; `live` says that the
step which issued it still runs. -/
structure ReadOp where
  plane : Nat
  part  : Nat
  set   : Nat
  n     : Nat
  live  : Bool := true
  deriving DecidableEq, Repr

/-- A physical block that waits to be erased, and the set whose end it belongs to (R181, R213, R218). -/
structure Stale where
  plane : Nat
  block : Nat
  set   : Option Nat := none
  deriving DecidableEq, Repr

/-- The Cellar. Physical blocks are keyed by plane × 128 + block; logical blocks by plane × 120 + number. The journal
is the set of these records itself, less the advance of the read-disturb counters since the last checkpoint; what it
adds is the open operations of each bank (R179) and the checkpoint. -/
structure Cellar where
  blocks   : SMap PBlock := []
  /-- logical block to physical block of the same plane, plus one; 0 reads as the identity map -/
  map      : SMap Nat := []
  /-- stored bytes of pages, by ((plane × 120 + logical) × 256 + page) × 16,384 + byte -/
  data     : SMap Nat := []
  bankOps  : SMap (Option BankOp) := []
  relocs   : List Reloc := []
  inFlight : List ReadOp := []
  stale    : List Stale := []
  /-- spare blocks left, by plane (R183) -/
  spare    : SMap Nat := []
  /-- the last shutdown wrote a final checkpoint -/
  orderly  : Bool := true
  /-- the sum of the margins added to every counter (R180) -/
  margin   : Nat := 0
  /-- logical blocks withdrawn, by plane × 120 + number (R183): 1 an unallocated user block, 2 one whose data was lost -/
  withdrawn : SMap Nat := []
  /-- the owner of logical number ℓ of bank b, set + 1, by b × 120 + ℓ (R207) -/
  alloc    : SMap Nat := []
  /-- banks whose readers are held until one program of a forced relocation has run (R181) -/
  forced   : List Nat := []
  deriving DecidableEq, Repr

/-- An installed weight set (R189, R212). `state`: 0 FREE, 1 INSTALLING, 2 CHECKING, 3 READY, 4 IMPAIRED, 5 REMOVING. -/
structure SetRec where
  state     : Nat := 0
  form      : Nat := 0
  layoutTag : Nat := 0
  baseLayoutTag : Nat := 0
  setUid    : Nat := 0
  baseUid   : Nat := 0
  blocks    : Nat := 0
  planes    : List Nat := []
  pages     : List Nat := []
  dataBytes : Nat := 0
  tables    : List (Nat × Nat) := []
  tableImages : List (List Nat) := []
  index     : List Nat := []
  metaDigest : List Byte := []
  /-- the stored bytes that META_DIGEST covers, and the digests of the shards (R212) -/
  covered   : List Byte := []
  digests   : List (List Byte) := []
  lblocks   : Nat := 0
  /-- the K-cycle of its last complete pass (R216) -/
  passKc    : Nat := 0
  deriving DecidableEq, Repr

/-- A block whose lines are all in its array's expander (R202): its place in the array's sequence, the set of its base
block, and the table and epoch it names, 0 where it names none. -/
structure BufBlock where
  arr   : Nat
  block : Nat
  set   : Nat
  base  : Option Nat := none
  table : Nat := 0
  epoch : Nat := 0
  live  : Bool := true
  deriving DecidableEq, Repr

/-- An expander's block in hand and its faults; the expanders' decode tables are common (R198). -/
structure Expander where
  /-- table images by (id × 2 + slot), 2,048 bytes each -/
  tables    : SMap (List Nat) := []
  sets      : SMap SetRec := []
  /-- the install or removal running: its set and next shard -/
  inst      : Option (Nat × Nat) := none
  removing  : Option Nat := none
  instAbort : Bool := false
  /-- the shard in the staging area, and its stripes still to program: bank, logical number and page (R213) -/
  shard     : List Byte := []
  todo      : List (Nat × Nat × Nat) := []
  /-- the table load in hand: the command word's fields -/
  tblBusy   : Bool := false
  /-- the source set of that load where it is FROM_SET -/
  tblSet    : Option Nat := none
  tblId     : Nat := 0
  tblSlot   : Nat := 0
  tblEpoch  : Nat := 0
  /-- blocks in the expanders' input buffers, oldest first -/
  buffered  : List BufBlock := []
  deriving DecidableEq, Repr


/-- Power control (R354 to R375) beside the PWR registers. The divider in use of a partition is
ITN_Pp_STATUS.DIVIDER, and the filtered brake level PWR_STATUS.BRAKE_IN. -/
structure Power where
  /-- the cap in force: a written cap takes effect at the next loop period (R360) -/
  capNow    : Nat := 180
  /-- divider that the cap loop has chosen for partition 0 and 1 (R362); 0 when none -/
  capWant0  : Nat := 0
  capWant1  : Nat := 0
  /-- divider that a stepping reason asks for (R364), by reason × 2 + partition; 0 when none. Reason 1 is
  CURRENT_LIMIT, 2 the Keeper rule of THERMAL, 5 the Cellar rule of KEEPER_REQUEST -/
  steps     : SMap Nat := []
  /-- a speed-up waiting on the regulator: the divider it goes to (R359) -/
  wait0     : Option Nat := none
  wait1     : Option Nat := none
  /-- when each partition last changed divider, in µs (R362, R365) -/
  lastChange0 : Nat := 0
  lastChange1 : Nat := 0
  /-- VDD_CORE in mV, 750 until Keeper's first order (R429) -/
  setpoint  : Nat := 750
  /-- the stepping reasons in force: CURRENT_LIMIT, the Keeper rule of THERMAL, the Cellar rule of KEEPER_REQUEST -/
  curOn     : Bool := false
  thermOn   : Bool := false
  celOn     : Bool := false
  /-- the hardware rule of THERMAL holds (R364) -/
  thermHw   : Bool := false
  /-- the brake has been asserted for longer than its limit (R431) -/
  brakeStuck : Bool := false
  /-- a monitored rail is out of its window (R369) -/
  railOut   : Bool := false
  /-- firing droop detectors: 0 to 31 tiles, 32 on hubs (R367) -/
  droops    : List Nat := []
  /-- the 1 ms and 10 ms averages of package power, in 0.1 W (R362) -/
  avg1ms    : Nat := 0
  avg10ms   : Nat := 0
  /-- loop periods for which the 10 ms average has exceeded the cap by more than 5 % (R362) -/
  modelOver : Nat := 0
  modelSaid : Bool := false
  /-- the d_P answered since COLD_RST_N: partition and cap (R322) -/
  queried   : List (Nat × Nat) := []
  /-- the divider journalled for a tile (R357); 0 where none is -/
  journal   : SMap Nat := []
  /-- consecutive low-margin samples of a tile (R357) -/
  lowMargin : SMap Nat := []
  deriving DecidableEq, Repr

/-- A Tendi port (R327 to R332): what its registers do not hold. -/
structure Port where
  /-- SEQ of the last message flit sent, and of the last one received in order -/
  txSeq    : Nat := 0
  rxSeq    : Nat := 0
  /-- message flits sent and not yet acknowledged, oldest first -/
  unacked  : List Flit := []
  /-- consecutive replays without progress (R328) -/
  replays  : Nat := 0
  /-- messages waiting to be sent, oldest first; flits of the first message of each channel that have gone -/
  queue    : List ChainMsg := []
  sent     : List Nat := [0, 0, 0, 0]
  /-- flits that the neighbour can take, and flits freed here since the last return, by channel -/
  credits  : List Nat := [64, 32, 32, 16]
  freed    : List Nat := [0, 0, 0, 0]
  /-- messages received in part, and messages received whole that wait to be acted on -/
  parts    : List ChainMsg := []
  inbox    : List ChainMsg := []
  /-- an ANNOUNCE is due when the port reaches UP (R339) -/
  announce : Bool := false
  deriving DecidableEq, Repr

/-- A roster record (R334). -/
structure RosterRec where
  room   : Nat := 0
  words  : List Nat := [0, 0, 0, 0]
  deriving DecidableEq, Repr

/-- An export entry (R342). -/
structure ExportEntry where
  valid   : Bool := false
  w       : Bool := false
  reqRoom : Nat := 0
  granule : Nat := 0
  context : Nat := 0
  deriving DecidableEq, Repr

/-- A STEP message that lies in an input half (R347). -/
structure SpanStep where
  step  : Nat
  half  : Nat
  rows  : List SpanRow := []
  codes : List Nat := []
  deriving DecidableEq, Repr

/-- A span in which this unit is a stage (R345 to R349): what is in force since the activation. -/
structure SpanRun where
  running : Bool := false
  stage   : Nat := 0
  stages  : Nat := 0
  spanId  : Nat := 0
  elems   : Nat := 0
  codec   : Nat := 0
  inPort  : Nat := 0xFF
  outPort : Nat := 0xFF
  inBytes : Nat := 0
  outBytes : Nat := 0
  rooms   : List Nat := []
  inVa    : Nat := 0
  outVa   : Nat := 0
  /-- STEP messages not yet run, and the one that the step in progress consumes -/
  steps   : List SpanStep := []
  cur     : Option SpanStep := none
  /-- message slots of the plan's request slots (R348) -/
  slots   : List Nat := []
  /-- the next SPAN_STEP (stage 0), the next output half, and halves of the next stage in use, by SPAN_STEP -/
  stepNo  : Nat := 0
  outHalf : Nat := 0
  outBusy : List (Nat × Nat) := []
  /-- at stage 0: steps whose TOKENS is awaited, with the operations of their request slots -/
  awaited : List (Nat × List Nat) := []
  deriving DecidableEq, Repr

/-- The chain. -/
structure Chain where
  fore    : Port := {}
  aft     : Port := {}
  roster  : List RosterRec := []
  room    : Nat := 0
  callId  : Nat := 0
  exports : SMap ExportEntry := []
  span0   : SpanRun := {}
  span1   : SpanRun := {}
  /-- chain fences in progress: their number, the rooms still to answer, and the partition and request slot whose thread
  waits, none for Keeper -/
  fences  : List (Nat × List Nat × Option (Nat × Nat)) := []
  /-- refusals of tier-3 writes by source room, for the next fence acknowledgement -/
  refusals : SMap Nat := []
  /-- rooms written since the last chain fence, and the number of the next fence -/
  wrote    : List Nat := []
  nextFence : Nat := 1
  /-- the room taken in the roll call in progress -/
  rollRoom : Nat := 0
  deriving DecidableEq, Repr


/-- The machine. `pending` is the queue of waiting commands; `free` counts the free values taken; `resp` is the answer
of the last read command; every other field is a part of the chip. -/
structure State where
  pending  : List Instr := []
  free     : Nat := 0
  resp     : List Nat := []
  timeKc   : Nat := 0
  out      : List Emit := []
  heldOut  : List Emit := []
  regs     : SMap Nat := []
  snap     : SMap Nat := []
  hold     : SMap Nat := []
  chip     : Chip := {}
  dram     : List Host.Cell := []
  gran     : SMap GranSt := []
  refs     : SMap Nat := []
  walks    : List CachedWalk := []
  part0    : Part := {}
  part1    : Part := {}
  mapForce : Option (List Nat) := none
  images   : SMap (Option Image) := []
  loadLen  : Nat := 0
  ops      : List Operation := []
  nextOp   : Nat := 1
  nextAdmit : Nat := 1
  nextBooking : Nat := 1
  staged   : List StagedToken := []
  releases : List Release := []
  rqs      : SMap (Option RqConf) := []
  cqs      : SMap (Option CqConf) := []
  keeperBookings : List Booking := []
  keeperWatches  : List Watch := []
  holdRanges : List (Nat × Nat) := []
  heldWrites : List HeldWrite := []
  mig      : Option Mig := none
  chans    : SMap (Option CopyDesc) := []
  ctxs     : SMap (Option CtxRec) := []
  gbOn     : SMap Nat := []
  tiles    : SMap Tile := []
  cel      : Cellar := {}
  exp      : Expander := {}
  chn      : Chain := {}
  pwr      : Power := {}
  kpr      : Keeper := {}
  err      : ErrPath := {}
  sec      : Porter := {}
  deriving DecidableEq, Repr


/-- The reasons a step stops with a fault. No command of this model faults: the spec gives every event an effect, and
an access outside an address space is refused by the part itself. -/
inductive Fault where
  /-- raised by no meaning; it stands for an internal fault outside the table of R271, which R414 turns into the safe
  state, a next state (safe) -/
  | outsideTable
  deriving DecidableEq, Repr

/-- The reasons a step is refused. -/
inductive Refusal where
  /-- a command that has no meaning yet, by its mnemonic; raised by exec's own arms (safe) -/
  | notModelled (mnemonic : String)
  deriving DecidableEq, Repr

/-- The machine right after the release of COLD_RST_N (R12, R46): every register at its reset value, every engine
inert, memory with nothing listed. What the fuses and the flash of a part hold as shipped (R10) is in the defaults of
the register map and of the Cellar and Keeper records (log entries 9, 10). -/
def State.reset : State := {}

end Sys2Proof.Machine
end

