-- ==== Sys2Proof/Machine/Ops.lean ====
section
/-! DEFINITION. The named operations every meaning is written with: register fields, events and their vectors, what the
part sends, error reports and the safe state, the gates on host writes and Keeper's commands, and the accessors of
partitions, tiles and queues. -/

namespace Sys2Proof.Machine

/-! Register fields. -/

/-- What a field holds. -/
def State.rd (s : State) (f : Fld) : Nat := SMap.get regDefault s.regs f.key

/-- Set a field; bits beyond its width are dropped. -/
def State.wr (s : State) (f : Fld) (v : Nat) : State :=
  { s with regs := SMap.set regDefault s.regs f.key (v % 2 ^ f.width) }

/-- Whether a one-bit field is 1. -/
def State.flag (s : State) (f : Fld) : Bool := s.rd f == 1

/-- Add to a counter, wrapping at its width. -/
def State.add (s : State) (f : Fld) (n : Nat) : State := s.wr f (s.rd f + n)

/-- Add one to a counter, wrapping at its width. -/
def State.inc (s : State) (f : Fld) : State := s.add f 1

/-- Add to a counter that saturates. -/
def State.addSat (s : State) (f : Fld) (n : Nat) : State := s.wr f (minNat (s.rd f + n) (2 ^ f.width - 1))

/-- Set several fields. -/
def State.wrs (s : State) : List (Fld × Nat) → State
  | [] => s
  | (f, v) :: rest => State.wrs (s.wr f v) rest

/-- Put a field at its reset value. -/
def State.clr (s : State) (f : Fld) : State := s.wr f (regDefault f.key)

/-! Free values (log entry 3). -/

/-- A number the spec leaves open, and the state with it taken. -/
def State.freshNat (s : State) : Nat × State := (Config.freeNat s.free, { s with free := s.free + 1 })

/-- A yes or no the spec leaves open, and the state with it taken. -/
def State.freshBool (s : State) : Bool × State := (Config.freeBool s.free, { s with free := s.free + 1 })

/-- What an empty snapshot or holding register holds. -/
def halfBlank : Nat → Nat := fun _ => 0

/-- A commit clears the holding register of its pair (R16). -/
def State.clearHold (s : State) (off : Nat) : State := { s with hold := SMap.set halfBlank s.hold off 0 }

/-! Iteration over the indices of a bank of registers or units. -/

/-- Apply `f 0`, `f 1`, … `f (n-1)` in this order. -/
def iter (n : Nat) (f : Nat → State → State) (s : State) : State := (List.range n).foldl (fun t i => f i t) s

/-- Apply `f` to each element in order. -/
def overList {α : Type} (l : List α) (f : α → State → State) (s : State) : State := l.foldl (fun t x => f x t) s

/-! What the part sends. -/

/-- Whether a transaction goes over PCI Express as a request of the part. -/
def emitToHost : Emit → Bool
  | .hostWrite .. => true
  | .msix .. => true
  | .aer => true
  | _ => false

/-- Whether the Strongroom is in the safe state (R414). -/
def State.safe (s : State) : Bool := s.flag Reg.ERR_SAFE_SAFE

/-- Send a transaction. In D3hot requests wait (R284); in the safe state none of the tokens, records and messages is
sent (R414); after a thermal trip every clock is stopped (R370). -/
def State.emit (s : State) (e : Emit) : State :=
  if s.chip.tripped then s
  else if emitToHost e && s.safe then s
  else if emitToHost e && s.chip.d3hot then { s with heldOut := s.heldOut ++ [e] }
  else { s with out := s.out ++ [e] }

/-- Write bytes to host memory at a bus address. -/
def State.hostWrite (s : State) (addr : Nat) (bytes : List Byte) (ordered : Bool) : State :=
  s.emit (.hostWrite addr bytes ordered)

/-- The pending bit of a vector. -/
def pbaFld (v : Nat) : Fld := ⟨(Reg.MSIX_PBA_BITS (v / 32)).off, v % 32, 1⟩

/-- Set or clear the pending bit of a vector: the array's words hold 32 of them. -/
def State.setPba (s : State) (v : Nat) (b : Bool) : State :=
  let f := Reg.MSIX_PBA_BITS (v / 32)
  let w := s.rd f
  let rest := if bitOf w (v % 32) then w - 2 ^ (v % 32) else w
  s.wr f (rest + b2n b * 2 ^ (v % 32))

/-- Whether a vector's messages go out: MSI-X is enabled, neither the function nor the vector is masked (R281, R295). -/
def State.msixOpen (s : State) (v : Nat) : Bool :=
  s.chip.pci.msixEn && !s.chip.pci.msixMask && !s.flag (Reg.MSIX_CTRL_MASK v)

/-- Send a vector's message, or set its pending bit while the vector or the function is masked (R295, R298). While MSI-X is
not enabled nothing is sent. -/
def State.msix (s : State) (v : Nat) : State :=
  if !s.chip.pci.msixEn then s
  else if s.chip.pci.msixMask || s.flag (Reg.MSIX_CTRL_MASK v) then s.setPba v true
  else s.emit (.msix v (s.rd (Reg.MSIX_ADDR_LO_ADDR v) + 2 ^ 32 * s.rd (Reg.MSIX_ADDR_HI_ADDR v))
    (s.rd (Reg.MSIX_DATA_DATA v)))

/-- A pending message is sent once its vector is open (R298). -/
def State.flushVec (s : State) (v : Nat) : State :=
  if s.msixOpen v && bitOf (s.rd (Reg.MSIX_PBA_BITS (v / 32))) (v % 32) then (s.setPba v false).msix v else s

/-- Set an event bit of a block: on 0 to 1 with its enable 1, the block's vector is sent (R298). `src` is the block's
place in HIF_IVEC. -/
def State.raise (s : State) (src : Nat) (bit en : Fld) : State :=
  if s.flag bit then s
  else if bitOf (s.rd en) bit.lo then (s.wr bit 1).msix (s.rd (Reg.HIF_IVEC_VECTOR src))
  else s.wr bit 1

def State.raiseHif (s : State) (bit : Fld) : State := s.raise 0 bit Reg.HIF_IRQ_EN_BITS
def State.raiseItn (s : State) (bit : Fld) : State := s.raise 1 bit Reg.ITN_IRQ_EN_BITS
def State.raiseMem (s : State) (bit : Fld) : State := s.raise 2 bit Reg.MEM_IRQ_EN_BITS
def State.raiseCel (s : State) (bit : Fld) : State := s.raise 3 bit Reg.CEL_IRQ_EN_BITS
def State.raiseExp (s : State) (bit : Fld) : State := s.raise 4 bit Reg.EXP_IRQ_EN_BITS
def State.raiseSrv (s : State) (bit : Fld) : State := s.raise 5 bit Reg.SRV_IRQ_EN_BITS
def State.raiseChn (s : State) (bit : Fld) : State := s.raise 6 bit Reg.CHN_IRQ_EN_BITS
def State.raisePwr (s : State) (bit : Fld) : State := s.raise 7 bit Reg.PWR_IRQ_EN_BITS
def State.raiseKpr (s : State) (bit : Fld) : State := s.raise 8 bit Reg.KPR_IRQ_EN_BITS
def State.raiseErr (s : State) (bit : Fld) : State := s.raise 9 bit Reg.ERR_IRQ_EN_BITS
def State.raiseSec (s : State) (bit : Fld) : State := s.raise 10 bit Reg.SEC_IRQ_EN_BITS

/-! Time. -/

/-- The unit's timer in µs: K-clock runs at 375 MHz (HIF_TIME). -/
def State.timeUs (s : State) : Nat := s.timeKc / 375

/-! Partitions, tiles, images. -/

/-- Partition `p`. -/
def State.part (s : State) (p : Nat) : Part := if p = 0 then s.part0 else s.part1

/-- Replace partition `p`. -/
def State.setPart (s : State) (p : Nat) (x : Part) : State :=
  if p = 0 then { s with part0 := x } else { s with part1 := x }

/-- Change partition `p`. -/
def State.updPart (s : State) (p : Nat) (f : Part → Part) : State := s.setPart p (f (s.part p))

/-- What a tile that nothing has touched holds. -/
def tileBlank : Nat → Tile := fun _ => {}

/-- Tile `n`. -/
def State.tile (s : State) (n : Nat) : Tile := SMap.get tileBlank s.tiles n

/-- Change tile `n`. -/
def State.updTile (s : State) (n : Nat) (f : Tile → Tile) : State :=
  { s with tiles := SMap.modify tileBlank s.tiles n f }

/-- What an itinerary slot that nothing has filled holds. -/
def imageBlank : Nat → Option Image := fun _ => none

/-- The validated image of an itinerary slot. -/
def State.image (s : State) (slot : Nat) : Option Image := SMap.get imageBlank s.images slot

/-- The sections of the partition's running itinerary. -/
def State.partImage (s : State) (p : Nat) : PartImage :=
  match s.image (s.part p).slot with
  | some im => im.parts.getD p {}
  | none => {}

/-- The tiles of a partition, in ascending order. -/
def Part.tiles (x : Part) : List Nat := (List.range 32).filter (fun n => bitOf x.tileMask n)

/-- Whether a partition has a context: it is not IDLE. -/
def Part.busy (x : Part) : Bool := x.stage != .idle

/-- Whether a partition is inside a step, before or in its scatter. -/
def Part.inStep (x : Part) : Bool :=
  x.stage == .prologue || x.stage == .sealed || x.stage == .body || x.stage == .scatter

/-! Error reports (R408, R410, R458). -/

/-- A report of a code, with its class and severity and no request. -/
def errOf (code sev : Nat) : ErrRec := { cls := errClass code, code := code, sev := sev }

/-- What an empty place of the summary table, the ring or the daybook holds. -/
def errBlank : Nat → Option ErrRec := fun _ => none

/-- Test a report against ERR_ALERT_EN (R458); ALERT_N is driven only once Keeper has reported ready (R436). -/
def State.alertTest (s : State) (r : ErrRec) : State :=
  if s.rd Reg.ERR_ALERT_EN_SEV ≤ r.sev || bitOf (s.rd Reg.ERR_ALERT_EN_CLASS_MASK) r.cls then
    let s := s.raiseErr Reg.ERR_IRQ_STATUS_ALERT
    if s.kpr.everReady then { s with chip := { s.chip with alertLow := true } } else s
  else s

/-- What the collector does at each report: counter, summary table, buffer (R408). -/
def State.report (s : State) (r0 : ErrRec) : State :=
  let step := if r0.partition < 2 then s.rd (Reg.ITN_P_STEPS r0.partition) % 2 ^ 32 else 0
  let r := { r0 with timeKc := s.timeKc, step := step }
  let s := s.addSat (Reg.ERR_CLASS_CNT_COUNT r.cls) 1
  let first := SMap.get errBlank s.err.first r.cls
  let e : ErrPath := { s.err with
    last := SMap.set errBlank s.err.last r.cls (some r)
    first := if first = none then SMap.set errBlank s.err.first r.cls (some r) else s.err.first }
  let s := { s with err := e }
  let s := if s.err.buffer.length < 64 then { s with err := { s.err with buffer := s.err.buffer ++ [r] } }
    else (s.addSat Reg.ERR_LOST_BUF_COUNT 1).raiseErr Reg.ERR_IRQ_STATUS_LOST
  s.alertTest r

/-- Report a code with a severity. -/
def State.rep (s : State) (code sev : Nat) : State := s.report (errOf code sev)

/-- Drop what a partition's step holds, as an abandoned or stopped step does (R41): its bookings, watches and step pins.
Nothing that outlives the step changes. -/
def Part.dropStep (x : Part) : Part :=
  { x with
    bookings := [], watches := [], pins := x.pins.filter (fun q => q.kind != .step), plan := [],
    stall := {}, issued := [], arrived := [], retried := [], seqNo := []
    waitPlanes := [], waitRacks := [], fenced := [], waitKc := none, heldKc := none }

/-- A tile of a running partition at divider 12 with its arrays ramped down, the ramp steps counted (R414). -/
def State.safeTile (n : Nat) (s : State) : State :=
  let u := s.tile n
  let s := ((s.add (Reg.TIL_ARR_RAMP n 0) u.arr0.duty).add (Reg.TIL_ARR_RAMP n 1) u.arr1.duty).wr (Reg.TIL_STATUS_DIV n) 12
  s.updTile n (fun v => { v with arr0 := { v.arr0 with duty := 0 }, arr1 := { v.arr1 with duty := 0 } })

/-- The divider of a running partition goes to 12 (R414). -/
def State.safeDiv (s : State) (p : Nat) : State :=
  if s.rd (Reg.ITN_P_STATUS_DIVIDER p) = 12 then s
  else (s.wr (Reg.ITN_P_STATUS_DIVIDER p) 12).inc (Reg.PWR_P_CHANGES p)

/-- Hold a running partition at divider 12, its tiles ramped down (R414). -/
def State.safeHold (s : State) (p : Nat) : State :=
  if (s.part p).busy then overList (s.part p).tiles State.safeTile (s.safeDiv p) else s

/-- Enter the Strongroom safe state (R414): timetables stop and their steps are abandoned, tiles hold divider 12 ramped
down, Keeper halts, ALERT_N is driven, ERR_SAFE takes the cause; every request ends without a record. A second cause
is counted and summarised, and ERR_SAFE keeps the first. -/
def State.enterSafe (s : State) (r : ErrRec) : State :=
  let s := s.report { r with sev := 4 }
  if s.safe then s
  else
    let s := ((s.raiseErr Reg.ERR_IRQ_STATUS_SAFE).safeHold 0).safeHold 1
    let s := s.wrs [(Reg.ERR_SAFE_SAFE, 1), (Reg.ERR_SAFE_CLASS, r.cls), (Reg.ERR_SAFE_CODE, r.code),
      (Reg.KPR_STATUS_STATE, 6)]
    { s with
      part0 := s.part0.dropStep, part1 := s.part1.dropStep, ops := [], staged := [],
      kpr := { s.kpr with upd := none, updEnded := false },
      chip := { s.chip with alertLow := true } }

/-- A trace entry of a group of R403 waits to be written: the point inside the group is the part's own (log entry 25). A
full buffer drops it (R402). -/
def State.trace (s : State) (group code : Nat) (data : List Nat) : State :=
  let mask := s.rd Reg.KPR_TRACE_MASK
  if mask = 0 then s
  else
    let r := s.freshNat
    let s := r.2
    let point := group + r.1 % 8
    if bitOf mask point then
      if s.err.trace.length < 256 then
        { s with err := { s.err with
          trace := s.err.trace ++ [{ type := 1, point := point, code := code, timeKc := s.timeKc, data := data }] } }
      else
        let s := { s with err := { s.err with dropped := s.err.dropped + 1 } }
        (s.inc Reg.KPR_TRACE_DROPPED).raiseKpr Reg.KPR_IRQ_STATUS_TRACE_DROP
    else s

/-! The gates on commands. -/

/-- Whether the part is out of reset and its clocks run. -/
def State.alive (s : State) : Bool := !s.chip.coldLow && !s.chip.perstLow && !s.chip.tripped

/-- Whether an event of a running engine can happen: the part is alive and not in the safe state. -/
def State.live (s : State) : Bool := s.alive && !s.safe

/-- Whether a BAR4 write of the host is held by the memory hub: later accesses of the host wait (R259; log entry 107). -/
def State.hostHeld (s : State) : Bool := s.heldWrites.any (fun w => w.src == 1)

/-- Whether the host reaches the function's BARs: the link is up in D0 with Memory Space Enable set (R4), and no earlier
BAR4 write is still to become visible (R259). -/
def State.linked (s : State) : Bool := s.chip.linkUp && s.chip.pci.mem && !s.chip.d3hot && !s.hostHeld

/-- Whether a BAR0 write to an offset reaches its register: the link is up in D0, the root PLL has not failed (R355), the
part is not scrapped (R386), and in the safe state (R414) or where no slot booted (R398) only the ERR block takes
writes. -/
def State.hostOk (s : State) (off : Nat) : Bool :=
  s.alive && s.linked && !s.chip.pllFailed && s.rd Reg.SRM_LC_STATE != 4 &&
    ((!s.safe && s.rd Reg.KPR_STATUS_STATE != 5) || (0x2C00000 ≤ off && off < 0x3000000))

/-- Whether a BAR2 write or a BAR4 access reaches the part: the link is up in D0, and the part runs and answers (R355,
R386, R398, R414). -/
def State.barOk (s : State) : Bool :=
  s.live && s.linked && !s.chip.pllFailed && s.rd Reg.SRM_LC_STATE != 4 &&
    s.rd Reg.KPR_STATUS_STATE != 5

/-- A host write that reaches its register, or does nothing. -/
def State.host (s : State) (off : Nat) (k : State → State) : State := if s.hostOk off then k s else s

/-- Whether Keeper is ready (R457). -/
def State.ready (s : State) : Bool := s.flag Reg.KPR_STATUS_READY

/-- A command that Keeper performs: discarded while Keeper is not ready, the block's code saying so (R457). -/
def State.keeper (s : State) (code : Fld) (k : State → State) : State :=
  if s.ready then k s else s.wr code Code.KPR_E_NOT_READY

/-- An event of an engine that runs: nothing happens in a reset, after a trip or in the safe state. -/
def State.engine (s : State) (k : State → State) : State := if s.live then k s else s

/-- An answer of a meaning that always goes on. -/
abbrev Answer := Host.Outcome State Fault Refusal

/-- Whether any partition runs (is not IDLE). -/
def State.anyBusy (s : State) : Bool := s.part0.busy || s.part1.busy

/-! DRAM. -/

/-- Read bytes of DRAM. -/
def State.mread (s : State) (a n : Nat) : List Byte := dramRead s.dram a n

/-- Write bytes of DRAM. -/
def State.mwrite (s : State) (a : Nat) (bs : List Byte) : State := { s with dram := dramWrite s.dram a bs }

/-- A little-endian number of DRAM. -/
def State.mnat (s : State) (a n : Nat) : Nat := leNat (s.mread a n)

/-! Queues. -/

/-- What a queue that is not enabled holds. -/
def rqBlank : Nat → Option RqConf := fun _ => none
def cqBlank : Nat → Option CqConf := fun _ => none

/-- The request queue `q` in force. -/
def State.rq (s : State) (q : Nat) : Option RqConf := SMap.get rqBlank s.rqs q
def State.setRq (s : State) (q : Nat) (c : Option RqConf) : State := { s with rqs := SMap.set rqBlank s.rqs q c }

/-- The completion queue `c` in force. -/
def State.cq (s : State) (c : Nat) : Option CqConf := SMap.get cqBlank s.cqs c
def State.setCq (s : State) (c : Nat) (x : Option CqConf) : State := { s with cqs := SMap.set cqBlank s.cqs c x }

/-! Operations in flight. -/

/-- The operation of an identifier. -/
def State.op (s : State) (id : Nat) : Option Operation := s.ops.find? (fun o => o.id == id)

/-- Change the operation of an identifier. -/
def State.updOp (s : State) (id : Nat) (f : Operation → Operation) : State :=
  { s with ops := s.ops.map (fun o => if o.id == id then f o else o) }

/-- The operations in flight that are descriptors of this unit (R288). -/
def State.descriptors (s : State) : Nat := (s.ops.filter (fun o => !o.standIn)).length

/-- An error report about an operation (R409). -/
def opErr (o : Operation) (code sev : Nat) : ErrRec :=
  { errOf code sev with userTag := o.desc.userTag, rq := o.rq, context := o.ctx, fetchIdx := o.fetchIdx }

end Sys2Proof.Machine
end

