-- ==== Sys2Proof/Machine/Route.lean ====
section
/-! DEFINITION. Sending a message over the chain: the direction it takes (R341), its place in a port's queue (R332),
and the messages a tier-3 access makes (R343). -/

namespace Sys2Proof.Machine

/-- Port `p`: 0 fore, 1 aft. -/
def State.port (s : State) (p : Nat) : Port := if p = 0 then s.chn.fore else s.chn.aft

/-- Change port `p`. -/
def State.updPort (s : State) (p : Nat) (f : Port → Port) : State :=
  if p = 0 then { s with chn := { s.chn with fore := f s.chn.fore } }
  else { s with chn := { s.chn with aft := f s.chn.aft } }

/-- Whether a port is UP (R328). -/
def portUp (s : State) (p : Nat) : Bool := s.rd (Reg.CHN_P_STATUS_STATE p) == 2

/-- The direction of a room before the state of the links is looked at (R341). -/
def routeFirst (s : State) (room : Nat) : Nat :=
  let own := s.rd Reg.CHN_STATUS_ROOM
  let n := s.rd Reg.CHN_STATUS_COUNT
  if s.flag Reg.CHN_STATUS_RING && n != 0 then
    (if (own + n - room % n) % n < (room + n - own % n) % n then 0 else 1)
  else if room < own then 0 else 1

/-- The port a message for a room leaves on; none where the room cannot be reached. -/
def routePort (s : State) (room : Nat) : Option Nat :=
  let p := routeFirst s room
  if portUp s p then some p
  else if portUp s (1 - p) then some (1 - p)
  else none

/-- Queue a message at a port. -/
def enqueue (s : State) (p : Nat) (m : ChainMsg) : State := s.updPort p (fun x => { x with queue := x.queue ++ [m] })

/-- Queue a message towards its destination; one that cannot leave is lost, its sender learns it as a route failure. -/
def sendMsg (s : State) (m : ChainMsg) : State :=
  match routePort s m.dst with
  | some p => enqueue s p m
  | none => s

/-- A message of this unit. -/
def msgTo (s : State) (type vc dst addr : Nat) (payload : List Byte) : ChainMsg :=
  { msgType := type, vc := vc, src := s.rd Reg.CHN_STATUS_ROOM, dst := dst, addr := addr, payload := payload }

/-- The lines of a tier-3 write: 64 bytes and an 8-byte mask for each (log entry 20). -/
def t3Lines (addr : Nat) (bs : List Byte) : List Byte :=
  ((List.range ((addr + bs.length + 63) / 64 - addr / 64)).map (fun i =>
    let base := (addr / 64 + i) * 64
    (List.range 64).map (fun j => if addr ≤ base + j then bs.getD (base + j - addr) 0 else 0) ++
    leBytes 8 (((List.range 64).filter (fun j => decide (addr ≤ base + j) && decide (base + j < addr + bs.length))).foldl
      (fun m j => m + 2 ^ j) 0))).flatten

/-- Write bytes of a peer's page (R343). -/
def t3Write (s : State) (room addr : Nat) (bs : List Byte) : State :=
  sendMsg s (msgTo s 0x11 1 room (addr / 64 * 64) (t3Lines addr bs))

end Sys2Proof.Machine
end

