-- ==== Sys2Proof/Machine/Translate.lean ====
section
/-! DEFINITION. DRAM regions and granule ownership (R226 to R229), the page walk (R221 to R225), cached walks (R230,
R232), and writes of DRAM as other agents see them: held bytes, the migration mark, watches made dirty (R237, R262,
R265). -/

namespace Sys2Proof.Machine

/-! Granules. -/

/-- SLOT_SIZE in granules of 2 MiB (R61): 3 is treated as 2. -/
def slotGranules (code : Nat) : Nat := if code = 0 then 128 else if code = 1 then 256 else 512

/-- Granules that contexts may own, from the two region sizes (R226). -/
def granAvailOf (slotCode setrecGib : Nat) : Nat :=
  131072 - 8 * slotGranules slotCode - setrecGib * 512 - 128 - 8 - 8

/-- MEM_GRAN_AVAIL's value once Keeper is ready. -/
def granAvail (s : State) : Nat := granAvailOf (s.rd Reg.ITN_CFG_SLOT_SIZE) (s.rd Reg.MEM_CFG_SETREC_GIB)

/-- The first byte of itinerary slot `k` (R61). -/
def slotBase (s : State) (k : Nat) : Nat :=
  dramSize - (8 - k) * (slotGranules (s.rd Reg.ITN_CFG_SLOT_SIZE) * 2 ^ 21)

/-- What a granule is that nothing has granted. -/
def granBlank : Nat → GranSt := fun _ => .free

/-- The state of a granule. -/
def State.granule (s : State) (g : Nat) : GranSt := SMap.get granBlank s.gran g

/-- Whether a context owns the granule of a physical address. -/
def owns (s : State) (ctx pa : Nat) : Bool := decide (pa < dramSize) && s.granule (pa / 2 ^ 21) == .owned ctx

/-- Whether a context owns every granule of a range. -/
def ownsRange (s : State) (ctx pa n : Nat) : Bool :=
  n == 0 || (List.range ((pa + n - 1) / 2 ^ 21 + 1 - pa / 2 ^ 21)).all
    (fun i => owns s ctx ((pa / 2 ^ 21 + i) * 2 ^ 21))

/-- The state of a context (SEC_CTXc.STATE). -/
def ctxState (s : State) (c : Nat) : Nat := s.rd (Reg.SEC_CTX_STATE c)

/-- OPEN or READY (R377). -/
def registered (s : State) (c : Nat) : Bool := ctxState s c == 1 || ctxState s c == 2

/-- What a context that is not configured holds. -/
def ctxBlank : Nat → Option CtxRec := fun _ => none

/-- A context's record. -/
def State.ctxRec (s : State) (c : Nat) : Option CtxRec := SMap.get ctxBlank s.ctxs c

/-- Whether a context runs or is pending on partition `p`. -/
def Part.has (x : Part) (c : Nat) : Bool := (x.busy && x.ctx == c) || x.pendCtx == some c || x.incoming == some c

/-- Whether a context runs or is pending on a partition. -/
def runningOrPending (s : State) (c : Nat) : Bool := s.part0.has c || s.part1.has c

/-! The walk. -/

/-- The answer of a translation: a leaf, or the code of a refusal. -/
inductive Xlt where
  | ok (l : Leaf)
  | no (code : Nat)
  deriving DecidableEq, Repr

/-- The fields of a page-table entry (R223). -/
def pteP (e : Nat) : Bool := bitOf e 0
def pteW (e : Nat) : Bool := bitOf e 1
def pteTier (e : Nat) : Nat := bitsOf e 2 2
def pteSize (e : Nat) : Nat := bitsOf e 4 2
def pteNomig (e : Nat) : Bool := bitOf e 7
def pteAddr (e : Nat) : Nat := bitsOf e 12 45 * 4096
def pteRoom (e : Nat) : Nat := bitsOf e 57 7

/-- Whether bits [63:52] of an entry's address are not all 0 (R221; log entry 106). -/
def pteFar (e : Nat) : Bool := decide (2 ^ 52 ≤ pteAddr e)

/-- Whether bits 6 and 11 to 8, reserved in every entry, are 0. -/
def pteReserved (e : Nat) : Bool := !bitOf e 6 && bitsOf e 8 4 == 0

/-- What R224 and R225 refuse in a pointer, but for SIZE. -/
def pointerBad (e : Nat) : Bool :=
  !pteReserved e || pteW e || pteNomig e || pteTier e != 0 || pteRoom e != 0 || decide (dramSize ≤ pteAddr e)

/-- What R224, R225 and R342 refuse in a leaf of a page size, but for SIZE and the tier-1 set. -/
def leafBad (e size : Nat) : Bool :=
  !pteReserved e || pteAddr e % size != 0 ||
  (if pteTier e = 3 then decide (pteRoom e < 1) || decide (64 < pteRoom e) || size == 4096
   else pteRoom e != 0) ||
  (pteTier e == 0 && decide (dramSize ≤ pteAddr e)) ||
  (pteTier e == 1 && (pteW e || decide (2 ^ 46 ≤ pteAddr e))) ||
  (pteTier e == 3 && decide (2 ^ 35 ≤ pteAddr e))

/-- What an expander's set record holds where nothing is installed. -/
def setBlank : Nat → SetRec := fun _ => {}

/-- An installed set. -/
def State.set (s : State) (n : Nat) : SetRec := SMap.get setBlank s.exp.sets n

/-- The tier-1 check of R225: the set is READY and the page lies within DATA_BYTES. -/
def tier1Ok (s : State) (addr size : Nat) : Bool :=
  (s.set (addr / 2 ^ 40)).state == 3 && decide (addr % 2 ^ 40 + size ≤ (s.set (addr / 2 ^ 40)).dataBytes)

/-- The end of a walk: a leaf entry. Its tests run in the order present, range, format, tier, owner, write permission. -/
def walkLeaf (s : State) (ctx va entPa e size : Nat) (w : Bool) : Xlt :=
  if !pteP e then .no Code.XLT_E_NOT_PRESENT
  else if pteFar e then .no Code.XLT_E_RANGE
  else if leafBad e size then .no Code.XLT_E_FORMAT
  else if pteTier e == 1 && !tier1Ok s (pteAddr e) size then .no Code.XLT_E_TIER1
  else if pteTier e == 0 && !owns s ctx (pteAddr e) then .no Code.XLT_E_OWNER
  else if w && !pteW e then .no Code.XLT_E_WRITE
  else .ok { va := va / size * size, size := size, tier := pteTier e, addr := pteAddr e, room := pteRoom e,
             w := pteW e, nomig := pteNomig e, entPa := entPa, raw := e }

/-- A page-table entry. -/
def readPte (s : State) (pa : Nat) : Nat := s.mnat pa 8

/-- Levels 3 of a walk: the table at `t`, of the 64 KiB or the 4 KiB kind. -/
def walk3 (s : State) (ctx va t : Nat) (big w : Bool) : Xlt :=
  let pa := if big then t + 8 * bitsOf va 16 5 else t + 8 * bitsOf va 12 9
  let e := readPte s pa
  if pteP e && !pteFar e && pteSize e != 0 then .no Code.XLT_E_FORMAT
  else walkLeaf s ctx va pa e (if big then 65536 else 4096) w

/-- Level 2: a 2 MiB leaf or a pointer to a table of either kind. -/
def walk2 (s : State) (ctx va t : Nat) (w : Bool) : Xlt :=
  let pa := t + 8 * bitsOf va 21 9
  let e := readPte s pa
  if !pteP e then .no Code.XLT_E_NOT_PRESENT
  else if pteFar e then .no Code.XLT_E_RANGE
  else if pteSize e = 3 then .no Code.XLT_E_FORMAT
  else if pteSize e = 2 then walkLeaf s ctx va pa e (2 ^ 21) w
  else if pointerBad e then .no Code.XLT_E_FORMAT
  else if !owns s ctx (pteAddr e) then .no Code.XLT_E_OWNER
  else walk3 s ctx va (pteAddr e) (pteSize e == 1) w

/-- Level 0 or 1: a pointer only; `k` goes on with the table it names. -/
def walkPointer (s : State) (ctx pa : Nat) (k : Nat → Xlt) : Xlt :=
  let e := readPte s pa
  if !pteP e then .no Code.XLT_E_NOT_PRESENT
  else if pteFar e then .no Code.XLT_E_RANGE
  else if pteSize e != 0 || pointerBad e then .no Code.XLT_E_FORMAT
  else if !owns s ctx (pteAddr e) then .no Code.XLT_E_OWNER
  else k (pteAddr e)

/-- The walk of a virtual address of a context, for a read or a write (R222). The level-0 table is checked against the
owner table as a pointer is (R229). -/
def walk (s : State) (ctx va : Nat) (w : Bool) : Xlt :=
  if 2 ^ 52 ≤ va then .no Code.XLT_E_RANGE
  else
    match s.ctxRec ctx with
    | none => .no Code.XLT_E_NOT_PRESENT
    | some r =>
      if !owns s ctx r.rootPa then .no Code.XLT_E_OWNER
      else walkPointer s ctx (r.rootPa + 8 * bitsOf va 39 13) (fun t1 =>
        walkPointer s ctx (t1 + 8 * bitsOf va 30 9) (fun t2 => walk2 s ctx va t2 w))

/-- The leaf-table entry of a 64 KiB page of a sequence range: its physical address, or the code that R150 gives a walk
that does not reach a table of the 64 KiB kind. -/
def rangeEntry (s : State) (ctx va : Nat) : Nat ⊕ Nat :=
  match s.ctxRec ctx with
  | none => .inr Code.XLT_E_NOT_PRESENT
  | some r =>
    if 2 ^ 52 ≤ va then .inr Code.XLT_E_RANGE
    else if !owns s ctx r.rootPa then .inr Code.XLT_E_OWNER
    else
      let step (pa : Nat) (k : Nat → Nat ⊕ Nat) : Nat ⊕ Nat :=
        let e := readPte s pa
        if !pteP e then .inr Code.XLT_E_NOT_PRESENT
        else if pteFar e then .inr Code.XLT_E_RANGE
        else if pteSize e != 0 || pointerBad e then .inr Code.XLT_E_FORMAT
        else if !owns s ctx (pteAddr e) then .inr Code.XLT_E_OWNER
        else k (pteAddr e)
      step (r.rootPa + 8 * bitsOf va 39 13) (fun t1 => step (t1 + 8 * bitsOf va 30 9) (fun t2 =>
        let e := readPte s (t2 + 8 * bitsOf va 21 9)
        if !pteP e then .inr Code.XLT_E_NOT_PRESENT
        else if pteFar e then .inr Code.XLT_E_RANGE
        else if pteSize e != 1 || pointerBad e then .inr Code.XLT_E_FORMAT
        else if !owns s ctx (pteAddr e) then .inr Code.XLT_E_OWNER
        else .inl (pteAddr e + 8 * bitsOf va 16 5)))

/-- Count a walk, and a refusal where it is one. -/
def countWalk (s : State) (x : Xlt) : State :=
  let s := s.inc Reg.XLT_WALKS
  match x with
  | .ok _ => s
  | .no _ => s.inc Reg.XLT_FAULTS

/-- Whether a leaf's page holds a virtual address. -/
def Leaf.covers (l : Leaf) (va : Nat) : Bool := decide (l.va ≤ va) && decide (va < l.va + l.size)

/-- A translation outside the timetable (R232): by a cached walk or a new one. Where a cached walk exists, the spec lets
the access use either until an invalidation (R230), so a free value chooses. -/
def access (s : State) (ctx va : Nat) (w : Bool) : Xlt × State :=
  match s.walks.find? (fun c => c.ctx == ctx && c.leaf.covers va) with
  | some c =>
    let b := s.freshBool
    if b.1 then
      (if w && !c.leaf.w then (.no Code.XLT_E_WRITE, b.2.inc Reg.XLT_FAULTS) else (.ok c.leaf, b.2))
    else (walk s ctx va w, countWalk b.2 (walk s ctx va w))
  | none =>
    match walk s ctx va w with
    | .ok l => (.ok l, { countWalk s (.ok l) with walks := s.walks ++ [⟨ctx, l⟩] })
    | .no c => (.no c, countWalk s (.no c))

/-- Drop a context's cached walks (R230). -/
def dropWalks (s : State) (ctx : Nat) : State := { s with walks := s.walks.filter (fun c => c.ctx != ctx) }

/-! Pins. -/

/-- Whether a pin entry of the part names a page that overlaps a physical range of tier 0. -/
def Pin.inRange (q : Pin) (pa n : Nat) : Bool :=
  q.leaf.tier == 0 && decide (q.leaf.addr < pa + n) && decide (pa < q.leaf.addr + q.leaf.size)

/-- Whether a context's page is pinned. -/
def pinned (s : State) (ctx va : Nat) : Bool :=
  (s.part0.pins ++ s.part1.pins).any (fun q => q.ctx == ctx && q.leaf.covers va)

/-! Writes of DRAM by agents other than an issuing booking. -/

/-- Whether byte `x` is one of the bytes that a mask names from an address on. -/
def maskHas (a : Nat) (mask : List Bool) (x : Nat) : Bool := decide (a ≤ x) && mask.getD (x - a) false

/-- Whether a watch's bytes meet the bytes of a write. -/
def Watch.hit (w : Watch) (a : Nat) (mask : List Bool) : Bool :=
  (List.range 64).any (fun i => w.mask.getD i false && maskHas a mask (w.addr + i))

/-- Mark the watches dirty that a write of another agent meets (R262); `owner` is the agent's own watch owner, 0 for
none. -/
def dirtyWatches (s : State) (owner a : Nat) (mask : List Bool) : State :=
  let f (w : Watch) : Watch := if w.owner != owner && w.hit a mask then { w with dirty := true } else w
  { s with
    part0 := { s.part0 with watches := s.part0.watches.map f },
    part1 := { s.part1 with watches := s.part1.watches.map f },
    keeperWatches := s.keeperWatches.map f }

/-- The lines of a watch table: a line counts once (R262). -/
def watchLines (l : List Watch) : Nat := ((l.map (·.addr)).eraseDups).length

/-- Whether a write meets the bytes a fall-back holds (R265). -/
def heldAt (s : State) (a : Nat) (mask : List Bool) : Bool :=
  s.holdRanges.any (fun r => (List.range r.2).any (fun i => maskHas a mask (r.1 + i)))

/-- Whether an address of a tier lies in the page that carries the migration mark (R237), and that page's base. A page of
tier 3 is one of a room. -/
def markedAt (s : State) (tier room a : Nat) : Option Nat :=
  match s.mig with
  | some m =>
    (match m.page with
     | some l => if l.tier = tier ∧ l.room = room ∧ l.addr ≤ a ∧ a < l.addr + l.size then some l.addr else none
     | none => none)
  | none => none

/-- Put a write aside. -/
def State.holdWrite (s : State) (w : HeldWrite) : State := { s with heldWrites := s.heldWrites ++ [w] }

/-- A mask that names every byte. -/
def fullMask (bs : List Byte) : List Bool := bs.map (fun _ => true)

/-- A write of DRAM by an agent, inside one page: held where it must be, else applied, and the watches it meets become
dirty. -/
def agentPut (s : State) (src a : Nat) (bs : List Byte) (mask : List Bool) : State :=
  match markedAt s 0 0 a with
  | some base => s.holdWrite { page := true, addr := a - base, bytes := bs, mask := mask, src := src }
  | none =>
    if heldAt s a mask then s.holdWrite { addr := a, bytes := bs, mask := mask, src := src }
    else dirtyWatches { s with dram := dramWriteMask s.dram a bs mask } 0 a mask

/-- A write of DRAM by Keeper. -/
def agentWrite (s : State) (a : Nat) (bs : List Byte) : State := agentPut s 0 a bs (fullMask bs)

/-- A write of a tier-2 page: held while the page carries the migration mark. -/
def agentHostWrite (s : State) (src a : Nat) (bs : List Byte) : State :=
  match markedAt s 2 0 a with
  | some base => s.holdWrite { page := true, addr := a - base, bytes := bs, mask := fullMask bs, src := src }
  | none => s.hostWrite a bs true

/-- A write of a tier-3 page: held while the page carries the migration mark. -/
def agentPeerWrite (s : State) (src room a : Nat) (bs : List Byte) : State :=
  match markedAt s 3 room a with
  | some base => s.holdWrite { page := true, addr := a - base, bytes := bs, mask := fullMask bs, src := src }
  | none => t3Write s room a bs

/-- The bytes that a mask names, one by one, with their addresses. -/
def maskedBytes (a : Nat) (bs : List Byte) (mask : List Bool) : List (Nat × List Byte) :=
  if mask.all id then [(a, bs)]
  else ((List.range bs.length).filter (fun i => mask.getD i false)).map (fun i => (a + i, [bs.getD i 0]))

/-- Whether a held write must stay: its bytes are held, its page is marked, or another line of its booking stays. -/
def heldStays (s : State) (w : HeldWrite) : Bool :=
  let blocked (v : HeldWrite) : Bool := v.page || heldAt s v.addr v.mask
  blocked w || (w.grp != 0 && s.heldWrites.any (fun v => v.grp == w.grp && blocked v))

/-- Apply the writes a fall-back held, in arrival order (R265); those still held stay. -/
def releaseHeld (s : State) : State :=
  s.heldWrites.foldl (fun t w =>
    if heldStays s w then t.holdWrite w
    else dirtyWatches { t with dram := dramWriteMask t.dram w.addr w.bytes w.mask } 0 w.addr w.mask)
    { s with heldWrites := [] }

/-- Apply the writes held for the marked page at a tier's address (R237), once the mark is clear; lines that waited with
them follow. -/
def releasePage (s : State) (tier room base : Nat) : State :=
  releaseHeld (s.heldWrites.foldl (fun t w =>
    if !w.page then t.holdWrite w
    else if tier = 0 then agentPut t w.src (base + w.addr) w.bytes w.mask
    else if tier = 2 then (maskedBytes (base + w.addr) w.bytes w.mask).foldl (fun u q => u.hostWrite q.1 q.2 true) t
    else (maskedBytes (base + w.addr) w.bytes w.mask).foldl (fun u q => t3Write u room q.1 q.2) t)
    { s with heldWrites := [] })

/-- Bytes read at an address as their own writer sees them: its held writes apply (R257). -/
def ownView (s : State) (src a : Nat) (bs : List Byte) : List Byte :=
  (s.heldWrites.filter (fun w => w.src == src && !w.page)).foldl (fun l w =>
    (List.range l.length).map (fun i =>
      if maskHas w.addr w.mask (a + i) then w.bytes.getD (a + i - w.addr) 0 else l.getD i 0)) bs

/-- Bytes read at an offset of the marked page as their own writer sees them (R257). -/
def ownPage (s : State) (src off : Nat) (bs : List Byte) : List Byte :=
  (s.heldWrites.filter (fun w => w.src == src && w.page)).foldl (fun l w =>
    (List.range l.length).map (fun i =>
      if maskHas w.addr w.mask (off + i) then w.bytes.getD (off + i - w.addr) 0 else l.getD i 0)) bs

/-! Virtual reads and writes of tier 0, for Keeper and the prologue. -/

/-- The physical address of a tier-0 virtual address; none where the walk refuses or the page is of another tier. -/
def pa0 (s : State) (ctx va : Nat) (w : Bool) : Option Nat :=
  match walk s ctx va w with
  | .ok l => if l.tier = 0 then some (l.addr + (va - l.va)) else none
  | .no _ => none

/-- Read bytes of one page. -/
def vread (s : State) (ctx va n : Nat) : List Byte :=
  match pa0 s ctx va false with
  | some a => s.mread a n
  | none => List.replicate n 0

end Sys2Proof.Machine
end

