-- ==== Sys2Proof/Machine/Booking.lean ====
section
/-! DEFINITION. Bookings (R261 to R267): their lines, what makes one commit or abort, its effect, and the bookings that
Keeper issues. -/

namespace Sys2Proof.Machine

/-- One line of a booking over the bytes `bs` at `pa`: the line `i` from the first. -/
def lineAt (check : Bool) (pa : Nat) (bs : List Byte) (i : Nat) : BookLine :=
  let base := (pa / 64 + i) * 64
  { check := check, addr := base
    bytes := (List.range 64).map (fun j => if pa ≤ base + j then bs.getD (base + j - pa) 0 else 0)
    mask := (List.range 64).map (fun j => decide (pa ≤ base + j) && decide (base + j < pa + bs.length)) }

/-- The lines that cover the bytes `bs` at a physical address of tier 0. -/
def linesOf (check : Bool) (pa : Nat) (bs : List Byte) : List BookLine :=
  if bs.isEmpty then []
  else (List.range ((pa + bs.length - 1) / 64 + 1 - pa / 64)).map (lineAt check pa bs)

/-- Write lines for bytes at an address. -/
def writeLines (pa : Nat) (bs : List Byte) : List BookLine := linesOf false pa bs

/-- Check lines for bytes at an address. -/
def checkLines (pa : Nat) (bs : List Byte) : List BookLine := linesOf true pa bs

/-- The lines a booking holds: its own, a line address counting once of each kind, and those of the reference counts, 16
to a line (R152, R261). -/
def bookSize (lines : List BookLine) (refs : List (Nat × Nat)) : Nat :=
  ((lines.map (fun l => (l.check, l.addr))).eraseDups).length + ((refs.map (fun r => r.1 / 16)).eraseDups).length

/-- Whether a check line matches. -/
def checkOk (s : State) (l : BookLine) : Bool :=
  (List.range 64).all (fun j =>
    !(l.mask.getD j false) || SMap.get dramBlank s.dram (l.addr + j) == l.bytes.getD j 0)

/-- Whether every check line of a booking matches. -/
def checksOk (s : State) (lines : List BookLine) : Bool := lines.all (fun l => !l.check || checkOk s l)

/-- Whether a watch meets the bytes of a line. -/
def Watch.meets (w : Watch) (l : BookLine) : Bool := w.hit l.addr l.mask

/-- Whether a write line cannot become visible now: its bytes are held, or its page carries the migration mark. -/
def lineHeld (s : State) (l : BookLine) : Bool :=
  !l.check && (heldAt s l.addr l.mask || (markedAt s 0 0 l.addr).isSome)

/-- Make one write line of a committed booking visible. -/
def applyLine (s : State) (owner : Nat) (l : BookLine) : State :=
  if l.check then s
  else dirtyWatches { s with dram := dramWriteMask s.dram l.addr l.bytes l.mask } owner l.addr l.mask

/-- Put a write line of a committed booking aside with the booking's other lines. -/
def holdLine (s : State) (grp : Nat) (l : BookLine) : State :=
  if l.check then s
  else match markedAt s 0 0 l.addr with
    | some base => s.holdWrite { page := true, addr := l.addr - base, bytes := l.bytes, mask := l.mask, grp := grp }
    | none => s.holdWrite { addr := l.addr, bytes := l.bytes, mask := l.mask, grp := grp }

/-- What the reference count of a frame is that no booking has set. -/
def refBlank : Nat → Nat := fun _ => 0

/-- The reference-count word of a frame (R152): bits [15:0] the count, [27:16] the owner. -/
def State.refWord (s : State) (frame : Nat) : Nat := SMap.get refBlank s.refs frame

/-- The reference count of a frame. -/
def State.refCount (s : State) (frame : Nat) : Nat := s.refWord frame % 65536

/-- The context that owns a frame's count. -/
def State.refOwner (s : State) (frame : Nat) : Nat := s.refWord frame / 65536 % 4096

/-- A reference-count word. A count of 0 has no owner. -/
def refMake (ctx n : Nat) : Nat := if n = 0 then 0 else n % 65536 + 65536 * (ctx % 4096)

/-- Set reference counts. -/
def setRefs (s : State) (refs : List (Nat × Nat)) : State :=
  { s with refs := refs.foldl (fun m r => SMap.set refBlank m r.1 r.2) s.refs }

/-- Make a booking visible: every write line and every count at once (R263). Where a fall-back or the migration mark holds
a byte of one line, all its lines wait and become visible together (R237, R265). -/
def commitLines (s : State) (owner : Nat) (lines : List BookLine) (refs : List (Nat × Nat)) : State :=
  let s := if lines.any (lineHeld s) then
      lines.foldl (fun t l => holdLine t s.nextBooking l) { s with nextBooking := s.nextBooking + 1 }
    else lines.foldl (fun t l => applyLine t owner l) s
  (setRefs s refs).inc Reg.MEM_BKG_COMMITS

/-- An abort for a refusal under R261, a translation fault or an uncorrectable line (R263). -/
def bookFault (s : State) : State := s.inc Reg.MEM_BKG_AB_FAULT

/-- A booking that Keeper issues and the memory hub settles in one M-cycle: refused above 64 lines (R261), else it commits
unless a check line differs (R263). The answer is the code: 0 where it committed, 1 where a check line differed. -/
def keeperBook (s : State) (lines : List BookLine) (refs : List (Nat × Nat)) : Nat × State :=
  if 64 < bookSize lines refs then (Code.MEM_E_BOOK_SIZE, bookFault s)
  else if checksOk s lines then (0, commitLines s 0 lines refs)
  else (1, s.inc Reg.MEM_BKG_AB_CHECK)

/-- A booking of Keeper's without check lines. -/
def keeperWrite (s : State) (lines : List BookLine) (refs : List (Nat × Nat)) : State := (keeperBook s lines refs).2

end Sys2Proof.Machine
end

