-- ==== Sys2Proof/Machine/Syn.lean ====
section
/-! DEFINITION. Sync cells and wait slots (R296, R297, R301). -/

namespace Sys2Proof.Machine

/-- Whether an armed slot's cell meets its value. -/
def slotMet (s : State) (w : Nat) : Bool :=
  s.flag (Reg.SYN_W_CTRL_ARMED w) &&
    decide (s.rd (Reg.SYN_W_VALUE w) ≤ s.rd (Reg.SYN_CELL (s.rd (Reg.SYN_W_CTRL_CELL w))))

/-- A slot fires: FIRED set, ARMED cleared, its vector sent (R297). -/
def fireSlot (s : State) (w : Nat) : State :=
  ((s.wr (Reg.SYN_W_CTRL_FIRED w) 1).wr (Reg.SYN_W_CTRL_ARMED w) 0).msix (s.rd (Reg.SYN_W_CTRL_VECTOR w))

/-- Compare a slot, firing it where its cell meets its value. -/
def checkSlot (w : Nat) (s : State) : State := if slotMet s w then fireSlot s w else s

/-- Compare every slot. -/
def checkSlots (s : State) : State := iter 256 checkSlot s

/-- Store a cell's value. -/
def synSet (s : State) (c v : Nat) : State := checkSlots (s.wr (Reg.SYN_CELL c) v)

/-- Add to a cell; an add saturates at 2^64 − 1. -/
def synAdd (s : State) (c v : Nat) : State := checkSlots (s.addSat (Reg.SYN_CELL c) v)

/-- SYN_CELL_SET (R296): a commit of the cell's pair (R16). -/
def execSynCellSet (c value : Nat) (s : State) : Answer :=
  .next (s.host (Reg.SYN_CELL c).off (fun s => synSet (s.clearHold (Reg.SYN_CELL c).off) c value))

/-- SYN_ADD (R296): a commit of its pair (R16). -/
def execSynAdd (c value : Nat) (s : State) : Answer :=
  .next (s.host (Reg.SYN_ADD c).off (fun s => synAdd (s.clearHold (Reg.SYN_ADD c).off) c value))

/-- A write of SYN_Ww_CTRL: ARMED, VECTOR and CELL stored, FIRED cleared where the word has a 1 (R297). -/
def armWrite (s : State) (w word : Nat) : State :=
  let s := if bitOf word 30 then s.wr (Reg.SYN_W_CTRL_FIRED w) 0 else s
  let s := s.wrs [(Reg.SYN_W_CTRL_ARMED w, bitsOf word 31 1), (Reg.SYN_W_CTRL_VECTOR w, bitsOf word 16 11),
    (Reg.SYN_W_CTRL_CELL w, bitsOf word 0 15)]
  checkSlot w s

/-- WAIT_SLOT_ARM (R297). -/
def execWaitSlotArm (w word : Nat) (s : State) : Answer :=
  .next (s.host (Reg.SYN_W_CTRL_ARMED w).off (fun s => armWrite s w word))

end Sys2Proof.Machine
end

