-- ==== Sys2Proof/Machine/Tier1.lean ====
section
/-! DEFINITION. Where the Cellar stores a set's pages (R166, R207, R208) and what a tier-1 mapping reads (R176, R197). -/

namespace Sys2Proof.Machine

/-- The owner word of a logical number that no set holds. Data of set `n` is n + 1, metadata n + 65. -/
def allocBlank : Nat → Nat := fun _ => 0

/-- The owner word of logical number `l` of bank `b`. -/
def State.alloc (s : State) (b l : Nat) : Nat := SMap.get allocBlank s.cel.alloc (b * 120 + l)

/-- The logical numbers of a bank that hold a set's data, in ascending order. -/
def dataNumbers (s : State) (set b : Nat) : List Nat := (List.range 120).filter (fun l => s.alloc b l == set + 1)

/-- The stored byte of a page that nothing has programmed: a page of a set whose run is shorter is programmed with
zeros (R207). -/
def celBlank : Nat → Nat := fun _ => 0

/-- The key of a stored byte. -/
def celKey (plane l page byte : Nat) : Nat := ((plane * 120 + l) * 256 + page) * 16384 + byte

/-- The logical block and page of page `n` of a set's run on a plane (R208). -/
def runPage (s : State) (set plane n : Nat) : Option (Nat × Nat) :=
  match (dataNumbers s set (plane / 16))[n / 256]? with
  | some l => some (l, n % 256)
  | none => none

/-- Byte `byte` of page `n` of a set's run on a plane. -/
def runByte (s : State) (set plane n byte : Nat) : Nat :=
  match runPage s set plane n with
  | some q => SMap.get celBlank s.cel.data (celKey plane q.1 q.2 byte)
  | none => 0

/-- The plane and page of page `k` of DATA, whose runs lie one after the other. -/
def dataPage : List Nat → List Nat → Nat → Option (Nat × Nat)
  | p :: ps, n :: ns, k => if k < n then some (p, k) else dataPage ps ns (k - n)
  | _, _, _ => none

/-- A byte of a set's DATA. -/
def dataByte (s : State) (set off : Nat) : Byte :=
  match dataPage (s.set set).planes (s.set set).pages (off / 16384) with
  | some q => BitVec.ofNat 8 (runByte s set q.1 q.2 (off % 16384))
  | none => 0

/-- The stored bytes that a tier-1 address reads: bits [45:40] name the set, the rest the offset in its DATA (R225). -/
def tier1Bytes (s : State) (addr n : Nat) : List Byte :=
  (List.range n).map (fun i => dataByte s (addr / 2 ^ 40) (addr % 2 ^ 40 + i))

/-! Physical blocks (R163, R165, R166). -/

/-- A physical block as manufactured: 120 in use under their own number, the rest free. -/
def pblockBlank (k : Nat) : PBlock :=
  let i := k / 128 % 16
  let b := k % 128
  if 120 ≤ b then {} else { use := if i = 15 then 3 else if i = 0 ∧ 112 ≤ b then 2 else 1, logical := b }

/-- A physical block. -/
def State.pblock (s : State) (plane b : Nat) : PBlock := SMap.get pblockBlank s.cel.blocks (plane * 128 + b)

/-- Change a physical block. -/
def State.updBlock (s : State) (plane b : Nat) (f : PBlock → PBlock) : State :=
  { s with cel := { s.cel with blocks := SMap.modify pblockBlank s.cel.blocks (plane * 128 + b) f } }

/-- What the map holds where nothing has changed it. -/
def mapBlank : Nat → Nat := fun _ => 0

/-- The physical block of a logical block. -/
def State.physOf (s : State) (plane l : Nat) : Nat :=
  let v := SMap.get mapBlank s.cel.map (plane * 120 + l)
  if v = 0 then l else v - 1

/-- Point a logical block at a physical block. -/
def State.mapTo (s : State) (plane l b : Nat) : State :=
  { s with cel := { s.cel with map := SMap.set mapBlank s.cel.map (plane * 120 + l) (if b = l then 0 else b + 1) } }

/-- What a bank without an operation holds. -/
def bankBlank : Nat → Option BankOp := fun _ => none

/-- The operation of a bank. -/
def State.bankOp (s : State) (b : Nat) : Option BankOp := SMap.get bankBlank s.cel.bankOps b

/-- Set the operation of a bank. -/
def State.setBankOp (s : State) (b : Nat) (o : Option BankOp) : State :=
  { s with cel := { s.cel with bankOps := SMap.set bankBlank s.cel.bankOps b o } }

/-- Whether a bank is busy: a program or an erase runs in it, or an erase is being suspended (R172). -/
def State.bankBusy (s : State) (b : Nat) : Bool :=
  match s.bankOp b with
  | some o => !o.suspended
  | none => false

end Sys2Proof.Machine
end

