-- ==== Sys2Proof/Machine/Memory.lean ====
section
/-! DEFINITION. The memory hub's commands: grants and revokes (R226 to R228), the set-record region (R227), cached
walks (R230), the BAR4 window (R233), migration (R235 to R237), copy channels (R238 to R242) and the scrub engine
(R243). Accesses take effect in the order of the commands, which is one of the orders R257 and R259 allow; so do
events that meet (R255). -/

namespace Sys2Proof.Machine

/-! Granules. -/

/-- How many granules of a run satisfy a test; a free granule is never listed. -/
def granCount (s : State) (first count : Nat) (p : GranSt → Bool) : Nat :=
  SMap.count (fun k v => decide (first ≤ k) && decide (k < first + count) && p v) s.gran

/-- Put every granule of a run in a state. -/
def setGrans (s : State) (first count : Nat) (v : GranSt) : State :=
  { s with gran := (List.range count).foldl (fun m i => SMap.set granBlank m (first + i) v) s.gran }

/-- Granules that are owned. -/
def granOwned (v : GranSt) : Bool := match v with | .owned _ => true | _ => false
/-- Granules that await scrub. -/
def granScrub (v : GranSt) : Bool := match v with | .scrub _ => true | _ => false

/-- End a grant command: its code, the event, and the error record of a refusal. -/
def grantDone (s : State) (code : Nat) : State :=
  let s := s.wr Reg.MEM_GRANT_STATUS_CODE code
  let s := if code = 0 then s else s.rep code 0
  s.raiseMem Reg.MEM_IRQ_STATUS_GRANT_DONE

/-- What refuses a grant and a revoke alike (R228). -/
def grantBad (s : State) (ctx first count : Nat) : Bool :=
  count == 0 || decide (granAvail s < first + count) || !registered s ctx

/-- Whether a frame of a run has a reference count, a granule of it is exported, or a page pinned by the context lies in
it while the context runs or is pending. -/
def runPinned (s : State) (ctx first count : Nat) : Bool :=
  let inRun (g : Nat) : Bool := decide (first ≤ g) && decide (g < first + count)
  decide (SMap.count (fun f w => inRun (f / 32) && decide (w % 65536 ≠ 0)) s.refs ≠ 0) ||
  decide (SMap.count (fun _ e => e.valid && inRun e.granule) s.chn.exports ≠ 0) ||
  (runningOrPending s ctx &&
    (s.part0.pins ++ s.part1.pins).any (fun q => q.ctx == ctx && q.inRange (first * 2 ^ 21) (count * 2 ^ 21)))

/-- Discard the pin entries a context keeps for pages of a run. -/
def dropPins (s : State) (ctx first count : Nat) : State :=
  let f (q : Pin) : Bool := !(q.ctx == ctx && q.inRange (first * 2 ^ 21) (count * 2 ^ 21))
  { s with
    part0 := { s.part0 with pins := s.part0.pins.filter f },
    part1 := { s.part1 with pins := s.part1.pins.filter f } }

/-- The grant of the run in FIRST and COUNT (R228). -/
def grantOp (s : State) (ctx : Nat) : State :=
  let first := s.rd Reg.MEM_GRANT_FIRST_FIRST
  let count := s.rd Reg.MEM_GRANT_COUNT_COUNT
  if grantBad s ctx first count || decide (granCount s first count (fun _ => true) ≠ 0) then
    grantDone s Code.MEM_E_GRANULE
  else grantDone (setGrans s first count (.owned ctx)) 0

/-- The revoke of the run in FIRST and COUNT (R228). -/
def revokeOp (s : State) (ctx : Nat) : State :=
  let first := s.rd Reg.MEM_GRANT_FIRST_FIRST
  let count := s.rd Reg.MEM_GRANT_COUNT_COUNT
  if grantBad s ctx first count || decide (granCount s first count (fun v => v == .owned ctx) ≠ count) then
    grantDone s Code.MEM_E_GRANULE
  else if runPinned s ctx first count then grantDone s Code.MEM_E_PINNED
  else
    let s := if runningOrPending s ctx then s else dropPins s ctx first count
    grantDone (setGrans s first count (.scrub none)) 0

/-- The owner of granule FIRST (R228). -/
def grantQuery (s : State) : State :=
  match s.granule (s.rd Reg.MEM_GRANT_FIRST_FIRST) with
  | .owned c => grantDone (s.wrs [(Reg.MEM_GRANT_STATUS_OWNED, 1), (Reg.MEM_GRANT_STATUS_OWNER, c)]) 0
  | _ => grantDone (s.wrs [(Reg.MEM_GRANT_STATUS_OWNED, 0), (Reg.MEM_GRANT_STATUS_OWNER, 0)]) 0

/-- A GO of MEM_GRANT_CMD: its word's OP and CONTEXT are stored, then Keeper performs it. -/
def grantCmd (s : State) (op ctx : Nat) : State :=
  let s := s.wrs [(Reg.MEM_GRANT_CMD_OP, op), (Reg.MEM_GRANT_CMD_CONTEXT, ctx)]
  s.keeper Reg.MEM_GRANT_STATUS_CODE (fun s =>
    if op = 0 then grantOp s ctx
    else if op = 1 then revokeOp s ctx
    else if op = 2 then grantQuery s
    else grantDone s Code.MEM_E_GRANULE)

def grantOff : Nat := Reg.MEM_GRANT_CMD_OP.off

/-- GRANT (R228). -/
def execGrant (ctx : Nat) (s : State) : Answer := .next (s.host grantOff (fun s => grantCmd s 0 ctx))
/-- REVOKE (R228). -/
def execRevoke (ctx : Nat) (s : State) : Answer := .next (s.host grantOff (fun s => grantCmd s 1 ctx))
/-- GRANT_QUERY (R228). -/
def execGrantQuery (ctx : Nat) (s : State) : Answer := .next (s.host grantOff (fun s => grantCmd s 2 ctx))
/-- GRANT_OP_REFUSED (R228). -/
def execGrantOpRefused (ctx : Nat) (s : State) : Answer := .next (s.host grantOff (fun s => grantCmd s 3 ctx))

/-! The set-record region. -/

/-- Bytes of the index copies of the installed sets (R196, R197). -/
def indexBytes (s : State) : Nat :=
  s.exp.sets.foldl (fun n e => if e.2.state = 0 then n else n + 8 * e.2.blocks) 0

/-- The set-record region without its staging area (R213), in bytes. -/
def indexRoom (gib : Nat) : Nat := gib * 2 ^ 30 - 2 ^ 27

/-- Whether a granule that is owned or awaits scrub lies at or above a bound. -/
def usedAbove (s : State) (avail : Nat) : Bool :=
  decide (SMap.count (fun k _ => decide (avail ≤ k)) s.gran ≠ 0)

/-- A write of SETREC_GIB (R227). -/
def setrecWrite (s : State) (v : Nat) : State :=
  let gib := if v % 8 = 0 then 1 else minNat (v % 8) 6
  if usedAbove s (granAvailOf (s.rd Reg.ITN_CFG_SLOT_SIZE) gib) then
    (s.wr Reg.MEM_GRANT_STATUS_CODE Code.MEM_E_GRANULE).rep Code.MEM_E_GRANULE 0
  else if s.exp.inst.isSome || s.exp.removing.isSome || decide (indexRoom gib < indexBytes s) then
    (s.wr Reg.MEM_GRANT_STATUS_CODE Code.MEM_E_REGION).rep Code.MEM_E_REGION 0
  else s.wr Reg.MEM_CFG_SETREC_GIB gib

/-- SETREC_WRITE (R227). -/
def execSetrecWrite (gib : Nat) (s : State) : Answer :=
  .next (s.host Reg.MEM_CFG_SETREC_GIB.off (fun s => setrecWrite s gib))

/-! Cached walks. -/

/-- XLT_INVALIDATE (R230): the invalidation is complete when the command ends, so BUSY reads 0 after it. -/
def execXltInvalidate (ctx : Nat) (s : State) : Answer :=
  .next (s.host Reg.XLT_INV_CMD_CONTEXT.off (fun s => dropWalks (s.wr Reg.XLT_INV_CMD_CONTEXT ctx) ctx))

/-! Access errors by tier. -/

/-- The code of an access error of a tier (R233, R234): an uncorrectable line, a Cellar page, host memory, a peer. -/
def tierError (tier : Nat) : Nat :=
  if tier = 0 then Code.XLT_E_UNCORR
  else if tier = 1 then Code.CEL_E_UNCORR
  else if tier = 2 then Code.XLT_E_TIER2
  else Code.XLT_E_TIER3

/-- Count a failed access of tier 0: an uncorrectable line (R234). -/
def countUncorr (s : State) (tier : Nat) : State := if tier = 0 then s.inc Reg.MEM_DRAM_UNCORR else s

/-- Count the lines of an access that ECC corrected and wrote back (R234). -/
def countCorr (s : State) (n : Nat) : State := s.add Reg.MEM_DRAM_CORR n

/-! BAR4. -/

/-- Record a refusal of a BAR4 access. -/
def bar4Refuse (s : State) (code : Nat) : State :=
  s.wrs [(Reg.XLT_BAR4_STATUS_FAULT, 1), (Reg.XLT_BAR4_STATUS_CODE, code)]

/-- The virtual address of a BAR4 offset: the window's size is the one the host gave BAR4 (R283). -/
def bar4Va (s : State) (off : Nat) : Nat :=
  let win := 2 ^ s.chip.pci.bar4Log2
  s.rd Reg.XLT_BAR4_BASE / win * win + off % win

/-- Bytes of a leaf's page from tier 0 or 1, or what the outside delivered for tiers 2 and 3. -/
def leafRead (s : State) (l : Leaf) (off n : Nat) (ext : List Byte) : List Byte :=
  if l.tier = 0 then s.mread (l.addr + off) n
  else if l.tier = 1 then tier1Bytes s (l.addr + off) n
  else ext.take n

/-- Write bytes to a leaf's page for an agent (HeldWrite.src). -/
def leafWrite (s : State) (src : Nat) (l : Leaf) (off : Nat) (bs : List Byte) : State :=
  if l.tier = 0 then agentPut s src (l.addr + off) bs (fullMask bs)
  else if l.tier = 2 then agentHostWrite s src (l.addr + off) bs
  else agentPeerWrite s src l.room (l.addr + off) bs

/-- A BAR4 read of `n` bytes: what it returns is the answer. -/
def bar4Read (s : State) (off n : Nat) (ext : List Byte) (fail : Bool) : State :=
  let zeros : List Nat := List.replicate n 0
  if !s.flag Reg.XLT_BAR4_CTRL_ENABLE then { s with resp := zeros }
  else
    let va := bar4Va s off
    match access s (s.rd Reg.XLT_BAR4_CTRL_CONTEXT) va false with
    | (.no c, s) => { bar4Refuse s c with resp := zeros }
    | (.ok l, s) =>
      if fail then { bar4Refuse (countUncorr s l.tier) (tierError l.tier) with resp := zeros }
      else { s with resp := (leafRead s l (va - l.va) n ext).map (fun b => b.toNat) }

/-- A BAR4 write. -/
def bar4Write (s : State) (off : Nat) (bs : List Byte) (fail : Bool) : State :=
  if !s.flag Reg.XLT_BAR4_CTRL_ENABLE then s
  else
    let va := bar4Va s off
    match access s (s.rd Reg.XLT_BAR4_CTRL_CONTEXT) va true with
    | (.no c, s) => bar4Refuse s c
    | (.ok l, s) =>
      if fail then bar4Refuse (countUncorr s l.tier) (tierError l.tier) else leafWrite s 1 l (va - l.va) bs

/-- BAR4_ACCESS (R233). -/
def execBar4Access (write : Bool) (off n : Nat) (bytes : List Byte) (fail : Bool) (corr : Nat) (s : State) : Answer :=
  .next (if s.barOk then
    let s := countCorr s corr
    (if write then bar4Write s off bytes fail else bar4Read s off n bytes fail) else s)

/-! The completion of a copy. -/

/-- What a channel without a descriptor in hand holds. -/
def chanBlank : Nat → Option CopyDesc := fun _ => none

/-- The descriptor in hand of a channel. -/
def State.chan (s : State) (c : Nat) : Option CopyDesc := SMap.get chanBlank s.chans c
def State.setChan (s : State) (c : Nat) (d : Option CopyDesc) : State :=
  { s with chans := SMap.set chanBlank s.chans c d }

/-- Complete or skip the descriptor in hand: CONS advances. -/
def chAdvance (s : State) (c : Nat) : State :=
  let s := s.setChan c none
  (s.wrs [(Reg.MEM_CH_STATUS_HALTED c, 0), (Reg.MEM_CH_STATUS_CODE c, 0), (Reg.MEM_CH_FAULT_OFF c, 0),
    (Reg.MEM_CH_TAG c, 0)]).inc (Reg.MEM_CH_CONS_CONS c)

/-- A descriptor is complete: CONS advances, its sync cell is signalled, its vector sent (R239, R241). -/
def chComplete (s : State) (c : Nat) (d : CopyDesc) : State :=
  let s := chAdvance s c
  let s := if bitOf d.flags 0 then synAdd s d.syncCell 1 else s
  if bitOf d.flags 1 then s.msix (s.rd (Reg.HIF_IVEC_VECTOR (11 + c))) else s

/-- Whether a write of a channel is held, and so not yet visible (R237, R265). -/
def chHeld (s : State) (c : Nat) : Bool := s.heldWrites.any (fun w => w.src == 4 + c)

/-- A channel that waited for its held writes completes its descriptor once they are visible (R241). -/
def chSettle (c : Nat) (s : State) : State :=
  if s.flag (Reg.MEM_CH_STATUS_BUSY c) && !chHeld s c then
    match s.chan c with
    | some d => chComplete (s.wr (Reg.MEM_CH_STATUS_BUSY c) 0) c d
    | none => s
  else s

/-- Every channel, after held writes have taken effect. -/
def settleChannels (s : State) : State := iter 8 chSettle s

/-- The writes held for the marked page take effect (R237), and what waited for them goes on. -/
def unmark (s : State) (tier room base : Nat) : State := settleChannels (releasePage s tier room base)

/-- The hold of a fall-back is released (R265), and what waited for it goes on. -/
def unhold (s : State) : State := settleChannels (releaseHeld s)

/-! Migration. -/

/-- End the migration: status, event, and its code recorded. -/
def migEnd (s : State) (code : Nat) : State :=
  let s := { s.trace 16 code [0, 0, 0, 0] with mig := none }
  let s := s.wrs [(Reg.MEM_MIG_STATUS_BUSY, 0), (Reg.MEM_MIG_STATUS_CODE, code)]
  let s := if code = 0 then s else s.rep code 0
  s.raiseMem Reg.MEM_IRQ_STATUS_MIG_DONE

/-- Refuse a migration command; a migration that runs goes on. -/
def migRefuse (s : State) (code : Nat) : State :=
  (s.wr Reg.MEM_MIG_STATUS_CODE code).rep code 0

/-- Whether the pages of a run are all present leaves of one size. -/
def migPages (s : State) (ctx va size n : Nat) : Bool :=
  (List.range n).all (fun i => match walk s ctx (va + i * size) false with
    | .ok l => l.size == size
    | .no _ => false)

/-- Start a migration of a run of pages of a size (R235). -/
def migCheck (s : State) (ctx tier va dst n size : Nat) : State :=
  if !migPages s ctx va size n || va % size != 0 || dst % size != 0 || decide (2 ^ 52 < dst + n * size) then
    migRefuse s Code.MEM_E_MIGRATE
  else if tier == 0 && !ownsRange s ctx dst (n * size) then migRefuse s Code.MEM_E_GRANULE
  else
    let s := s.wrs [(Reg.MEM_MIG_STATUS_BUSY, 1), (Reg.MEM_MIG_STATUS_CODE, 0), (Reg.MEM_MIG_MOVED_PAGES, 0),
      (Reg.MEM_MIG_SKIPPED_PAGES, 0)]
    { s with mig := some { ctx := ctx, dstTier := tier, va := va, dst := dst, left := n, size := size } }

/-- A GO of MEM_MIG_CMD (R235). -/
def migStart (s : State) : State :=
  let ctx := s.rd Reg.MEM_MIG_CMD_CONTEXT
  let tier := s.rd Reg.MEM_MIG_CMD_DST_TIER
  let n := s.rd Reg.MEM_MIG_PAGES_PAGES
  let va := s.rd Reg.MEM_MIG_VA
  if s.mig.isSome || tier == 1 || tier == 3 || n == 0 || decide (2 ^ 20 < n) then migRefuse s Code.MEM_E_MIGRATE
  else if 2 ^ 52 ≤ va || 2 ^ 52 ≤ s.rd Reg.MEM_MIG_DST then migRefuse s Code.XLT_E_RANGE
  else
    match walk s ctx va false with
    | .no _ => migRefuse s Code.MEM_E_MIGRATE
    | .ok l => migCheck s ctx tier va (s.rd Reg.MEM_MIG_DST) n l.size

/-- MIGRATE (R235). -/
def execMigrate (tier ctx : Nat) (s : State) : Answer :=
  .next (s.host Reg.MEM_MIG_CMD_CONTEXT.off (fun s =>
    let s := s.wrs [(Reg.MEM_MIG_CMD_DST_TIER, tier), (Reg.MEM_MIG_CMD_CONTEXT, ctx)]
    s.keeper Reg.MEM_MIG_STATUS_CODE migStart))

/-- Go on to the next page, or end the migration after the last or after an ABORT (R237). -/
def migNext (s : State) (m : Mig) : State :=
  let m := { m with va := m.va + m.size, dst := m.dst + m.size, left := m.left - 1, page := none }
  if m.abort then migEnd s Code.MEM_E_ABORTED
  else if m.left = 0 then migEnd s 0
  else { s with mig := some m }

/-- Skip the page in hand; its held writes take effect at the source (R237). -/
def migSkip (s : State) (m : Mig) (l : Leaf) : State :=
  unmark (migNext (s.inc Reg.MEM_MIG_SKIPPED_PAGES) m) l.tier l.room l.addr

/-- Whether a page is skipped: pinned, NOMIG, or a tier-0 frame of it has a reference count (R235). -/
def migSkips (s : State) (ctx : Nat) (l : Leaf) : Bool :=
  pinned s ctx l.va || l.nomig ||
    (l.tier == 0 && decide (SMap.count (fun f w => decide (l.addr / 65536 ≤ f) && decide (f * 65536 < l.addr + l.size) &&
      decide (w % 65536 ≠ 0)) s.refs ≠ 0))

/-- Step 1 of R236: read the leaf and mark the page. -/
def migBegin (s : State) (m : Mig) : State :=
  let x := walk s m.ctx m.va false
  let s := countWalk s x
  match x with
  | .no c => migEnd s c
  | .ok l => if migSkips s m.ctx l then migSkip s m l else { s with mig := some { m with page := some l } }

/-- The leaf entry of the page after the move: TIER, ADDR and ROOM replaced, every other field unchanged (R236). -/
def movedEntry (raw tier addr : Nat) : Nat :=
  raw % 4 + 4 * tier + bitsOf raw 4 8 * 16 + addr / 4096 * 4096

/-- Steps 2 to 4 of R236: copy, re-map by a booking that checks the leaf, clear the mark. `ext` is what a source outside
the part delivers; `rdFail` and `wrFail` say that the source read or the destination write fails; in D3hot no read of
host memory is issued (R284). A page that was pinned since it was marked is skipped (R268). -/
def migFinish (s : State) (m : Mig) (l : Leaf) (ext : List Byte) (rdFail wrFail : Bool) : State :=
  let noRead := rdFail || (s.chip.d3hot && l.tier == 2)
  let bad := if noRead then l.tier else m.dstTier
  if migSkips s m.ctx l then migSkip s m l
  else if noRead || wrFail then
    unmark (migEnd (countUncorr s bad) (tierError bad)) l.tier l.room l.addr
  else
    let bs := leafRead s l 0 l.size ext
    let s := if m.dstTier = 0 then agentWrite s m.dst bs else s.hostWrite m.dst bs true
    let r := keeperBook s (checkLines l.entPa (leBytes 8 l.raw) ++
      writeLines l.entPa (leBytes 8 (movedEntry l.raw m.dstTier m.dst))) []
    if r.1 = 0 then
      let s := (r.2.inc Reg.MEM_MIG_MOVED_PAGES).add Reg.MEM_MIG_BYTES l.size
      let s := { s with walks := s.walks.filter (fun c => !(c.ctx == m.ctx && c.leaf.va == l.va)) }
      unmark (migNext s m) m.dstTier 0 m.dst
    else migSkip r.2 m l

/-- MIGRATE_PAGE (R236): the first command of a page marks it, the second moves it; what the host does between the two
meets the mark (R237). -/
def execMigratePage (ext : List Byte) (rdFail wrFail : Bool) (corr : Nat) (s : State) : Answer :=
  .next (s.engine (fun s =>
    let s := countCorr s corr
    match s.mig with
    | none => s
    | some m =>
      match m.page with
      | none => migBegin s m
      | some l => migFinish s m l ext rdFail wrFail))

/-- End a migration after the page in hand, or at once where none is (R237). -/
def migAbort (s : State) : State :=
  match s.mig with
  | none => s
  | some m => if m.page.isNone then migEnd s Code.MEM_E_ABORTED else { s with mig := some { m with abort := true } }

/-- End a context's migration at once, its held writes at the source (R243). -/
def migKill (s : State) (ctx : Nat) : State :=
  match s.mig with
  | none => s
  | some m =>
    if m.ctx = ctx then
      match m.page with
      | none => migEnd s Code.MEM_E_ABORTED
      | some l => unmark (migEnd s Code.MEM_E_ABORTED) l.tier l.room l.addr
    else s

/-- MIGRATE_ABORT (R237). -/
def execMigrateAbort (s : State) : Answer := .next (s.host Reg.MEM_MIG_CMD_CONTEXT.off migAbort)

/-! Copy channels. -/

/-- Halt a channel (R242): its code, the offset of the first line not written, event, vector and record. -/
def chHalt (s : State) (c code off : Nat) : State :=
  let s := s.wrs [(Reg.MEM_CH_STATUS_HALTED c, 1), (Reg.MEM_CH_STATUS_CODE c, code), (Reg.MEM_CH_FAULT_OFF c, off)]
  let s := s.report { errOf code 0 with location := c }
  (s.raiseMem Reg.MEM_IRQ_STATUS_COPY_HALT).msix (s.rd (Reg.HIF_IVEC_VECTOR (11 + c)))

/-- The ring size of a channel. -/
def chSize (s : State) (c : Nat) : Nat := 2 ^ s.rd (Reg.MEM_CH_CFG_SIZE_LOG2 c)

/-- Descriptors produced and not completed. -/
def chWaiting (s : State) (c : Nat) : Nat :=
  (s.rd (Reg.MEM_CH_PROD_PROD c) + 2 ^ 32 - s.rd (Reg.MEM_CH_CONS_CONS c)) % 2 ^ 32

/-- A channel that may execute. -/
def chRuns (s : State) (c : Nat) : Bool :=
  s.flag (Reg.MEM_CH_CFG_ENABLE c) && !s.flag (Reg.MEM_CH_STATUS_HALTED c)

/-- A write of PROD (R238). -/
def prodWrite (s : State) (c prod : Nat) : State :=
  let s := s.wr (Reg.MEM_CH_PROD_PROD c) prod
  if chRuns s c && decide (chSize s c < chWaiting s c) then chHalt s c Code.MEM_E_COPY_FORMAT 0 else s

/-- COPY_PROD_WRITE (R238). -/
def execCopyProdWrite (c prod : Nat) (s : State) : Answer :=
  .next (s.host (Reg.MEM_CH_PROD_PROD c).off (fun s => prodWrite s c prod))

/-- The fields of a copy descriptor (R239). -/
def parseCopy (r : List Byte) : CopyDesc :=
  { op := recField r 0 1, flags := recField r 1 1, context := recField r 2 2, srcKind := recField r 4 1
    dstKind := recField r 5 1, src := recField r 8 8, dst := recField r 16 8, len := recField r 24 8
    syncCell := recField r 32 4, pattern := recField r 40 8, tag := recField r 48 8
    reservedZero := recZero r 6 2 && recZero r 36 4 && recZero r 56 8 }

/-- Whether a descriptor uses an address kind in a context's space. -/
def copyUsesCtx (d : CopyDesc) : Bool :=
  d.dstKind == 1 || d.dstKind == 2 || (d.op == 0 && (d.srcKind == 1 || d.srcKind == 2))

/-- Whether a descriptor breaks R239 or R240: a reserved field, a range, a context that is not registered. -/
def copyBad (s : State) (d : CopyDesc) : Bool :=
  decide (1 < d.op) || decide (3 < d.flags) || decide (4096 ≤ d.context) || !d.reservedZero ||
  decide (2 < d.dstKind) || (d.op == 0 && decide (2 < d.srcKind)) ||
  (d.op == 0 && d.srcKind == 0 && d.dstKind == 0) || (copyUsesCtx d && !registered s d.context) ||
  d.len == 0 || decide (2 ^ 32 < d.len) || decide (32768 ≤ d.syncCell) ||
  (d.op == 1 && (d.len % 8 != 0 || d.dst % 8 != 0))

/-- Where an address of a copy goes: a leaf and the offset in it, host memory, or a refusal. -/
inductive CopyAt where
  | host (addr : Nat)
  | page (l : Leaf) (off : Nat)
  | refused (code : Nat)
  deriving DecidableEq, Repr

/-- Find the target of an address of a kind (R240). -/
def copyAt (s : State) (ctx kind addr : Nat) (w : Bool) : CopyAt × State :=
  if kind = 0 then (.host addr, s)
  else if kind = 2 then
    (if owns s ctx addr then (.page { addr := addr / 4096 * 4096, size := 4096, w := true } (addr % 4096), s)
     else (.refused Code.MEM_E_GRANULE, s))
  else
    match access s ctx addr w with
    | (.no c, s) => (.refused c, s)
    | (.ok l, s) => (.page l (addr - l.va), s)

/-- The error code of a failed access of a target. -/
def CopyAt.error : CopyAt → Nat
  | .host _ => Code.MEM_E_DMA
  | .page l _ => tierError l.tier
  | .refused c => c

/-- Count an uncorrectable line where a failed access was of tier 0. -/
def CopyAt.count (x : CopyAt) (s : State) : State :=
  match x with
  | .page l _ => countUncorr s l.tier
  | _ => s

/-- Read `n` bytes of a source inside one page. What outside memory delivers is taken from the front of `ext`; an empty
supply is a failed access. -/
def copyRead (s : State) (ctx kind addr n : Nat) (ext : List Byte) : (List Byte × List Byte × State) ⊕ (Nat × State) :=
  match copyAt s ctx kind addr false with
  | (.refused c, s) => .inr (c, s)
  | (.host a, s) =>
    if ext.length < n then .inr (CopyAt.error (.host a), s) else .inl (ext.take n, ext.drop n, s)
  | (.page l off, s) =>
    if l.tier < 2 then .inl (leafRead s l off n [], ext, s)
    else if ext.length < n then .inr (tierError l.tier, s)
    else .inl (ext.take n, ext.drop n, s)

/-- The bytes left in the 4 KiB page of an address. -/
def pageLeft (addr : Nat) : Nat := 4096 - addr % 4096

/-- Read `n` bytes of a source, `n` at most 64: one or two pages. -/
def copySrc (s : State) (d : CopyDesc) (off n : Nat) (ext : List Byte) :
    (List Byte × List Byte × State) ⊕ (Nat × State) :=
  if d.op = 1 then .inl (((List.range n).map (fun i => (leBytes 8 d.pattern).getD ((off + i) % 8) 0)), ext, s)
  else
    let a := d.src + off
    let n1 := minNat n (pageLeft a)
    match copyRead s d.context d.srcKind a n1 ext with
    | .inr e => .inr e
    | .inl (b1, ext, s) =>
      if n1 = n then .inl (b1, ext, s)
      else
        match copyRead s d.context d.srcKind (a + n1) (n - n1) ext with
        | .inr e => .inr e
        | .inl (b2, ext, s) => .inl (b1 ++ b2, ext, s)

/-- Write a destination line. -/
def copyDst (s : State) (c : Nat) (d : CopyDesc) (off : Nat) (bs : List Byte) (fail : Bool) : Nat × State :=
  match copyAt s d.context d.dstKind (d.dst + off) true with
  | (.refused c, s) => (c, s)
  | (.host a, s) => if fail then (Code.MEM_E_DMA, s) else (0, s.hostWrite a bs true)
  | (.page l o, s) => if fail then (tierError l.tier, countUncorr s l.tier) else (0, leafWrite s (4 + c) l o bs)

/-- Where a copy stops: its code and the offset of the first line not written; code 0 when it is complete. -/
structure CopyEnd where
  code : Nat
  off  : Nat
  deriving DecidableEq, Repr

/-- Move a descriptor's bytes a destination line at a time from `off` (R241, R242). `rdFail` and `wrFail` name the offsets
at which the source read of a line and its destination write fail. -/
def copyLoop (c : Nat) (d : CopyDesc) (rdFail wrFail : Option Nat) :
    Nat → Nat → List Byte → State → CopyEnd × State
  | 0, off, _, s => (⟨0, off⟩, s)
  | fuel + 1, off, ext, s =>
    if d.len ≤ off then (⟨0, off⟩, s)
    else
      let n := minNat (64 - (d.dst + off) % 64) (d.len - off)
      let within (x : Option Nat) : Bool := match x with
        | some f => decide (off ≤ f) && decide (f < off + n)
        | none => false
      if d.op == 0 && within rdFail then
        let t := copyAt s d.context d.srcKind (d.src + off) false
        (⟨t.1.error, off⟩, t.1.count t.2)
      else
        match copySrc s d off n ext with
        | .inr (c, s) => (⟨c, off⟩, s)
        | .inl (bs, ext, s) =>
          let r := copyDst s c d off bs (within wrFail)
          if r.1 = 0 then copyLoop c d rdFail wrFail fuel (off + n) ext (r.2.add Reg.MEM_COPY_BYTES n)
          else (⟨r.1, off⟩, r.2)

/-- Run a descriptor from an offset to its end or its halt. -/
def copyRun (s : State) (c : Nat) (d : CopyDesc) (off : Nat) (ext : List Byte) (rdFail wrFail : Option Nat) : State :=
  let s := (s.setChan c (some d)).wrs [(Reg.MEM_CH_TAG c, d.tag), (Reg.MEM_CH_STATUS_HALTED c, 0),
    (Reg.MEM_CH_STATUS_CODE c, 0)]
  if copyBad s d then chHalt s c Code.MEM_E_COPY_FORMAT 0
  else
    let r := copyLoop c d rdFail wrFail d.len off ext s
    if r.1.code = 0 then (if chHeld r.2 c then r.2.wr (Reg.MEM_CH_STATUS_BUSY c) 1 else chComplete r.2 c d)
    else chHalt r.2 c r.1.code r.1.off

/-- Read the next descriptor and run it. An empty record is a failed read of the ring (R300). -/
def copyNext (s : State) (c : Nat) (bytes ext : List Byte) (rdFail wrFail : Option Nat) : State :=
  if chSize s c < chWaiting s c then chHalt s c Code.MEM_E_COPY_FORMAT 0
  else if chWaiting s c = 0 then s
  else if bytes.length < 64 then chHalt s c Code.MEM_E_DMA 0
  else copyRun s c (parseCopy bytes) 0 ext rdFail wrFail

/-- COPY_DESCRIPTOR (R239). -/
def execCopyDescriptor (c : Nat) (bytes ext : List Byte) (rdFail wrFail : Option Nat) (corr : Nat) (s : State) : Answer :=
  .next (s.engine (fun s =>
    if chRuns s c && !s.flag (Reg.MEM_CH_STATUS_BUSY c) && !s.chip.d3hot then
      copyNext (countCorr s corr) c bytes ext rdFail wrFail
    else s))

/-- RESUME (R242): the descriptor in hand goes on at FAULT_OFF; a channel that halted between descriptors reads its
next. -/
def copyResume (s : State) (c : Nat) (bytes ext : List Byte) (rdFail wrFail : Option Nat) : State :=
  if s.flag (Reg.MEM_CH_STATUS_HALTED c) then
    match s.chan c with
    | some d => copyRun s c d (s.rd (Reg.MEM_CH_FAULT_OFF c)) ext rdFail wrFail
    | none =>
      copyNext (s.wrs [(Reg.MEM_CH_STATUS_HALTED c, 0), (Reg.MEM_CH_STATUS_CODE c, 0)]) c bytes ext rdFail wrFail
  else s

/-- COPY_RESUME (R242). -/
def execCopyResume (c : Nat) (bytes ext : List Byte) (rdFail wrFail : Option Nat) (corr : Nat) (s : State) : Answer :=
  .next (s.host (Reg.MEM_CH_CTRL_RESUME c).off (fun s => copyResume (countCorr s corr) c bytes ext rdFail wrFail))

/-- SKIP (R242): the halted descriptor is abandoned without a signal and CONS advances. -/
def copySkip (s : State) (c : Nat) : State :=
  if s.flag (Reg.MEM_CH_STATUS_HALTED c) then chAdvance s c else s

/-- COPY_SKIP (R242). -/
def execCopySkip (c : Nat) (s : State) : Answer :=
  .next (s.host (Reg.MEM_CH_CTRL_SKIP c).off (fun s => copySkip s c))

/-- Clear ENABLE (R242): allowed while CONS equals PROD or the channel is halted; a halted descriptor is abandoned. -/
def copyDisable (s : State) (c : Nat) : State :=
  if chWaiting s c = 0 || s.flag (Reg.MEM_CH_STATUS_HALTED c) then
    (s.setChan c none).wrs [(Reg.MEM_CH_CFG_ENABLE c, 0), (Reg.MEM_CH_STATUS_HALTED c, 0),
      (Reg.MEM_CH_STATUS_CODE c, 0), (Reg.MEM_CH_FAULT_OFF c, 0), (Reg.MEM_CH_TAG c, 0),
      (Reg.MEM_CH_CONS_CONS c, 0), (Reg.MEM_CH_PROD_PROD c, 0)]
  else s

/-- COPY_DISABLE (R242). -/
def execCopyDisable (c : Nat) (s : State) : Answer :=
  .next (s.host (Reg.MEM_CH_CFG_ENABLE c).off (fun s => copyDisable s c))

/-- FLR halts every enabled channel that has a descriptor to execute (R242). One whose lines have all been written, and wait
to become visible, halts behind the last of them. -/
def chFlr (c : Nat) (s : State) : State :=
  if chRuns s c && decide (chWaiting s c ≠ 0) then
    let off := if s.flag (Reg.MEM_CH_STATUS_BUSY c) then ((s.chan c).map (·.len)).getD 0 else 0
    chHalt (s.wr (Reg.MEM_CH_STATUS_BUSY c) 0) c Code.MEM_E_FLR off
  else s

/-! Scrub. -/

/-- The lowest granule that awaits scrub. -/
def nextScrub (s : State) : Option Nat := SMap.findKey (fun _ v => granScrub v) s.gran

/-- Whether a granule of an ended context still awaits scrub. -/
def scrubbing (s : State) (ctx : Nat) : Bool := decide (SMap.count (fun _ v => v == .scrub (some ctx)) s.gran ≠ 0)

/-- A context whose end is complete is FREE (R380). -/
def ctxFreed (s : State) (ctx : Nat) : State :=
  if scrubbing s ctx then s
  else (s.wr (Reg.SEC_CTX_STATE ctx) 0).raiseSec Reg.SEC_IRQ_STATUS_CTX_FREE

/-- Scrub the lowest awaiting granule (R243). -/
def scrubOne (s : State) : State :=
  match nextScrub s with
  | none => s
  | some g =>
    let owner := s.granule g
    let s := { s with
      dram := dramZero s.dram (g * 2 ^ 21) (2 ^ 21), gran := SMap.set granBlank s.gran g .free }
    let s := s.add Reg.MEM_SCRUB_BYTES (2 ^ 21)
    let s := match owner with
      | .scrub (some c) => ctxFreed s c
      | _ => s
    if (nextScrub s).isNone then s.raiseMem Reg.MEM_IRQ_STATUS_SCRUB_DONE else s

/-- SCRUB_GRANULE (R243). -/
def execScrubGranule (s : State) : Answer := .next (s.engine scrubOne)

end Sys2Proof.Machine
end

