-- ==== Sys2Proof/Machine/Float.lean ====
section
/-! DEFINITION. The floating-point arithmetic of the part (R100, R101, R123): FP32, BF16 and FP8 E4M3 as bit patterns,
round-to-nearest-even with subnormals of FP32 and BF16 flushed to a zero of the same sign. Values are carried as exact
dyadic numbers `mantissa × 2^exponent` and narrowed once at the end of each operation. -/

namespace Sys2Proof.Machine

/-- An exact dyadic value. -/
structure Dy where
  man : Int
  exp : Int
  deriving DecidableEq, Repr

/-- 2 to an integer power, as a natural number when the power is not negative. -/
def pow2 (e : Int) : Nat := 2 ^ e.toNat

/-- The sum of two dyadic values, exact. -/
def Dy.add (a b : Dy) : Dy :=
  let e := min a.exp b.exp
  ⟨a.man * pow2 (a.exp - e) + b.man * pow2 (b.exp - e), e⟩

/-- The product, exact. -/
def Dy.mul (a b : Dy) : Dy := ⟨a.man * b.man, a.exp + b.exp⟩

/-- The negation. -/
def Dy.neg (a : Dy) : Dy := ⟨-a.man, a.exp⟩

/-- Comparison of exact values. -/
def Dy.lt (a b : Dy) : Bool := (Dy.add a (Dy.neg b)).man < 0

/-- The largest integer not above a dyadic value. -/
def Dy.floor (a : Dy) : Int :=
  if 0 ≤ a.exp then a.man * pow2 a.exp else a.man / (pow2 (-a.exp) : Int)

/-- An integer as a dyadic value. -/
def Dy.ofInt (i : Int) : Dy := ⟨i, 0⟩

namespace F32

/-- Sign, exponent and mantissa fields (R100). -/
def sign (x : Nat) : Nat := x / 0x80000000 % 2
def expo (x : Nat) : Nat := x / 0x800000 % 256
def frac (x : Nat) : Nat := x % 0x800000

def isFinite (x : Nat) : Bool := expo x != 255
def isNan (x : Nat) : Bool := expo x == 255 && frac x != 0
def isInf (x : Nat) : Bool := expo x == 255 && frac x == 0

/-- Zero after the flush of R101. -/
def isZero (x : Nat) : Bool := expo x == 0

/-- The value of a finite pattern, subnormals flushed (R101). -/
def toDy (x : Nat) : Dy :=
  if expo x = 0 then ⟨0, 0⟩
  else
    let m : Int := (0x800000 + frac x : Nat)
    ⟨if sign x = 1 then -m else m, (expo x : Int) - 150⟩

/-- A NaN result; its payload is free (log entry 7). -/
def nan (a b : Nat) : Nat := 0x7FC00000 + Config.nanPayload a b % 0x400000

/-- An infinity, a zero and the largest finite value of a sign. -/
def inf (s : Nat) : Nat := s * 0x80000000 + 0x7F800000
def zero (s : Nat) : Nat := s * 0x80000000
def maxFinite (s : Nat) : Nat := s * 0x80000000 + 0x7F7FFFFF

/-- Narrow `n × 2^e` of sign `s` to 24 bits, nearest even; `sticky` says that a non-zero rest lies below `n`.
Results below the normal range flush to zero (R101), results above it are infinite. Whether a result is subnormal is
judged after it is rounded to 24 bits with an unbounded exponent, which R101 leaves open (log entry 121). -/
def pack (s n : Nat) (e : Int) (sticky : Bool) : Nat :=
  if n = 0 then zero s
  else
    let len := Nat.log2 n + 1
    let sh : Nat := len - 24
    let q0 := if len ≤ 24 then n * 2 ^ (24 - len) else n / 2 ^ sh
    let e0 : Int := if len ≤ 24 then e - (24 - len : Nat) else e + sh
    let r := if len ≤ 24 then 0 else n % 2 ^ sh
    let half := if len ≤ 24 then 1 else 2 ^ (sh - 1)
    let up : Bool := decide (half < r) || (decide (r = half) && (sticky || q0 % 2 == 1))
    let q1 := if up then q0 + 1 else q0
    let q := if q1 = 0x1000000 then 0x800000 else q1
    let e1 := if q1 = 0x1000000 then e0 + 1 else e0
    let biased := e1 + 150
    if 255 ≤ biased then inf s
    else if biased ≤ 0 then zero s
    else s * 0x80000000 + biased.toNat * 0x800000 + (q - 0x800000)

/-- Narrow an exact value; an exact zero takes the sign given. -/
def ofDy (zeroSign : Nat) (d : Dy) : Nat :=
  if d.man = 0 then zero zeroSign
  else pack (if d.man < 0 then 1 else 0) d.man.natAbs d.exp false

def neg (x : Nat) : Nat := if sign x = 1 then x - 0x80000000 else x + 0x80000000
def abs (x : Nat) : Nat := x % 0x80000000

/-- FP32 addition, one rounding (R123). -/
def add (a b : Nat) : Nat :=
  if isNan a || isNan b then nan a b
  else if isInf a then (if isInf b && sign a != sign b then nan a b else a)
  else if isInf b then b
  else ofDy (if isZero a && isZero b then sign a * sign b else 0) (Dy.add (toDy a) (toDy b))

def sub (a b : Nat) : Nat := add a (neg b)

/-- FP32 multiplication, one rounding. -/
def mul (a b : Nat) : Nat :=
  let s := (sign a + sign b) % 2
  if isNan a || isNan b then nan a b
  else if isInf a || isInf b then (if isZero a || isZero b then nan a b else inf s)
  else ofDy s (Dy.mul (toDy a) (toDy b))

/-- FP32 division, one rounding. -/
def div (a b : Nat) : Nat :=
  let s := (sign a + sign b) % 2
  if isNan a || isNan b then nan a b
  else if isInf a then (if isInf b then nan a b else inf s)
  else if isInf b then zero s
  else if isZero b then (if isZero a then nan a b else inf s)
  else if isZero a then zero s
  else
    let x := toDy a
    let y := toDy b
    let n := x.man.natAbs * 2 ^ 40
    pack s (n / y.man.natAbs) (x.exp - y.exp - 40) (n % y.man.natAbs != 0)

/-- An exact non-negative value divided by a natural number, one rounding. -/
def divDy (d : Dy) (n : Nat) : Nat :=
  let m := d.man.natAbs * 2 ^ 40
  pack 0 (m / n) (d.exp - 40) (m % n != 0)

/-- A value times 2^n, exact apart from the flush of R101; an infinity or a NaN stays one. -/
def scale (x : Nat) (n : Int) : Nat :=
  if isFinite x then ofDy (sign x) ⟨(toDy x).man, (toDy x).exp + n⟩
  else if isNan x then nan x x else x

/-- The larger and smaller of two values that are not NaN; +0 and −0 compare equal and the first is kept. -/
def lt (a b : Nat) : Bool :=
  if isInf a then sign a == 1 && !(isInf b && sign b == 1)
  else if isInf b then sign b == 0
  else Dy.lt (toDy a) (toDy b)
def max (a b : Nat) : Nat := if lt a b then b else a
def min (a b : Nat) : Nat := if lt b a then b else a

/-- An integer as FP32, nearest even. -/
def ofInt (i : Int) : Nat := ofDy 0 (Dy.ofInt i)

def one : Nat := 0x3F800000

/-- Nearest-even integer of an exact value. -/
def rneInt (d : Dy) : Int :=
  let f := Dy.floor d
  let r := Dy.add d (Dy.ofInt (-f))
  let twice : Dy := ⟨r.man, r.exp + 1⟩
  if Dy.lt twice ⟨1, 0⟩ then f
  else if Dy.lt ⟨1, 0⟩ twice then f + 1
  else if f % 2 = 0 then f else f + 1

/-- Nearest-even integer of a value; an infinity lies beyond every range, and what a NaN gives is free (log entry 121). -/
def toInt (x : Nat) : Int :=
  if isNan x then Config.nanInt x
  else if isInf x then (if sign x = 1 then -(2 ^ 128) else 2 ^ 128)
  else rneInt (toDy x)

end F32

namespace BF16

/-- A BF16 pattern widened exactly to FP32. -/
def toF32 (x : Nat) : Nat := x % 0x10000 * 0x10000

/-- Narrow a finite FP32 value to BF16 by a rule that says whether to add one unit: it gets the kept bits and the
16 bits below them. Saturates at ±0x7F7F (R111); the flag says that it did. -/
def narrow (up : Nat → Nat → Bool) (x : Nat) : Nat × Bool :=
  if F32.isZero x then (F32.sign x * 0x8000, false)
  else
    let kept := x / 0x10000
    let low := x % 0x10000
    let y := if up kept low then kept + 1 else kept
    if F32.isFinite (y * 0x10000) then (y, false) else (F32.sign x * 0x8000 + 0x7F7F, true)

/-- Round to nearest even. -/
def rne (x : Nat) : Nat × Bool :=
  narrow (fun kept low => decide (0x8000 < low) || (low == 0x8000 && kept % 2 == 1)) x

/-- Round toward +∞ a value that is not negative (the KV scale, R109). -/
def up (x : Nat) : Nat := (narrow (fun _ low => low != 0) x).1

/-- Stochastic rounding with the 16-bit random value of R112: the bits below the mantissa are all of D. -/
def stochastic (r x : Nat) : Nat × Bool := narrow (fun _ low => decide (0x10000 ≤ low + r)) x

end BF16

namespace E4M3

/-- Whether a pattern is a NaN (R100). -/
def isNan (x : Nat) : Bool := x % 128 == 127

/-- The value of a pattern (R100); a NaN pattern decodes as 448 with its sign, as the column scaler decodes it (R104). Other
readers ask `isNan` first. -/
def toDy (x : Nat) : Dy :=
  let s := x / 128 % 2
  let e := x / 8 % 16
  let m := x % 8
  let v : Dy := if e = 15 ∧ m = 7 then ⟨448, 0⟩ else if e = 0 then ⟨m, -9⟩ else ⟨8 + m, (e : Int) - 10⟩
  if s = 1 then Dy.neg v else v

/-- The pattern of a magnitude held as `q` units of `2^k` with `q < 16` (q ≥ 8 for a normal value), saturating. -/
def encode (s q : Nat) (k : Int) : Nat × Bool :=
  let q' := if q = 16 then 8 else q
  let k' := if q = 16 then k + 1 else k
  if q' < 8 then (s * 128 + q', false)
  else
    let e := k' + 10
    if 15 < e ∨ (e = 15 ∧ q' = 15) then (s * 128 + 0x7E, true)
    else (s * 128 + e.toNat * 8 + (q' - 8), false)

/-- Narrow a finite FP32 value: the kept units and the rest as a fraction of one unit go to the rule. -/
def narrow (up : Nat → Dy → Bool) (x : Nat) : Nat × Bool :=
  let s := F32.sign x
  let d := F32.toDy x
  if d.man = 0 then (s * 128, false)
  else
    let mag : Dy := ⟨d.man.natAbs, d.exp⟩
    let top : Int := (Nat.log2 d.man.natAbs : Int) + d.exp
    let k : Int := if top < -6 then -9 else top - 3
    let scaled : Dy := ⟨mag.man, mag.exp - k⟩
    let f := Dy.floor scaled
    let rest := Dy.add scaled (Dy.ofInt (-f))
    let q := f.toNat
    encode s (if up q rest then q + 1 else q) k

/-- Round to nearest even, saturating at 448 (R111). -/
def rne (x : Nat) : Nat × Bool :=
  narrow (fun q rest => Dy.lt ⟨1, -1⟩ rest || (decide ((Dy.add rest ⟨-1, -1⟩).man = 0) && q % 2 == 1)) x

/-- Stochastic rounding (R112): D is the first 16 bits below the last mantissa bit. -/
def stochastic (r x : Nat) : Nat × Bool :=
  narrow (fun _ rest => decide (0x10000 ≤ (Dy.floor ⟨rest.man, rest.exp + 16⟩).toNat + r)) x

end E4M3

end Sys2Proof.Machine
end

