-- ==== Sys2Proof/Machine/Numeric.lean ====
section
/-! DEFINITION. The numeric rules of spec/04 and spec/05: row sums and maxima in their fixed order (R124), the table
functions (R125), the rounding generator (R113), the block-Hadamard rotation (R114), the conversion sites (R107 to
R112, R120), the array's product path (R105, R106), the state update and scan (R130 to R132) and the sampling of a
token (R291). A row is a list of FP32 patterns. No inverse rotation is made at run time (R115). -/

namespace Sys2Proof.Machine

/-- The element of a list, or a default. -/
def nth (l : List Nat) (i : Nat) : Nat := l.getD i 0

/-! Row sums (R124). -/

/-- Lane `l`'s elements of a row: l, l + 64, l + 128, ... -/
def laneElems (row : List Nat) (l : Nat) : List Nat :=
  (List.range ((row.length + 63) / 64)).filterMap (fun b => row[l + 64 * b]?)

/-- One folding stage: lane j + half into lane j. -/
def foldStage (op : Nat → Nat → Nat) (half : Nat) (lanes : List Nat) : List Nat :=
  (List.range half).map (fun j => op (nth lanes j) (nth lanes (j + half)))

/-- The six stages. -/
def foldLanes (op : Nat → Nat → Nat) (lanes : List Nat) : Nat :=
  nth (foldStage op 1 (foldStage op 2 (foldStage op 4 (foldStage op 8 (foldStage op 16 (foldStage op 32 lanes)))))) 0

/-- The sum of a row in the fixed order of R124, each lane starting from +0. -/
def rowSum (row : List Nat) : Nat :=
  foldLanes F32.add ((List.range 64).map (fun l => (laneElems row l).foldl F32.add 0))

/-- The maximum of a row (R124); a lane without elements holds −∞. -/
def rowMax (row : List Nat) : Nat :=
  foldLanes F32.max ((List.range 64).map (fun l => (laneElems row l).foldl F32.max (F32.inf 1)))

/-- The minimum of a row. -/
def rowMin (row : List Nat) : Nat :=
  foldLanes F32.min ((List.range 64).map (fun l => (laneElems row l).foldl F32.min (F32.inf 0)))

/-! Table functions (R125). A table is the 1,024 coefficients c0, c1, c2, c3 of its 256 segments. -/

/-- ((c3 × t + c2) × t + c1) × t + c0, each operation rounded once. -/
def polyAt (table : List Nat) (seg t : Nat) : Nat :=
  let c := fun i => nth table (4 * seg + i)
  F32.add (F32.mul (F32.add (F32.mul (F32.add (F32.mul (c 3) t) (c 2)) t) (c 1)) t) (c 0)

/-- Segment index and offset of an exact argument above `lo`, for segments of width `w`. -/
def segOf (x lo w : Dy) : Nat × Nat :=
  let d := Dy.add x (Dy.neg lo)
  let wi := if w.man = 0 then 1 else w.man
  let seg := (Dy.floor ⟨d.man, d.exp - w.exp⟩ / wi).toNat
  (seg, F32.ofDy 0 (Dy.add d (Dy.neg ⟨w.man * seg, w.exp⟩)))

/-- exp2: x = n + f; the result of the table times 2^n exactly. -/
def fnExp2 (table : List Nat) (x : Nat) : Nat :=
  if F32.isNan x then F32.nan x x
  else if F32.isInf x then (if F32.sign x = 1 then 0 else F32.maxFinite 0)
  else
    let d := F32.toDy x
    let n := Dy.floor d
    if n < -126 then 0
    else if 127 < n then F32.maxFinite 0
    else
      let st := segOf (Dy.add d (Dy.ofInt (-n))) ⟨0, 0⟩ ⟨1, -8⟩
      F32.scale (polyAt table st.1 st.2) n

/-- 1/x: the mantissa in [1, 2), the exponent negated; ±0 gives ± the largest finite value, and an infinity is replaced
by 0 before the call. -/
def fnRecip (table : List Nat) (x : Nat) : Nat :=
  if F32.isNan x then F32.nan x x
  else if F32.isInf x then F32.maxFinite 0
  else if F32.isZero x then F32.maxFinite (F32.sign x)
  else
    let st := segOf ⟨(0x800000 + F32.frac x : Nat), -23⟩ ⟨1, 0⟩ ⟨1, -8⟩
    let z := F32.scale (polyAt table st.1 st.2) (127 - (F32.expo x : Int))
    if F32.sign x = 1 then F32.neg z else z

/-- 1/√x: the mantissa in [1, 4), the exponent halved; x ≤ 0 gives the largest finite value. No result is stated for
+∞ (log entry 99). -/
def fnRsqrt (table : List Nat) (x : Nat) : Nat :=
  if F32.isNan x then F32.nan x x
  else if F32.isZero x || F32.sign x == 1 then F32.maxFinite 0
  else if F32.isInf x then Config.rsqrtInf % 2 ^ 32
  else
    let e : Int := (F32.expo x : Int) - 127
    let odd : Int := e % 2
    let st := segOf ⟨(0x800000 + F32.frac x : Nat), -23 + odd⟩ ⟨1, 0⟩ ⟨3, -8⟩
    F32.scale (polyAt table st.1 st.2) (-((e - odd) / 2))

/-- sigmoid over [−16, 16) and tanh over [−8, 8), by 256 segments; 0 or −1 below, 1 at and above. -/
def fnClamped (table : List Nat) (range : Int) (below x : Nat) : Nat :=
  if F32.isNan x then F32.nan x x
  else if F32.isInf x then (if F32.sign x = 1 then below else F32.one)
  else
    let d := F32.toDy x
    if Dy.lt d (Dy.ofInt (-range)) then below
    else if !(Dy.lt d (Dy.ofInt range)) then F32.one
    else
      let st := segOf d (Dy.ofInt (-range)) ⟨range, -7⟩
      polyAt table st.1 st.2

def fnSigmoid (table : List Nat) (x : Nat) : Nat := fnClamped table 16 0 x
def fnTanh (table : List Nat) (x : Nat) : Nat := fnClamped table 8 0xBF800000 x

/-! The rounding generator (R113). -/

/-- One step of the 32-bit Galois LFSR. -/
def lfsrStep (s : Nat) : Nat := if s % 2 = 1 then Nat.xor (s / 2) 0x80200003 else s / 2

/-- `n` steps. -/
def lfsrSteps : Nat → Nat → Nat
  | 0, s => s
  | n + 1, s => lfsrSteps n (lfsrStep s)

/-- The seed a lane loads at the start of a row. -/
def lfsrSeed (seed pos siteId lane : Nat) : Nat :=
  let v := Nat.xor (Nat.xor (Nat.xor (seed % 2 ^ 32) (pos % 2 ^ 32)) (siteId * 0x00010001 % 2 ^ 32))
    (lane * 0x9E3779B9 % 2 ^ 32)
  if v = 0 then 1 else v

/-- The 16-bit random value of element `j` of a row: its lane's state after j/64 + 1 advances of 32 steps. -/
def lfsrValue (seed pos siteId j : Nat) : Nat :=
  lfsrSteps (32 * (j / 64 + 1)) (lfsrSeed seed pos siteId (j % 64)) / 0x10000 % 0x10000

/-! Rotation (R114). -/

/-- One butterfly stage on a block. -/
def hadStage (t : Nat) (block : List Nat) : List Nat :=
  (List.range block.length).map (fun j =>
    if j / 2 ^ t % 2 = 0 then F32.add (nth block j) (nth block (j + 2 ^ t))
    else F32.sub (nth block (j - 2 ^ t)) (nth block j))

/-- Stages t, t+1, ..., t+n−1. -/
def hadStages : Nat → Nat → List Nat → List Nat
  | 0, _, b => b
  | n + 1, t, b => hadStages n (t + 1) (hadStage t b)

/-- Rotate one block of 2^sizeLog2 elements under a sign mask. -/
def rotateBlock (sizeLog2 signs : Nat) (block : List Nat) : List Nat :=
  let signed := (List.range block.length).map (fun j =>
    if signs / 2 ^ j % 2 = 1 then F32.neg (nth block j) else nth block j)
  let k : Int := if sizeLog2 = 6 then 3 else 4
  (hadStages sizeLog2 0 signed).map (fun x => F32.scale x (-k))

/-- Cut a row into blocks; the fuel is the number of blocks. -/
def blocksOf (n : Nat) : Nat → List Nat → List (List Nat)
  | 0, _ => []
  | fuel + 1, row => row.take n :: blocksOf n fuel (row.drop n)

/-- Rotate every block of a row. -/
def rotateRow (sizeLog2 signs : Nat) (row : List Nat) : List Nat :=
  ((blocksOf (2 ^ sizeLog2) (row.length / 2 ^ sizeLog2) row).map (rotateBlock sizeLog2 signs)).flatten

/-! Conversion sites. -/

/-- What a site leaves for one row: codes, scales, zero point, and its counts (R110, R120). -/
structure Converted where
  codes  : List Nat := []
  scales : List Nat := []
  zero   : Nat := 0
  clips  : Nat := 0
  nonfin : Nat := 0
  errs   : List Nat := []
  deriving DecidableEq, Repr

/-- Whether the row rounds stochastically, and its seed (R112): `stream` is the stream entry's seed, 0 without one. -/
def siteSeed (s : Site) (stream : Nat) : Option Nat :=
  if s.round = 1 then some s.seed
  else if s.round = 2 ∧ stream ≠ 0 then some stream
  else none

/-- Round to an integer: nearest even, or stochastically on the first 16 bits of the fraction (R112). -/
def roundInt (seed : Option Nat) (pos siteId j v : Nat) : Int :=
  let d := F32.toDy v
  match seed with
  | none => F32.toInt v
  | some sd =>
    if !F32.isFinite v then F32.toInt v
    else
    let f := Dy.floor d
    let rest := Dy.add d (Dy.ofInt (-f))
    if 0x10000 ≤ (Dy.floor ⟨rest.man, rest.exp + 16⟩).toNat + lfsrValue sd pos siteId j then f + 1 else f

/-- Clamp to a range; the flag says that it saturated. -/
def clampInt (lo hi v : Int) : Int × Bool :=
  if v < lo then (lo, true) else if hi < v then (hi, true) else (v, false)

/-- −mn × r rounded once, to an integer (R108). -/
def zeroPoint (mn r : Nat) : Int :=
  if F32.isFinite r then F32.rneInt (Dy.mul (F32.toDy (F32.neg mn)) (F32.toDy r)) else F32.toInt (F32.mul (F32.neg mn) r)

/-- The A8 parameters of a row (R108). -/
def a8Params (s : Site) (row : List Nat) : Nat × Nat :=
  if s.dynamic then
    let mn := F32.min 0 (rowMin row)
    let mx := F32.max 0 (rowMax row)
    if F32.toDy mn = F32.toDy mx then (F32.one, 0)
    else
      let sa := F32.divDy (Dy.add (F32.toDy mx) (Dy.neg (F32.toDy mn))) 255
      let r := F32.div F32.one sa
      (sa, (clampInt 0 255 (zeroPoint mn r)).1.toNat)
  else (s.staticScale, s.staticZp)

/-- The FP8 scale of a row (R108). -/
def fp8Scale (s : Site) (row : List Nat) : Nat :=
  if s.dynamic then
    let amax := rowMax (row.map F32.abs)
    if F32.isZero amax then F32.one else F32.div amax (F32.ofInt 448)
  else s.staticScale

/-- An integer code as its stored field of `bits` bits. -/
def codeField (bits : Nat) (i : Int) : Nat := (i % (2 ^ bits : Nat)).toNat

/-- One KV group of 64 elements (R109): the scale rounds toward +∞, codes lie within ±qmax. -/
def kvGroup (seed : Option Nat) (pos siteId base qmax : Nat) (g : List Nat) : Converted :=
  let amax := rowMax (g.map F32.abs)
  let sg := BF16.up (F32.div amax (F32.ofInt qmax))
  if F32.isZero amax then { codes := g.map (fun _ => 0), scales := [0], errs := g }
  else
    let sf := BF16.toF32 sg
    let r := F32.div F32.one sf
    let each := (List.range g.length).map (fun j =>
      let c := clampInt (-(qmax : Int)) qmax (roundInt seed pos siteId (base + j) (F32.mul (nth g j) r))
      (c, F32.sub (nth g j) (F32.mul sf (F32.ofInt c.1))))
    { codes := each.map (fun p => codeField 8 p.1.1), scales := [sg],
      clips := (each.filter (fun p => p.1.2)).length, errs := each.map (fun p => p.2) }

/-- Convert one row at a site (R110). -/
def convertRow (s : Site) (kvBits stream pos : Nat) (row0 : List Nat) : Converted :=
  let clean := row0.map (fun x => if F32.isFinite x then x else 0)
  let nonfin := (row0.filter (fun x => !F32.isFinite x)).length
  let row := if s.rotLog2 = 0 then clean else rotateRow s.rotLog2 s.rotSigns clean
  let seed := siteSeed s stream
  let idx := List.range row.length
  match s.target with
  | 0 =>
    let p := a8Params s row
    let r := F32.div F32.one p.1
    let each := idx.map (fun j =>
      let c := clampInt 0 255 (roundInt seed pos s.siteId j (F32.mul (nth row j) r) + p.2)
      (c, F32.sub (nth row j) (F32.mul p.1 (F32.ofInt (c.1 - p.2)))))
    { codes := each.map (fun q => q.1.1.toNat), scales := [p.1], zero := p.2,
      clips := (each.filter (fun q => q.1.2)).length, nonfin := nonfin, errs := each.map (fun q => q.2) }
  | 1 =>
    let sa := fp8Scale s row
    let r := F32.div F32.one sa
    let each := idx.map (fun j =>
      let v := F32.mul (nth row j) r
      let c := if F32.isNan v then (Config.nanInt v % 256, false) else match seed with
        | none => E4M3.rne v
        | some sd => E4M3.stochastic (lfsrValue sd pos s.siteId j) v
      (c, F32.sub (nth row j) (F32.mul sa (F32.ofDy 0 (E4M3.toDy c.1)))))
    { codes := each.map (fun q => q.1.1), scales := [sa],
      clips := (each.filter (fun q => q.1.2)).length, nonfin := nonfin, errs := each.map (fun q => q.2) }
  | 2 =>
    let each := idx.map (fun j =>
      let v := nth row j
      let c := match seed with
        | none => BF16.rne v
        | some sd => BF16.stochastic (lfsrValue sd pos s.siteId j) v
      (c, F32.sub v (BF16.toF32 c.1)))
    { codes := each.map (fun q => q.1.1), scales := [],
      clips := (each.filter (fun q => q.1.2)).length, nonfin := nonfin, errs := each.map (fun q => q.2) }
  | 4 =>
    let qmax := if kvBits = 4 then 7 else 127
    let gs := (blocksOf 64 (row.length / 64) row)
    let cs := (List.range gs.length).map (fun b => kvGroup seed pos s.siteId (64 * b) qmax (gs.getD b []))
    { codes := (cs.map (·.codes)).flatten, scales := (cs.map (·.scales)).flatten,
      clips := cs.foldl (fun a c => a + c.clips) 0, nonfin := nonfin, errs := (cs.map (·.errs)).flatten }
  | _ => { codes := row, nonfin := nonfin }

/-- The addend of one element's squared error (R120): ⌊e² × 2^shift⌋, at most 2^32 − 1. -/
def sqAddend (shift e : Nat) : Nat :=
  if F32.isFinite e then
    let d := F32.toDy e
    let v := (Dy.floor ⟨d.man * d.man, 2 * d.exp + shift⟩).toNat
    if 0xFFFFFFFF < v then 0xFFFFFFFF else v
  else 0xFFFFFFFF

/-! The product path (R103 to R106). Modes are numbered as R452 numbers them. -/

/-- A stored code of `bits` bits as a signed integer. -/
def signedCode (bits v : Nat) : Int :=
  let x := v % 2 ^ bits
  if 2 ^ (bits - 1) ≤ x then (x : Int) - (2 ^ bits : Nat) else x

/-- The weight code of input row k, output column c, from a buffer's bytes (R103). -/
def weightCode (mode : Nat) (buf : Nat → Nat) (k c : Nat) : Int :=
  match mode with
  | 1 => if c < 64 then signedCode 4 (buf (64 * k + c)) else signedCode 4 (buf (64 * k + (c - 64)) / 16)
  | 3 => let b := buf (32 * k + c / 2); signedCode 4 (if c % 2 = 0 then b else b / 16)
  | 5 => let b := buf (32 * k + c / 2); signedCode 4 (if c % 2 = 0 then b else b / 16)
  | _ => signedCode 8 (buf (64 * k + c))

/-- The bytes of a slab's 64 tokens as a key load leaves them in a buffer: transposed, tokens as output columns and
elements as input rows (R139, R154). -/
def keySlab (bits : Nat) (slab : Nat → Nat) : List Nat :=
  if bits = 4 then
    (List.range 2048).map (fun i =>
      let k := i / 32
      let nib (c : Nat) : Nat := if k % 2 = 0 then slab (32 * c + k / 2) % 16 else slab (32 * c + k / 2) / 16 % 16
      nib (2 * (i % 32)) + 16 * nib (2 * (i % 32) + 1))
  else (List.range 4096).map (fun i => slab (64 * (i % 64) + i / 64))

/-- The column scales of a value slab: the weights carry the scale of each token already (R154 item 3), so 1.0 in
BF16. -/
def unitScales : List Nat := (List.range 128).map (fun i => if i % 2 = 0 then 0x80 else 0x3F)

/-- Group scale of a column, from the trailer's bytes: the magnitude, sign ignored (R104). -/
def groupScale (trailer : Nat → Nat) (c : Nat) : Nat :=
  let b := trailer (if c < 64 then c else 192 + (c - 64)) % 128
  F32.ofDy 0 (E4M3.toDy b)

/-- The scale of a column: the group scale of a block (R104), or the BF16 scale of a slab's column (R154). -/
def columnScale (slab : Bool) (trailer : Nat → Nat) (c : Nat) : Nat :=
  if slab then BF16.toF32 (trailer (2 * c) + 256 * trailer (2 * c + 1)) else groupScale trailer c

/-- Column sum of a column, from the trailer's bytes (R104). -/
def colSum (trailer : Nat → Nat) (c : Nat) : Int :=
  let o := if c < 64 then 64 + 2 * c else 192 + 64 + 2 * (c - 64)
  signedCode 16 (trailer o + 256 * trailer (o + 1))

/-- Output columns of a mode (R77). -/
def modeColumns (mode : Nat) : Nat := if mode = 1 then 128 else 64

/-- The block partial of one row and column as FP32 (R105): A8 codes and zero point, FP8 codes, or BF16 values. A row with an FP8
NaN gives NaN. -/
def blockPartial (mode : Nat) (buf trailer : Nat → Nat) (act : List Nat) (zp c : Nat) : Nat :=
  let idx := List.range 64
  match mode with
  | 0 | 1 =>
    F32.ofInt (idx.foldl (fun (s : Int) k => s + (nth act k : Int) * weightCode mode buf k c) 0
      - (zp : Int) * colSum trailer c)
  | 2 | 3 =>
    if idx.any (fun k => E4M3.isNan (nth act k)) then F32.nan (act.foldl (fun v x => 256 * v + x) 0) c
    else F32.ofDy 0 (idx.foldl (fun s k =>
      Dy.add s (Dy.mul (E4M3.toDy (nth act k)) (Dy.ofInt (weightCode mode buf k c)))) ⟨0, 0⟩)
  | _ =>
    idx.foldl (fun s k => F32.add s (F32.mul (BF16.toF32 (nth act k)) (F32.ofInt (weightCode mode buf k c)))) 0

/-- The tally value after one pass (R105, R81): scaled partial stored, or added to the value there. -/
def tallyAfter (clear : Bool) (old scale p : Nat) : Nat :=
  let v := F32.mul p scale
  if clear then v else F32.add old v

/-- The value the element pipeline reads at release: tally × F, F = s_a × S_t (R106). -/
def releaseRead (tally sa st : Nat) : Nat := F32.mul tally (F32.mul sa st)

/-! Operations behind the product (R126). Each operation is rounded once; the factors of a term are multiplied from left
to right. -/

/-- An operation on each element of a row and of another, or on each element and the one element of the other. -/
def zipRow (op : Nat → Nat → Nat) (x y : List Nat) : List Nat :=
  if y.length = 1 then x.map (fun v => op v (nth y 0)) else (List.range x.length).map (fun i => op (nth x i) (nth y i))

/-- silu(g) × u = g × sigmoid(g) × u. -/
def gatedProduct (sig : List Nat) (g u : Nat) : Nat := F32.mul (F32.mul g (fnSigmoid sig g)) u

/-- 0.5 × x × (1 + tanh(0.7978846 × (x + 0.044715 × x³))), with both constants as the nearest FP32 values. -/
def geluOf (tanhTab : List Nat) (x : Nat) : Nat :=
  let cube := F32.mul (F32.mul x x) x
  let inner := F32.mul 0x3F4C422A (F32.add x (F32.mul 0x3D372713 cube))
  F32.mul (F32.mul 0x3F000000 x) (F32.add F32.one (fnTanh tanhTab inner))

/-- The mean of a row (R124). -/
def rowMean (row : List Nat) : Nat := F32.div (rowSum row) (F32.ofInt row.length)

/-- 1/√(mean of squares + ε). -/
def invRms (rsq : List Nat) (eps : Nat) (row : List Nat) : Nat :=
  fnRsqrt rsq (F32.add (rowMean (row.map (fun v => F32.mul v v))) eps)

/-- RMS normalisation: x × 1/√(Σx² ÷ LEN + ε) × γ. -/
def rmsNorm (rsq : List Nat) (eps : Nat) (row gamma : List Nat) : List Nat :=
  let r := invRms rsq eps row
  zipRow F32.mul (row.map (fun v => F32.mul v r)) gamma

/-- Layer normalisation: (x − μ) × 1/√(Σ(x − μ)² ÷ LEN + ε) × γ + β, with μ from a first pass. -/
def layerNorm (rsq : List Nat) (eps : Nat) (row gamma beta : List Nat) : List Nat :=
  let mu := rowMean row
  let d := row.map (fun v => F32.sub v mu)
  let r := invRms rsq eps d
  zipRow F32.add (zipRow F32.mul (d.map (fun v => F32.mul v r)) gamma) beta

/-- Position rotation: each pair (x₂ᵢ, x₂ᵢ₊₁) rotated by the cosine and sine of its angle. -/
def rotatePairs (row cos sin : List Nat) : List Nat :=
  ((List.range (row.length / 2)).map (fun i =>
    let a := nth row (2 * i)
    let b := nth row (2 * i + 1)
    [F32.sub (F32.mul a (nth cos i)) (F32.mul b (nth sin i)), F32.add (F32.mul a (nth sin i)) (F32.mul b (nth cos i))])).flatten

/-! The attention step (R153, R154). -/

/-- m' = the larger of the running maximum and the block's maximum over its unmasked positions, the first `n`. -/
def attMax (n m : Nat) (scores : List Nat) : Nat := F32.max m (rowMax (scores.take n))

/-- w = exp2((s − m') × κ) for the first `n` positions; a masked position has none, 0 here. -/
def attWeights (expTab : List Nat) (k n m : Nat) (scores : List Nat) : List Nat :=
  (List.range scores.length).map (fun i =>
    if i < n then fnExp2 expTab (F32.mul (F32.sub (nth scores i) m) k) else 0)

/-- exp2((m − m') × κ), what the old sum and output are multiplied by. -/
def attRescale (expTab : List Nat) (k mOld m : Nat) : Nat := fnExp2 expTab (F32.mul (F32.sub mOld m) k)

/-- l × exp2((m − m') × κ) + Σw. -/
def attSum (expTab : List Nat) (k mOld m l : Nat) (w : List Nat) : Nat :=
  F32.add (F32.mul l (attRescale expTab k mOld m)) (rowSum w)

/-- o × exp2((m − m') × κ) + the block's result. -/
def attOut (expTab : List Nat) (k mOld m : Nat) (o block : List Nat) : List Nat :=
  zipRow F32.add (o.map (fun v => F32.mul v (attRescale expTab k mOld m))) block

/-! Recurrent state (R130 to R132). -/

/-- h' = fl(fl(a × h) + b). -/
def stateUpdate (a h b : Nat) : Nat := F32.add (F32.mul a h) b

/-- One stage of the segmented scan within a block of 64 (R131). -/
def scanStage (t : Nat) (ps : List (Nat × Nat)) : List (Nat × Nat) :=
  (List.range ps.length).map (fun q =>
    let cur := ps.getD q (0, 0)
    if 2 ^ t ≤ q then
      let prev := ps.getD (q - 2 ^ t) (0, 0)
      (F32.mul prev.1 cur.1, F32.add (F32.mul cur.1 prev.2) cur.2)
    else cur)

/-- Stages 0 to 5 of one block. -/
def scanBlock (ps : List (Nat × Nat)) : List (Nat × Nat) :=
  (List.range 6).foldl (fun acc t => scanStage t acc) ps

/-- The scan of a chunk's channel: the blocks in order, the carry from the last position of each (R131). -/
def scanRow : Nat → Nat → List (Nat × Nat) → List Nat
  | 0, _, _ => []
  | fuel + 1, carry, ps =>
    let hs := (scanBlock (ps.take 64)).map (fun p => stateUpdate p.1 carry p.2)
    hs ++ scanRow fuel (nth hs (hs.length - 1)) (ps.drop 64)

/-- The pairs of a chunk: a reset mark at index m takes a = 0 there (R132); positions past the prompt take (1, 0). -/
def scanPairs (a b : List Nat) (mark : Option Nat) (valid : Nat) : List (Nat × Nat) :=
  (List.range a.length).map (fun q =>
    if valid ≤ q then (F32.one, 0)
    else if mark = some q then (0, nth b q)
    else (nth a q, nth b q))

/-! Sampling (R291). -/

/-- Insert a token into a list ordered by descending probability, ties by lower identifier. -/
def insertTok (e : Nat × Nat) : List (Nat × Nat) → List (Nat × Nat)
  | [] => [e]
  | f :: rest =>
    if F32.lt f.2 e.2 || (!F32.lt e.2 f.2 && decide (e.1 < f.1)) then e :: f :: rest
    else f :: insertTok e rest

/-- The shortest prefix whose running sum reaches a bound, or all. -/
def topPrefix (bound : Nat) : Nat → List (Nat × Nat) → List (Nat × Nat)
  | _, [] => []
  | acc, e :: rest =>
    let s := F32.add acc e.2
    if F32.lt s bound then e :: topPrefix bound s rest else [e]

/-- The first token whose running sum exceeds t, or the last. -/
def pickTok (t : Nat) : Nat → Nat → List (Nat × Nat) → Nat
  | last, _, [] => last
  | _, acc, e :: rest =>
    let s := F32.add acc e.2
    if F32.lt t s then e.1 else pickTok t e.1 s rest

/-- The index of the largest logit, lowest identifier among equals. -/
def argMax (logits : List Nat) : Nat :=
  ((List.range logits.length).foldl (fun (best : Nat) i => if F32.lt (nth logits best) (nth logits i) then i else best) 0)

/-- softmax of a row under R124 and R125: exp2 and reciprocal tables of the kernel image. -/
def softmaxRow (expTab recTab : List Nat) (log2e : Nat) (row : List Nat) : List Nat :=
  let m := rowMax row
  let w := row.map (fun x => fnExp2 expTab (F32.mul (F32.sub x m) log2e))
  let r := fnRecip recTab (rowSum w)
  w.map (fun x => F32.mul x r)

/-- The token of a step (R291). -/
def sampleToken (expTab recTab : List Nat) (temperature topP topK seed64 pos : Nat) (logits : List Nat) : Nat :=
  if F32.isZero temperature then argMax logits
  else
    let p := softmaxRow expTab recTab 0x3FB8AA3B (logits.map (fun x => F32.div x temperature))
    let order := (List.range p.length).foldl (fun acc i => insertTok (i, nth p i) acc) []
    let kept := topPrefix topP 0 (if topK = 0 then order else order.take topK)
    let z := kept.foldl (fun acc e => F32.add acc e.2) 0
    let seed := Nat.xor (seed64 % 2 ^ 32) (seed64 / 2 ^ 32 % 2 ^ 32)
    let u := F32.ofDy 0 ⟨(lfsrSteps 32 (lfsrSeed seed pos 0xFFFF 0) / 256 : Nat), -24⟩
    pickTok (F32.mul u z) (nth (kept.map (·.1)) (kept.length - 1)) 0 kept

end Sys2Proof.Machine
end

