-- ==== Sys2Proof/Machine/Hash.lean ====
section
/-! DEFINITION. The two check functions that record formats use: CRC32C and SHAKE256. -/

namespace Sys2Proof.Machine

/-! CRC32C: the Castagnoli polynomial, bits reflected, register and result complemented. -/

/-- Eight shifts of the register. -/
def crcShift : Nat → BitVec 32 → BitVec 32
  | 0, c => c
  | n + 1, c => crcShift n (if c.getLsbD 0 then (c >>> 1) ^^^ 0x82F63B78#32 else c >>> 1)

/-- One byte into the register. -/
def crcByte (c : BitVec 32) (b : Byte) : BitVec 32 := crcShift 8 (c ^^^ b.zeroExtend 32)

/-- CRC32C of a byte string. -/
def crc32c (bs : List Byte) : Nat := (~~~ (bs.foldl crcByte 0xFFFFFFFF#32)).toNat

/-! SHAKE256: Keccak-f[1600] with rate 136, domain bits 1111. The state is 25 lanes, lane x + 5y at place x + 5y. -/

abbrev Lane := BitVec 64

/-- Lane `i` of a state. -/
def lane (a : List Lane) (i : Nat) : Lane := a.getD i 0

/-- The rotation offsets of step ρ. -/
def rhoOff : List Nat :=
  [0, 1, 62, 28, 27, 36, 44, 6, 55, 20, 3, 10, 43, 25, 39, 41, 45, 15, 21, 8, 18, 2, 61, 56, 14]

/-- Step θ. -/
def theta (a : List Lane) : List Lane :=
  let c := (List.range 5).map (fun x =>
    lane a x ^^^ lane a (x + 5) ^^^ lane a (x + 10) ^^^ lane a (x + 15) ^^^ lane a (x + 20))
  (List.range 25).map (fun i => lane a i ^^^ lane c ((i % 5 + 4) % 5) ^^^ (lane c ((i % 5 + 1) % 5)).rotateLeft 1)

/-- Steps ρ and π: lane (y, 2x + 3y) takes lane (x, y) rotated. -/
def rhoPi (a : List Lane) : List Lane :=
  (List.range 25).map (fun i =>
    let x := (i % 5 + 3 * (i / 5)) % 5
    let j := x + 5 * (i % 5)
    (lane a j).rotateLeft (rhoOff.getD j 0))

/-- Step χ. -/
def chi (a : List Lane) : List Lane :=
  (List.range 25).map (fun i =>
    let r := i / 5 * 5
    lane a i ^^^ (~~~ lane a (r + (i % 5 + 1) % 5) &&& lane a (r + (i % 5 + 2) % 5)))

/-- The round constants of step ι. -/
def roundConst : List Lane :=
  [0x0000000000000001, 0x0000000000008082, 0x800000000000808A, 0x8000000080008000, 0x000000000000808B,
   0x0000000080000001, 0x8000000080008081, 0x8000000000008009, 0x000000000000008A, 0x0000000000000088,
   0x0000000080008009, 0x000000008000000A] ++
  [0x000000008000808B, 0x800000000000008B, 0x8000000000008089, 0x8000000000008003, 0x8000000000008002,
   0x8000000000000080, 0x000000000000800A, 0x800000008000000A, 0x8000000080008081, 0x8000000000008080,
   0x0000000080000001, 0x8000000080008008]

/-- One round. -/
def keccakRound (a : List Lane) (rc : Lane) : List Lane :=
  match chi (rhoPi (theta a)) with
  | [] => []
  | l :: rest => (l ^^^ rc) :: rest

/-- The permutation. -/
def keccakF (a : List Lane) : List Lane := roundConst.foldl keccakRound a

/-- Absorb one 136-byte block. -/
def absorb (a : List Lane) (block : List Byte) : List Lane :=
  keccakF ((List.range 25).map (fun i =>
    if i < 17 then lane a i ^^^ BitVec.ofNat 64 (leNat ((block.drop (8 * i)).take 8)) else lane a i))

/-- Absorb whole blocks, at most `n` of them. -/
def absorbAll : Nat → List Lane → List Byte → List Lane
  | 0, a, _ => a
  | n + 1, a, bs => absorbAll n (absorb a (bs.take 136)) (bs.drop 136)

/-- The message padded to whole blocks: 0x1F, zeros, and the top bit of the last byte. -/
def shakePad (bs : List Byte) : List Byte :=
  let m := bs ++ [0x1F]
  let z := (136 - m.length % 136) % 136
  let p := m ++ List.replicate z 0
  p.take (p.length - 1) ++ [p.getD (p.length - 1) 0 ||| 0x80]

/-- The first 32 bytes of SHAKE256. -/
def shake256 (bs : List Byte) : List Byte :=
  let p := shakePad bs
  let a := absorbAll (p.length / 136) (List.replicate 25 0) p
  ((List.range 4).map (fun i => leBytes 8 (lane a i).toNat)).flatten

end Sys2Proof.Machine
end

