-- ==== Sys2Proof/Machine/Stall.lean ====
section
/-! DEFINITION. Uniform stalls of a partition (R33 to R37): asserting a cause, clearing one, and the charge of a stall's
beats. -/

namespace Sys2Proof.Machine

/-- The four causes of a stall (R37), numbered as their counters stand in the ITN block. -/
inductive Cause where
  | retry | droop | clock | booking
  deriving DecidableEq, Repr

/-- A cause's number. -/
def Cause.num : Cause → Nat
  | .retry => 0
  | .droop => 1
  | .clock => 2
  | .booking => 3

/-- The stall counter of a cause, by its number. -/
def stallCounter (p : Nat) : Nat → Fld
  | 0 => Reg.ITN_P_STALL_RETRY p
  | 1 => Reg.ITN_P_STALL_DROOP p
  | 2 => Reg.ITN_P_STALL_CLOCK p
  | _ => Reg.ITN_P_STALL_BOOKING p

/-- Whether a cause is asserted. -/
def Stall.any (x : Stall) : Bool := x.retry || x.droop || x.clock || x.booking

/-- A stall with a cause set or cleared. A cause that asserts joins the causes seen in this stall (R35). -/
def Stall.put (x : Stall) (c : Cause) (b : Bool) : Stall :=
  let y := match c with
    | .retry => { x with retry := b }
    | .droop => { x with droop := b }
    | .clock => { x with clock := b }
    | .booking => { x with booking := b }
  if b && !(y.seen.contains c.num) then { y with seen := y.seen ++ [c.num] } else y

/-- Whether a stall is in progress: a cause was asserted and the stall has not ended. -/
def Stall.on (x : Stall) : Bool := !x.seen.isEmpty

/-- The states a tile reports (TIL_STATUS.STATE). -/
def setTileStates (s : State) (p v : Nat) : State :=
  overList (s.part p).tiles (fun n t => t.wr (Reg.TIL_STATUS_STATE n) v) s

/-- A partition whose timetable advances: a step is in progress. -/
def Part.advances (x : Part) : Bool := x.inStep

/-- Assert a stall cause on a running partition (R33): its engines hold. -/
def stallAssert (s : State) (p : Nat) (c : Cause) : State :=
  if (s.part p).busy then
    let s := s.updPart p (fun x => { x with stall := x.stall.put c true })
    let s := s.wr (Reg.ITN_P_STATUS_STATE p) 3
    setTileStates s p 6
  else s

/-- Clear a stall cause; the stall itself ends at STALL_END (R34, R36). -/
def stallClear (s : State) (p : Nat) (c : Cause) : State :=
  s.updPart p (fun x => { x with stall := x.stall.put c false })

/-- Charge a number of beats to causes and to the total once (R35). -/
def chargeStall (s : State) (p beats : Nat) (causes : List Nat) : State :=
  let s := overList causes (fun c t => t.add (stallCounter p c) beats) s
  s.add (Reg.ITN_P_STALL_TOTAL p) beats

end Sys2Proof.Machine
end

