-- ==== Sys2Proof/Machine/PowerModel.lean ====
section
/-! DEFINITION. Power control's rules that other families use too: the divider set, the floor (R27, R358), the power
model and the cap divider (R361), the throttle reasons and the divider they require (R364 to R366), the core voltage
(R359), and what a divider change does (R356). -/

namespace Sys2Proof.Machine

/-- The divider set, fastest first (R354). -/
def dividers : List Nat := [4, 5, 6, 8, 12]

/-- The next slower divider. -/
def slower (d : Nat) : Nat := (dividers.find? (fun e => decide (d < e))).getD 12

/-- The next faster divider. -/
def faster (d : Nat) : Nat := (dividers.reverse.find? (fun e => decide (e < d))).getD 4

/-- s(d) in thousandths (R361). -/
def scaleOf (d : Nat) : Nat :=
  if d = 4 then 1000 else if d = 5 then 720 else if d = 6 then 540 else if d = 8 then 340 else 180

/-- The numbers of the tiles of a mask. -/
def maskTiles (m : Nat) : List Nat := (List.range 32).filter (fun n => bitOf m n)

/-- The sum of a list. -/
def sumNat (l : List Nat) : Nat := l.foldl (· + ·) 0

/-- The largest of a list, at least `a`. -/
def maxOf (a : Nat) (l : List Nat) : Nat := l.foldl maxNat a

/-- The floor of a set of tiles: the largest MAXDIV among them, and never below 4 (R358, R371). -/
def floorOf (s : State) (mask : Nat) : Nat :=
  maxOf 4 ((maskTiles mask).map (fun n => s.rd (Reg.PWR_TILE_MAXDIV n)))

/-- The power of a set of tiles at divider 4, in mW. -/
def sumK (s : State) (mask : Nat) : Nat :=
  sumNat ((maskTiles mask).map (fun n => s.rd (Reg.PWR_TILE_K_MW n)))

/-- The masks of the partitions of the map in force; none before an activation (R71). -/
def mapMasks (s : State) : List Nat := s.mapForce.getD []

/-- The cap divider of partition `p` of a map at a cap in watts (R361). -/
def capDivOf (s : State) (masks : List Nat) (p cap : Nat) : Nat :=
  let mask := masks.getD p 0
  let np := (maskTiles mask).length
  let n := sumNat (masks.map (fun m => (maskTiles m).length))
  let budget : Int := (cap * 1000 : Nat) - (s.rd Reg.PWR_UNCORE_PU_DW * 100 : Nat)
    - ((32 - n) * s.rd Reg.PWR_UNCORE_PARK_MW : Nat)
  let floor := floorOf s mask
  let k := sumK s mask
  (dividers.find? (fun d => decide (floor ≤ d) &&
    decide (((k * scaleOf d * n : Nat) : Int) ≤ budget * (np * 1000 : Nat)))).getD 12

/-- The map that SRV_EVAL uses: the map in force, or with none all tiles that have not failed their start as one
partition (R363). -/
def evalMasks (s : State) : List Nat :=
  match s.mapForce with
  | some m => m
  | none => [sumNat ((List.range 32).map (fun n => if s.rd (Reg.PWR_TILE_MAXDIV n) = 255 then 0 else 2 ^ n))]

/-- The floor of a partition of the map in force. -/
def partFloor (s : State) (p : Nat) : Nat := floorOf s ((mapMasks s).getD p 0)

/-- The cap divider of a partition at the cap in force. -/
def partCapDiv (s : State) (p : Nat) : Nat := capDivOf s (mapMasks s) p s.pwr.capNow

/-- The divider in use of partition `p`; 0 when IDLE. -/
def divOf (s : State) (p : Nat) : Nat := s.rd (Reg.ITN_P_STATUS_DIVIDER p)

def Power.capWant (x : Power) (p : Nat) : Nat := if p = 0 then x.capWant0 else x.capWant1
def Power.setCapWant (x : Power) (p d : Nat) : Power := if p = 0 then { x with capWant0 := d } else { x with capWant1 := d }
def Power.wait (x : Power) (p : Nat) : Option Nat := if p = 0 then x.wait0 else x.wait1
def Power.setWait (x : Power) (p : Nat) (d : Option Nat) : Power := if p = 0 then { x with wait0 := d } else { x with wait1 := d }
def Power.lastChange (x : Power) (p : Nat) : Nat := if p = 0 then x.lastChange0 else x.lastChange1
def Power.setLastChange (x : Power) (p t : Nat) : Power :=
  if p = 0 then { x with lastChange0 := t } else { x with lastChange1 := t }

/-- The divider a stepping reason asks of a partition. -/
def Power.step (x : Power) (reason p : Nat) : Nat := SMap.get (fun _ => 0) x.steps (reason * 2 + p)
def Power.setStep (x : Power) (reason p d : Nat) : Power :=
  { x with steps := SMap.set (fun _ => 0) x.steps (reason * 2 + p) d }

/-- The bit of a throttle reason in PWR_THR_ACTIVE. -/
def thrActive : Nat → Fld
  | 0 => Reg.PWR_THR_ACTIVE_POWER_CAP
  | 1 => Reg.PWR_THR_ACTIVE_CURRENT_LIMIT
  | 2 => Reg.PWR_THR_ACTIVE_THERMAL
  | 3 => Reg.PWR_THR_ACTIVE_EXTERNAL_BRAKE
  | 4 => Reg.PWR_THR_ACTIVE_RAIL_FAULT
  | _ => Reg.PWR_THR_ACTIVE_KEEPER_REQUEST

/-- The latched bit of a throttle reason in PWR_THR_SEEN. -/
def thrSeen : Nat → Fld
  | 0 => Reg.PWR_THR_SEEN_POWER_CAP
  | 1 => Reg.PWR_THR_SEEN_CURRENT_LIMIT
  | 2 => Reg.PWR_THR_SEEN_THERMAL
  | 3 => Reg.PWR_THR_SEEN_EXTERNAL_BRAKE
  | 4 => Reg.PWR_THR_SEEN_RAIL_FAULT
  | _ => Reg.PWR_THR_SEEN_KEEPER_REQUEST

/-- Whether a reason other than POWER_CAP is active: steps are exempt (R323, R364). -/
def otherReason (s : State) : Bool := [1, 2, 3, 4, 5].any (fun r => s.flag (thrActive r))

/-- Make the steps in progress exempt (R364). -/
def markExempt (s : State) : State :=
  { s with part0 := { s.part0 with exempt := true }, part1 := { s.part1 with exempt := true } }

/-- Set a reason's active bit; on 0 to 1 it is latched and THROTTLE is raised (R364). -/
def setReason (s : State) (r : Nat) (b : Bool) : State :=
  if b == s.flag (thrActive r) then s
  else if b then
    let s := (s.wr (thrActive r) 1).wr (thrSeen r) 1
    let s := s.raisePwr Reg.PWR_IRQ_STATUS_THROTTLE
    if r = 0 then s else markExempt s
  else s.wr (thrActive r) 0

/-- The largest divider that the floor and every reason but FORCE_DIV require of a partition (R364). -/
def needBase (s : State) (p : Nat) : Nat :=
  let d := maxNat (partFloor s p) (s.pwr.capWant p)
  let d := maxNat (maxNat d (s.pwr.step 1 p)) (maxNat (s.pwr.step 2 p) (s.pwr.step 5 p))
  if s.pwr.thermHw || s.flag Reg.PWR_STATUS_BRAKE_IN || s.pwr.railOut then maxNat d 12 else d

/-- The divider required of a partition, FORCE_DIV included. -/
def need (s : State) (p : Nat) : Nat := maxNat (needBase s p) (s.rd (Reg.PWR_P_DIV_FORCE_DIV p))

/-- The divider a partition goes to: the divider required, or DIV_LIMIT (R366). -/
def target (s : State) (p : Nat) : Nat := minNat (need s p) (s.part p).divLimit

/-- Bring the reasons that follow from other state up to date: POWER_CAP, KEEPER_REQUEST, and the stall of a partition
whose required divider exceeds its DIV_LIMIT while its floor does not (R364, R366). -/
def powerSettle (s : State) : State :=
  let run := [0, 1].filter (fun p => (s.part p).busy)
  let s := setReason s 0 (run.any (fun p => decide (partFloor s p < s.pwr.capWant p)))
  let s := setReason s 5 (s.pwr.celOn ||
    run.any (fun p => decide (needBase s p < s.rd (Reg.PWR_P_DIV_FORCE_DIV p))))
  let s := setReason s 1 s.pwr.curOn
  let s := setReason s 2 (s.pwr.thermHw || s.pwr.thermOn)
  let s := setReason s 3 (s.flag Reg.PWR_STATUS_BRAKE_IN)
  let s := setReason s 4 s.pwr.railOut
  overList run (fun p t =>
    if decide ((t.part p).divLimit < need t p) && decide (partFloor t p ≤ (t.part p).divLimit) then
      if (t.part p).stall.clock then t else stallAssert t p .clock
    else if (t.part p).stall.clock then stallClear t p .clock else t) s

/-- V(d), inside the range the Strongroom passes (R359, R371). -/
def voltFor (s : State) (d : Nat) : Nat :=
  let v := Config.fusedVolt d
  minNat (maxNat v (s.rd Reg.SRM_LIMITS1_VMIN_MV)) (s.rd Reg.SRM_LIMITS1_VMAX_MV)

/-- The voltage that the dividers of the running partitions ask for, V(12) when none runs (R359). -/
def voltWanted (s : State) : Nat :=
  let l := ([0, 1].filter (fun p => (s.part p).busy)).map (fun p => voltFor s (divOf s p))
  if l.isEmpty then voltFor s 12 else maxOf 0 l

/-- Order a voltage on the PMBus, or after three unacknowledged retries leave it and record PWR_E_VR, abandoning the
speed-ups that wait (R359). -/
def pmbus (s : State) (mv : Nat) (ok : Bool) : State :=
  if mv = s.pwr.setpoint then s
  else if ok then
    let s := { s with pwr := { s.pwr with setpoint := mv } }
    let s := if s.ready then s.wr Reg.PWR_STATUS_VDD_MV mv else s
    s.emit (.pmbus mv)
  else
    let s := { s with pwr := { s.pwr with wait0 := none, wait1 := none } }
    (s.rep Code.PWR_E_VR 0).raisePwr Reg.PWR_IRQ_STATUS_VR

/-- Put a partition at a divider at its beat boundary (R356): one beat of stall with cause clock change, charged to a
stall in progress where there is one (R374), and none for a partition that waits. -/
def setDivider (s : State) (p d : Nat) : State :=
  let x := s.part p
  let s := (s.trace 40 0 [p, d, 0, 0]).wr (Reg.ITN_P_STATUS_DIVIDER p) d
  let s := overList x.tiles (fun n t => t.wr (Reg.TIL_STATUS_DIV n) d) s
  let s := s.inc (Reg.PWR_P_CHANGES p)
  let s := { s with pwr := (s.pwr.setLastChange p s.timeUs).setWait p none }
  if x.stage == .waiting then s
  else if x.stall.on then
    s.updPart p (fun y => if y.stall.seen.contains 2 then y else
      { y with stall := { y.stall with seen := y.stall.seen ++ [2] } })
  else chargeStall s p 1 [2]

/-- Add one step to what a stepping reason asks of every running partition: one above the divider in use (R364). -/
def stepAll (s : State) (reason : Nat) : State :=
  let run := [0, 1].filter (fun p => (s.part p).busy)
  { s with pwr := run.foldl (fun w p => w.setStep reason p (slower (maxNat (divOf s p) (w.step reason p)))) s.pwr }

/-- Drop what a stepping reason asks. -/
def stepNone (s : State) (reason : Nat) : State :=
  { s with pwr := [0, 1].foldl (fun w p => w.setStep reason p 0) s.pwr }

/-- Whether a d_P answered since COLD_RST_N differs from one state to another (R322, R358). -/
def evalChanged (s t : State) : Bool :=
  s.pwr.queried.any (fun q => capDivOf s (evalMasks s) q.1 q.2 != capDivOf t (evalMasks t) q.1 q.2)

end Sys2Proof.Machine
end

