-- ==== Sys2Proof/Machine/Parse.lean ====
section
/-! DEFINITION. The itinerary image: its header, directory and sections (R48 to R60, R117 to R119, R127, R140, R209,
R345, R452) as records, and the rules of check 6 (R455) that the fields of one section, or of two, obey. An image
names the member it is compiled for (R3); a reserved field of a section has the range 0 (R116). -/

namespace Sys2Proof.Machine

/-- A reader of little-endian fields by offset and size. -/
abbrev Rd := Nat → Nat → Nat

/-- The reader of a byte string; bytes beyond its end read 0. -/
def rdOf (b : List Byte) : Rd := fun off n => recField b off n

/-- The reader of a section. -/
def rdAt (rd : Rd) (base : Nat) : Rd := fun off n => rd (base + off) n

/-- Whether a number lies in a range (both ends included). -/
def inRange (lo hi n : Nat) : Bool := decide (lo ≤ n) && decide (n ≤ hi)

/-- A positive, finite FP32 pattern. -/
def posFinite (x : Nat) : Bool := decide (0 < x) && decide (x < 0x7F800000)

/-! Header and directory. -/

/-- The header (R49). -/
structure Header where
  minor : Nat
  major : Nat
  member : Nat
  partitions : Nat
  windowLog2 : Nat
  chainWindow : Nat
  compat : Nat
  sections : Nat
  totalLen : Nat
  deriving DecidableEq, Repr

def readHeader (rd : Rd) : Header :=
  { minor := rd 4 2, major := rd 6 2, member := rd 8 2, partitions := rd 0xA 1, windowLog2 := rd 0xB 1
    chainWindow := rd 0xC 1, compat := rd 0x10 4, sections := rd 0x14 2, totalLen := rd 0x18 8 }

/-- A partition descriptor (R50). -/
def readPart (rd : Rd) : PartDesc :=
  { role := rd 0 1, divLimit := rd 1 1, maxRows := rd 2 2, tileMask := rd 4 4, tFix := rd 8 4, tScatter := rd 0xC 4
    bCel := rd 0x10 4, bDram := rd 0x14 4, chunkTokens := rd 0x18 4, maxStepBeats := rd 0x1C 4 }

/-- A directory entry (R51). -/
structure Dir where
  type : Nat
  part : Nat
  off  : Nat
  len  : Nat
  crc  : Nat
  zeros : Bool
  deriving DecidableEq, Repr

def readDir (rd : Rd) (i : Nat) : Dir :=
  let r := rdAt rd (0x100 + 32 * i)
  { type := r 0 2, part := r 2 1, off := r 8 8, len := r 0x10 8, crc := r 0x18 4
    zeros := r 3 1 == 0 && r 4 4 == 0 && r 0x1C 4 == 0 }

def readDirs (rd : Rd) : List Dir := (List.range (readHeader rd).sections).map (readDir rd)

/-- The descriptors of the declared partitions. -/
def readParts (rd : Rd) : List PartDesc :=
  (List.range (minNat (readHeader rd).partitions 2)).map (fun p => readPart (rdAt rd (0x40 + 64 * p)))

/-- The first directory entry of a type and partition. -/
def findDir (dirs : List Dir) (type part : Nat) : Option Dir := dirs.find? (fun d => d.type == type && d.part == part)

/-- The reader of a section; all zeros where there is none. -/
def secRd (rd : Rd) (dirs : List Dir) (type part : Nat) : Rd :=
  match findDir dirs type part with
  | some d => rdAt rd d.off
  | none => fun _ _ => 0

/-- The length of a section; 0 where there is none. -/
def secLen (dirs : List Dir) (type part : Nat) : Nat :=
  match findDir dirs type part with
  | some d => d.len
  | none => 0

/-- Whether the header's fields lie in their ranges (check 6): WINDOW_LOG2 and CHAIN_WINDOW_LOG2 are left to check 11. -/
def headerOk (rd : Rd) : Bool :=
  let h := readHeader rd
  inRange 1 2 h.partitions && rd 0xD 3 == 0 && inRange 1 256 h.sections && rd 0x16 2 == 0 && rd 0x30 16 == 0 &&
  rd 0xC4 56 == 0 && (h.partitions != 1 || rd 0x80 64 == 0) &&
  (List.range h.partitions).all (fun p =>
    let r := rdAt rd (0x40 + 64 * p)
    let d := readPart r
    decide (d.role ≤ 2) && dividers.contains d.divLimit && d.maxRows % 64 == 0 && (d.role != 1 || d.maxRows == 0) &&
    (if d.role = 2 then d.chunkTokens == 0 else inRange 64 1024 d.chunkTokens) && r 0x20 32 == 0)

/-! Bank plan and timetable. -/

def readPhase (rd : Rd) (i : Nat) : PhaseEntry :=
  let r := rdAt rd (32 * i)
  { seg := r 0 2, start := r 4 4, tile := r 8 1, owners := r 0x10 16 }

def readPlan (rd : Rd) (len : Nat) : List PhaseEntry := (List.range (len / 32)).map (readPhase rd)

def planOk (rd : Rd) (len : Nat) : Bool :=
  (List.range (len / 32)).all (fun i =>
    let r := rdAt rd (32 * i)
    r 2 2 == 0 && decide (r 8 1 < 32) && r 9 7 == 0)

/-- The owner code of a bank. -/
def ownerOf (owners k : Nat) : Nat := bitsOf owners (4 * k) 4

def readSegs (rd : Rd) : List Segment :=
  (List.range (rd 0 2)).map (fun i =>
    let r := rdAt rd (16 + 16 * i)
    { segId := r 0 2, repeatSrc := r 2 1, lenBeats := r 4 4, maxRepeat := r 8 4, firstEntry := r 0xC 4 })

def readEntry (rd : Rd) (nseg j : Nat) : TimeEntry :=
  let r := rdAt rd (16 + 16 * nseg + 16 * j)
  { start := r 0 4, len := r 4 2, cls := r 6 1, flags := r 7 1, index := r 8 2, seg := r 0xA 2, opRef := r 0xC 4 }

def readEntries (rd : Rd) : List TimeEntry := (List.range (rd 4 4)).map (readEntry rd (rd 0 2))

/-- The largest RES_INDEX of a class (R58). -/
def indexMax : Nat → Nat
  | 0 => 63 | 1 => 63 | 2 => 127 | 3 => 31 | 4 => 1023 | 5 => 63 | 6 => 31 | 7 => 31 | _ => 1

/-- The segment that FIRST_ENTRY places an entry in: the last whose FIRST_ENTRY is not beyond it. -/
def placedIn (segs : List Segment) (j : Nat) : Nat :=
  ((segs.filter (fun g => decide (g.firstEntry ≤ j))).length) - 1

/-- Whether a list of numbers rises, equal neighbours allowed. -/
def rising : List Nat → Bool
  | a :: b :: rest => decide (a ≤ b) && rising (b :: rest)
  | _ => true

/-- Neighbouring entries of a segment stand in START_BEAT order. -/
def entriesSorted : List TimeEntry → Bool
  | a :: b :: rest => (a.seg != b.seg || decide (a.start ≤ b.start)) && entriesSorted (b :: rest)
  | _ => true

/-- The stated ranges of a TIMETABLE section (R57). -/
def timetableOk (rd : Rd) (len : Nat) : Bool :=
  let n := rd 0 2
  let ne := rd 4 4
  let segs := readSegs rd
  let ents := readEntries rd
  inRange 2 4096 n && rd 2 2 == 0 && rd 8 8 == 0 && len == 16 + 16 * (n + ne) &&
  (List.range n).all (fun i =>
    let g := segs.getD i {}
    g.segId == i && decide (g.repeatSrc ≤ 9) && rd (16 + 16 * i + 3) 1 == 0 &&
    (if g.repeatSrc = 0 then g.maxRepeat == 1 else decide (g.maxRepeat ≤ 65536)) && decide (g.firstEntry ≤ ne)) &&
  (segs.getD 0 {}).firstEntry == 0 && rising (segs.map (·.firstEntry)) &&
  (segs.getD 0 {}).repeatSrc == 0 && (segs.getD (n - 1) {}).repeatSrc == 0 &&
  (List.range ne).all (fun j =>
    let e := readEntry rd n j
    decide (1 ≤ e.len) && decide (e.cls ≤ 8) && decide (e.flags ≤ 1) && decide (e.index ≤ indexMax e.cls) &&
    e.seg == placedIn segs j && decide (e.start + e.len ≤ (segs.getD e.seg {}).lenBeats)) &&
  entriesSorted ents

/-! Hub frame. -/

def hubOk (rd : Rd) (len : Nat) : Bool :=
  inRange 64 65536 (rd 0 4) && rd 4 12 == 0 && len == 16 + rd 0 4 &&
  (List.range (rd 0 4)).all (fun i => decide (rd (16 + i) 1 < 64))

/-! Quantisation, rotation, error counters. -/

/-- A rotation entry's size and signs. -/
def rotOf (rot : Rd) (i : Nat) : Nat × Nat := (rot (16 + 64 * i) 1, rot (16 + 64 * i + 8) 32)

def readConv (rd rot : Rd) (i : Nat) : Site :=
  let r := rdAt rd (16 + 32 * i)
  let q := if r 4 1 = 0xFF then (0, 0) else rotOf rot (r 4 1)
  { siteId := r 0 2, target := r 2 1, round := r 3 1, rotLog2 := q.1, rotSigns := q.2, dynamic := r 5 1 == 1
    staticZp := r 6 1, staticScale := r 8 4, len := r 0xC 4, seed := r 0x10 4 }

def readConvs (rd rot : Rd) : List Site := (List.range (rd 0 4)).map (readConv rd rot)

/-- The stated ranges of a QUANT section (R117); SITE_ID is unique in it, and with it within the partition. -/
def quantOk (rd : Rd) (len : Nat) : Bool :=
  let nc := rd 0 4
  let nm := rd 4 4
  let conv (i : Nat) : Rd := rdAt rd (16 + 32 * i)
  decide (nc ≤ 65536) && decide (nm ≤ 65536) && [0, 4, 8].contains (rd 8 1) && rd 9 7 == 0 &&
  len == 16 + 32 * nc + 16 * nm &&
  (rd 8 1 != 0) == ((List.range nc).any (fun i => conv i 2 1 == 4)) &&
  (List.range nc).all (fun i =>
    let r := conv i
    let t := r 2 1
    (List.range i).all (fun j => conv j 0 2 != r 0 2) &&
    decide (t ≤ 4) && decide (r 3 1 ≤ 2) &&
    (t == 2 || t == 3 || decide (r 5 1 ≤ 1)) && (t != 4 || r 5 1 == 1) && r 7 1 == 0 &&
    (r 5 1 != 0 || !(t == 0 || t == 1) || posFinite (r 8 4)) && r 0xC 4 % 64 == 0 && r 0x14 12 == 0) &&
  (List.range nm).all (fun i =>
    let r := rdAt rd (16 + 32 * nc + 16 * i)
    posFinite (r 0 4) && r 8 8 == 0)

/-- The stated ranges of a ROTATION section (R118). -/
def rotOk (rd : Rd) (len : Nat) : Bool :=
  inRange 1 255 (rd 0 2) && rd 2 14 == 0 && len == 16 + 64 * rd 0 2 &&
  (List.range (rd 0 2)).all (fun i =>
    let r := rdAt rd (16 + 64 * i)
    inRange 6 8 (r 0 1) && decide (r 1 1 ≤ 1) && r 2 2 == 0 && r 4 4 == 0 && r 0x28 24 == 0 &&
    decide (r 8 32 < 2 ^ 2 ^ r 0 1) && (r 1 1 == 1 || r 8 32 == 0))

def readMse (rd : Rd) (i : Nat) : MseEntry :=
  { siteId := rd (8 * i) 2, enabled := rd (8 * i + 2) 1 == 1, shift := rd (8 * i + 3) 1, conv := rd (8 * i + 4) 4 }

/-- The stated ranges of an MSE_SITES section (R119). -/
def mseOk (rd : Rd) (len : Nat) : Bool :=
  (List.range (len / 8)).all (fun i =>
    decide (rd (8 * i + 2) 1 ≤ 1) && decide (rd (8 * i + 3) 1 ≤ 60) && (rd (8 * i + 2) 1 == 1 || rd (8 * i) 8 == 0))

/-! Streams. -/

def readStream (rd : Rd) (i : Nat) : StreamOp :=
  let r := rdAt rd (16 + 32 * i)
  { fmt := r 2 1, channels := r 4 4, offset := r 8 4, site := r 0xC 4 }

/-- The first and the last byte, less one, of an operator's state. -/
def StateSpan (o : StreamOp) : Nat × Nat := (o.offset, o.offset + o.channels * (2 + 2 * o.fmt))

/-- Whether two spans share a byte. -/
def spansMeet (a b : Nat × Nat) : Bool :=
  decide (a.1 < a.2) && decide (b.1 < b.2) && decide (a.1 < b.2) && decide (b.1 < a.2)

/-- Whether no two of a list of spans share a byte. -/
def disjoint : List (Nat × Nat) → Bool
  | [] => true
  | a :: rest => !(rest.any (spansMeet a)) && disjoint rest

/-- The stated ranges of a STREAMS section (R127). -/
def streamsOk (rd : Rd) (len : Nat) : Bool :=
  let n := rd 0 2
  let ops := (List.range n).map (readStream rd)
  inRange 1 1024 n && decide (1 ≤ rd 2 2) && rd 4 4 % 64 == 0 && decide (1 ≤ rd 8 4) && rd 0xC 4 == 0 &&
  len == 16 + 32 * n &&
  (List.range n).all (fun i =>
    let r := rdAt rd (16 + 32 * i)
    r 0 2 == i && decide (r 2 1 ≤ 1) && r 3 1 == 0 && r 4 4 % 64 == 0 && r 8 4 % 64 == 0 && r 0x10 16 == 0) &&
  disjoint (ops.map StateSpan) && ops.all (fun o => decide ((StateSpan o).2 ≤ rd 4 4))

/-! Buckets. -/

def readBuckets (rd : Rd) : Buckets :=
  { attLayers := rd 0 2, kvHeads := rd 2 1, headGroups := rd 3 1, maxLen := rd 4 4, tokblkPages := rd 8 4
    kvLayoutTag := rd 0xC 2, bucketCount := rd 0xE 1
    entries := (List.range 8).map (fun b => { tileMask := rd (64 + 16 * b) 4, maxGroups := rd (64 + 16 * b + 4) 2 }) }

/-- The smallest n with 256 × 2^(n − 1) ≥ MAX_LEN. -/
def bucketsFor (maxLen : Nat) : Nat := bucketIndex maxLen + 1
where bucketIndex (n : Nat) : Nat := ((List.range 8).find? (fun b => decide (n ≤ 256 * 2 ^ b))).getD 7

/-- The stated ranges of a BUCKETS section (R140), less TOKBLK_PAGES. -/
def bucketsOk (rd : Rd) (len : Nat) : Bool :=
  let g := readBuckets rd
  inRange 1 1024 g.attLayers && inRange 1 64 g.kvHeads && inRange 1 8 g.headGroups && inRange 64 32768 g.maxLen &&
  g.maxLen % 64 == 0 && decide (1 ≤ g.kvLayoutTag) && g.bucketCount == bucketsFor g.maxLen && rd 0xF 49 == 0 &&
  len == 192 &&
  (List.range 8).all (fun b =>
    let e := g.entries.getD b {}
    let on := decide (b < g.bucketCount)
    rd (64 + 16 * b + 6) 10 == 0 && (e.tileMask != 0) == on && (e.maxGroups != 0) == on)

/-! Cellar layout. -/

def readLayout (rd : Rd) (i : Nat) : LayoutEntry :=
  let r := rdAt rd (16 + 544 * i)
  { partition := r 0 1, form := r 1 1, modelSlot := r 2 1, baseSlot := r 3 1, layoutTag := r 4 4, baseLayoutTag := r 8 4
    arrays := (List.range 64).map (fun a => (r (0x20 + 8 * a) 4, r (0x24 + 8 * a) 4)) }

/-- The stated ranges of a CELLAR_LAYOUT section (R209). -/
def layoutOk (rd : Rd) (len : Nat) (parts : List PartDesc) : Bool :=
  rd 0 1 == parts.length && rd 1 15 == 0 && len == 16 + 544 * rd 0 1 &&
  (List.range (rd 0 1)).all (fun i =>
    let e := readLayout rd i
    let mask := (parts.getD i {}).tileMask
    e.partition == i && decide (e.form ≤ 3) && decide (e.modelSlot < 64) && e.layoutTag != 0 &&
    (if e.form < 2 then e.baseSlot == 0xFF && e.baseLayoutTag == 0 else decide (e.baseSlot < 64)) &&
    rd (16 + 544 * i + 0xC) 20 == 0 &&
    (List.range 64).all (fun a => bitOf mask (a / 2) || e.arrays.getD a (0, 0) == (0, 0)))

/-! Chain span. -/

def readSpan (rd : Rd) : ChainSpan :=
  { spanId := rd 0 16, stages := rd 0x10 1, stage := rd 0x11 1, inPort := rd 0x12 1, outPort := rd 0x13 1
    codec := rd 0x14 1, partition := rd 0x15 1, elems := rd 0x18 4, inBytes := rd 0x1C 4, outBytes := rd 0x20 4
    routes := (List.range (rd 0x16 2)).map (fun i => (rd (64 + 8 * i) 1, rd (64 + 8 * i + 1) 1)) }

/-- The stated ranges of a CHAINSPAN section (R345). -/
def spanOk (rd : Rd) (len : Nat) (parts : List PartDesc) : Bool :=
  let x := readSpan rd
  inRange 2 64 x.stages && decide (x.stage < x.stages) &&
  (if x.stage = 0 then x.inPort == 0xFF else decide (x.inPort ≤ 1)) &&
  (if x.stage + 1 = x.stages then x.outPort == 0xFF else decide (x.outPort ≤ 1)) &&
  decide (x.codec ≤ 1) && decide (x.partition < parts.length) && (parts.getD x.partition {}).role != 1 &&
  decide (rd 0x16 2 ≤ 64) && x.elems % 64 == 0 && rd 0x24 28 == 0 && len == 64 + 8 * rd 0x16 2 &&
  (List.range (rd 0x16 2)).all (fun i => decide (rd (64 + 8 * i) 1 < x.stages) && rd (64 + 8 * i + 2) 6 == 0)

/-! Kernels. -/

/-- A tile record (R452) at an offset of the image. -/
def readTileKernels (rd : Rd) (off : Nat) : TileKernels :=
  let r := rdAt rd off
  { tile := r 0 1, kernelBanks := r 4 4, threads := r 8 4, scratch := r 0xC 4, imageOff := off + r 0x20 4
    imageLen := r 0x24 4
    dir := (List.range (r 0x14 2)).map (fun k =>
      let d := rdAt r (r 0x18 4 + 32 * k)
      { cls := d 0 1, flags := d 1 1, mode := d 2 1, threads := d 8 4, bound := d 0xC 4, bankMask := d 4 4 })
    invocations := (List.range (r 0x16 2)).map (fun k =>
      let d := rdAt r (r 0x1C 4 + 8 * k)
      (d 0 2, d 2 2, d 4 2)) }

/-- The offsets of a section's tile records: each begins where the one before it ends. -/
def recordOffs (rd : Rd) : Nat → Nat → List Nat
  | 0, _ => []
  | n + 1, off => off :: recordOffs rd n (off + rd (off + 0x10) 4)

/-- The stated ranges of a directory entry. -/
def kernelOk (d : Rd) : Bool :=
  let e := d 0 1
  let fl := d 1 1
  decide (e ≤ 4) && decide (fl < 16) && (if e = 3 then decide (fl / 4 ≤ 2) else fl / 4 == 0) &&
  decide (d 2 1 ≤ (if e = 3 then 5 else if e = 4 then 1 else 0)) && d 3 1 == 0 &&
  (decide (e < 3) || (d 8 4 == 0 && d 0xC 4 == 0)) && (e != 4 || d 2 1 != 0 || d 4 4 == 0) && d 0x18 8 == 0

/-- The stated ranges of a tile record for a tile, within `room` bytes. -/
def tileKernelsOk (r : Rd) (tile room : Nat) : Bool :=
  let nk := r 0x14 2
  let ni := r 0x16 2
  let len := r 0x10 4
  let areas := [(0, 64), (r 0x18 4, r 0x18 4 + 32 * nk), (r 0x1C 4, r 0x1C 4 + 8 * ni), (r 0x20 4, r 0x20 4 + r 0x24 4)]
  r 0 1 == tile && r 1 3 == 0 && r 4 4 != 0 && len % 64 == 0 && decide (len ≤ room) && decide (1 ≤ nk) &&
  decide (1 ≤ ni) && r 0x18 4 % 32 == 0 && r 0x1C 4 % 8 == 0 && r 0x20 4 % 64 == 0 && r 0x28 4 % 64 == 0 &&
  decide (r 0x28 4 + r 0x2C 4 ≤ r 0x24 4) && r 0x30 16 == 0 &&
  areas.all (fun a => decide (a.2 ≤ len)) && disjoint areas &&
  (List.range nk).all (fun k => kernelOk (rdAt r (r 0x18 4 + 32 * k))) &&
  (List.range ni).all (fun k =>
    let v := rdAt r (r 0x1C 4 + 8 * k)
    let d := rdAt r (r 0x18 4 + 32 * v 0 2)
    decide (v 0 2 < nk) && v 6 2 == 0 && (decide (d 0 1 < 3) || v 4 2 == 0) && decide (v 2 2 + v 4 2 ≤ d 8 4))

/-- The stated ranges of a KERNELS section (R452, R453) for the tiles of its partition. -/
def kernelsOk (rd : Rd) (len mask : Nat) : Bool :=
  let ts := maskTiles mask
  let offs := recordOffs rd ts.length 64
  rd 0 1 == ts.length && rd 1 63 == 0 &&
  (List.range ts.length).all (fun i =>
    let off := offs.getD i 0
    decide (off < len) && tileKernelsOk (rdAt rd off) (ts.getD i 0) (len - off))

/-! The rules that relate two sections (R455). -/

def crossQuant (rd rot : Rd) (hasRot : Bool) : Bool :=
  let nc := rd 0 4
  (List.range nc).all (fun i =>
    let r := rdAt rd (16 + 32 * i)
    r 4 1 == 0xFF || (hasRot && decide (r 4 1 < rot 0 2) && r 0xC 4 % 2 ^ (rotOf rot (r 4 1)).1 == 0)) &&
  (List.range (rd 4 4)).all (fun i =>
    let a := rd (16 + 32 * nc + 16 * i + 4) 4
    a == 0xFFFFFFFF || decide (a < nc))

def crossMse (rd quant : Rd) (len : Nat) : Bool :=
  (List.range (len / 8)).all (fun i =>
    let e := readMse rd i
    !e.enabled || (decide (e.conv < quant 0 4) && quant (16 + 32 * e.conv + 2) 1 != 3 &&
      quant (16 + 32 * e.conv) 2 == e.siteId))

def crossStreams (rd quant : Rd) (otherTag : Option Nat) : Bool :=
  (List.range (rd 0 2)).all (fun i =>
    let o := readStream rd i
    decide (o.site < quant 0 4) && quant (16 + 32 * o.site + 2) 1 == 2 + o.fmt) &&
  (match otherTag with | some t => t == rd 2 2 | none => true)

/-- TOKBLK_PAGES as R138 computes it. -/
def tokblkPages (g : Buckets) (kvBits : Nat) : Nat :=
  ceilDiv (g.attLayers * g.kvHeads * 2 * g.headGroups * (if kvBits = 8 then 66 else 34)) 1024

def crossBuckets (rd quant : Rd) : Bool :=
  quant 8 1 != 0 && rd 8 4 == tokblkPages (readBuckets rd) (quant 8 1)

/-- The fields of one section lie in their ranges. Informational sections are not examined (R52). -/
def sectionOk (rd : Rd) (parts : List PartDesc) (d : Dir) : Bool :=
  let r := rdAt rd d.off
  match d.type with
  | 2 => hubOk r d.len
  | 3 => planOk r d.len
  | 4 => timetableOk r d.len
  | 5 => layoutOk r d.len parts
  | 6 => rotOk r d.len
  | 7 => quantOk r d.len
  | 8 => decide (parts.length ≤ d.part) || kernelsOk r d.len (parts.getD d.part {}).tileMask
  | 9 => bucketsOk r d.len
  | 10 => mseOk r d.len
  | 11 => streamsOk r d.len
  | 12 => spanOk r d.len parts
  | _ => true

/-- The rules between sections that a section's fields take part in. -/
def crossOk (rd : Rd) (dirs : List Dir) (d : Dir) : Bool :=
  let r := rdAt rd d.off
  let quant := secRd rd dirs 7 d.part
  match d.type with
  | 7 => crossQuant r (secRd rd dirs 6 d.part) (findDir dirs 6 d.part).isSome
  | 9 => crossBuckets r quant
  | 10 => crossMse r quant d.len
  | 11 => crossStreams r quant ((findDir dirs 11 (1 - d.part)).map (fun o => rd (o.off + 2) 2))
  | _ => true

/-! The parsed image. -/

/-- One partition's sections. -/
def readPartImage (rd : Rd) (dirs : List Dir) (p : Nat) (desc : PartDesc) : PartImage :=
  let tt := secRd rd dirs 4 p
  let st := secRd rd dirs 11 p
  let quant := secRd rd dirs 7 p
  let kern := (findDir dirs 8 p).map (·.off)
  let ts := maskTiles desc.tileMask
  { desc := desc, plan := readPlan (secRd rd dirs 3 p) (secLen dirs 3 p), segs := readSegs tt
    entries := readEntries tt
    kernels := match kern with
      | some off => (recordOffs (rdAt rd off) ts.length 64).map (fun o => readTileKernels rd (off + o))
      | none => []
    kvBits := quant 8 1, convs := readConvs quant (secRd rd dirs 6 p)
    tensors := (List.range (quant 4 4)).map (fun i => quant (16 + 32 * quant 0 4 + 16 * i) 4)
    mse := (List.range (secLen dirs 10 p / 512)).map (fun t =>
      (List.range 64).map (fun i => readMse (rdAt (secRd rd dirs 10 p) (512 * t)) i))
    hasStreams := (findDir dirs 11 p).isSome, stateTag := st 2 2, halfBytes := st 4 4, tableEntries := st 8 4
    streams := (List.range (st 0 2)).map (readStream st) }

/-- An image's sections (meaningful for an image that passes checks 1 to 8). -/
def readImage (img : List Byte) : Image :=
  let rd := rdOf img
  let h := readHeader rd
  let dirs := readDirs rd
  let descs := readParts rd
  let lay := secRd rd dirs 5 0xFF
  { totalLen := h.totalLen, itnId := (img.drop 0x20).take 16, windowLog2 := h.windowLog2
    chainWindowLog2 := h.chainWindow, compat := h.compat
    parts := (List.range descs.length).map (fun p => readPartImage rd dirs p (descs.getD p {}))
    buckets := (dirs.find? (fun d => d.type == 9)).map (fun d => readBuckets (rdAt rd d.off))
    layouts := (List.range (lay 0 1)).map (readLayout lay)
    span := (findDir dirs 12 0xFF).map (fun d => readSpan (rdAt rd d.off)) }

end Sys2Proof.Machine
end

