-- ==== Sys2Proof/Machine/Queues.lean ====
section
/-! DEFINITION. Request and completion queues (R286 to R288, R293 to R295): doorbells, queue commands, completion records,
token rings (R292, R40) and their delivery. -/

namespace Sys2Proof.Machine

/-- Whether a BAR2 write reaches its queue: the link is up and the part is not in a reset, tripped or safe (R414). -/
def State.doorbell (s : State) (k : State → State) : State := if s.barOk then k s else s

/-- A discarded doorbell (R287, R293). -/
def dbDrop (s : State) : State := (s.inc Reg.HIF_DB_DROPPED).raiseHif Reg.HIF_IRQ_STATUS_DB_DROP

/-! Completion queues. -/

/-- Write a queue's HELD field; it saturates. -/
def putHeld (s : State) (c n : Nat) : State := s.wr (Reg.HIF_CQ_STATUS_HELD c) (minNat n 16383)

/-- A completion record (R294) with its PHASE bit and RQ_HEAD as they are when it is written. -/
def recordOf (s : State) (o : Operation) (phase : Bool) : List Byte :=
  leBytes 8 o.desc.userTag ++ leBytes 2 (o.endCode.getD 0) ++ leBytes 2 o.rq ++
  leBytes 2 (s.rd (Reg.HIF_RQ_HEAD_HEAD o.rq)) ++
  leBytes 1 (b2n phase + 2 * b2n o.anchorDue + 4 * b2n o.stopHit + 8 * b2n o.shared) ++
  leBytes 1 o.desc.opcode ++ leBytes 4 o.delivered ++ leBytes 4 o.length ++
  leBytes 4 (match o.firstUs with | some t => minNat t 0xFFFFFFFF | none => 0xFFFFFFFF) ++
  leBytes 4 (minNat o.totalUs 0xFFFFFFFF)

/-- The message of a completion queue, once enough records are written (R295). -/
def coalesce (s : State) (c : Nat) (x : CqConf) : State :=
  if x.irqEn && decide (maxNat x.coalCount 1 ≤ x.unreported) then
    (s.setCq c (some { x with unreported := 0 })).msix x.vector
  else s.setCq c (some x)

/-- Whether a completion queue has room for a record (R293). -/
def cqRoom (x : CqConf) : Bool := decide (x.written - x.head < 2 ^ x.sizeLog2)

/-- Take an operation out: its record is written, or it needs none. -/
def dropOp (s : State) (id : Nat) : State := { s with ops := s.ops.filter (fun o => o.id != id) }

/-- Write an operation's record at the ring's next place; the operation is over, and what it adds to a sync cell follows
(R289, R290, R294, R296). A refused descriptor may name no cell (log entry 100). -/
def cqWrite (s : State) (c : Nat) (x : CqConf) (o : Operation) : State :=
  let size := 2 ^ x.sizeLog2
  let s := s.hostWrite (x.base + 32 * (x.written % size)) (recordOf s o (x.written / size % 2 == 0)) true
  let s := coalesce (s.inc Reg.HIF_COMPLETIONS) c { x with written := x.written + 1, unreported := x.unreported + 1 }
  let s := dropOp s o.id
  if o.desc.opcode == 1 && bitOf o.desc.flags 0 && decide (o.desc.syncCell < 32768) then synAdd s o.desc.syncCell o.desc.syncValue else s

/-- Hold an operation's record until the head advances (R293). -/
def cqHold (s : State) (c : Nat) (x : CqConf) (o : Operation) : State :=
  let s := if x.held.isEmpty then s.raiseHif Reg.HIF_IRQ_STATUS_CQ_HOLD else s
  let x := { x with held := x.held ++ [o.id] }
  putHeld ((s.inc Reg.HIF_CQ_HELD).setCq c (some x)) c x.held.length

/-- Whether tokens of an operation are still on their way to its ring. -/
def tokensDue (s : State) (id : Nat) : Bool := s.staged.any (fun t => t.op == id)

/-- Write the record of an operation that has ended, once its tokens are delivered (R260); an operation that an FLR ended
leaves none (R299). -/
def complete (s : State) (id : Nat) : State :=
  match s.op id with
  | none => s
  | some o =>
    if tokensDue s id then s
    else if o.noRecord then dropOp s id
    else
      match s.cq o.cq with
      | none => dropOp s id
      | some x => if x.held.isEmpty && cqRoom x then cqWrite s o.cq x o else cqHold s o.cq x o

/-- End an operation with a code and write its record. -/
def endOp (s : State) (id code : Nat) : State :=
  let s := s.updOp id (fun o => { o with
    phase := .ending, endCode := some code, inStep := none, totalUs := (s.timeKc - o.ringKc) / 375 })
  complete s id

/-- Write held records while there is room, at most `n` of them. -/
def cqPump (c : Nat) : Nat → State → State
  | 0, s => s
  | n + 1, s =>
    match s.cq c with
    | none => s
    | some x =>
      match x.held with
      | [] => s
      | id :: rest =>
        if cqRoom x then
          let x := { x with held := rest }
          let s := putHeld (s.setCq c (some x)) c rest.length
          match s.op id with
          | none => cqPump c n s
          | some o => cqPump c n (cqWrite s c x o)
        else s

/-- A head doorbell (R293). -/
def cqHead (s : State) (c head : Nat) : State :=
  match s.cq c with
  | none => dbDrop s
  | some x =>
    let old := x.head % 2 ^ 32
    let step := (head % 2 ^ 32 + 2 ^ 32 - old) % 2 ^ 32
    if x.written - x.head < step then dbDrop s
    else
      let x := { x with head := x.head + step }
      cqPump c x.held.length (s.setCq c (some x))

/-- CQ_HEAD_DOORBELL (R293). -/
def execCqHeadDoorbell (c head : Nat) (s : State) : Answer := .next (s.doorbell (fun s => cqHead s c head))

/-- The time limit of a queue's records passes (R295). -/
def coalesceTimeout (s : State) (c : Nat) : State :=
  match s.cq c with
  | none => s
  | some x =>
    if x.irqEn && x.coalUs != 0 && x.unreported != 0 then
      (s.setCq c (some { x with unreported := 0 })).msix x.vector
    else s

/-- COALESCE_TIMEOUT (R295). -/
def execCoalesceTimeout (c : Nat) (s : State) : Answer := .next (s.engine (fun s => coalesceTimeout s c))

/-! Completion-queue commands. -/

/-- Whether a SIZE_LOG2 lies in 4 to 16. -/
def sizeOk (n : Nat) : Bool := decide (4 ≤ n) && decide (n ≤ 16)

/-- What the selected completion queue's CFG and BASE give a create. -/
def cqConfOf (s : State) (c : Nat) : CqConf :=
  { base := s.rd (Reg.HIF_CQ_BASE c) / 64 * 64, sizeLog2 := s.rd (Reg.HIF_CQ_CFG_SIZE_LOG2 c)
    vector := s.rd (Reg.HIF_CQ_CFG_VECTOR c), irqEn := s.flag (Reg.HIF_CQ_CFG_IRQ_EN c)
    coalCount := s.rd (Reg.HIF_CQ_CFG_COAL_COUNT c), coalUs := s.rd (Reg.HIF_CQ_CFG_COAL_US c) }

/-- Create a completion queue (R293): the code, and the state. -/
def cqCreate (s : State) (c : Nat) : Nat × State :=
  let x := cqConfOf s c
  if (s.cq c).isSome || !sizeOk x.sizeLog2 then (Code.HIF_E_QUEUE, s)
  else (0, (s.setCq c (some x)).wr (Reg.HIF_CQ_STATUS_ENABLED c) 1)

/-- Whether a request queue that is not DISABLED reports into a completion queue. -/
def cqUsed (s : State) (c : Nat) : Bool :=
  decide (SMap.count (fun _ q => match q with | some x => x.cq == c | none => false) s.rqs ≠ 0)

/-- Delete a completion queue (R293). -/
def cqDelete (s : State) (c : Nat) : Nat × State :=
  if (s.cq c).isNone || cqUsed s c then (Code.HIF_E_QUEUE, s)
  else (0, (s.setCq c none).wrs [(Reg.HIF_CQ_STATUS_ENABLED c, 0), (Reg.HIF_CQ_STATUS_HELD c, 0)])

/-- Apply VECTOR, IRQ_EN, COAL_COUNT and COAL_US of CFG to an enabled queue (R293). -/
def cqApply (s : State) (c : Nat) : Nat × State :=
  match s.cq c with
  | none => (Code.HIF_E_QUEUE, s)
  | some x =>
    let y := cqConfOf s c
    (0, s.setCq c (some { x with
      vector := y.vector, irqEn := y.irqEn, coalCount := y.coalCount, coalUs := y.coalUs }))

/-- A GO of HIF_CQ_CMD on the selected queue. -/
def cqCmd (s : State) (op : Nat) : State :=
  let s := s.wr Reg.HIF_CQ_CMD_OP op
  let c := s.rd Reg.HIF_CQ_SEL_QUEUE
  s.keeper (Reg.HIF_CQ_STATUS_CODE c) (fun s =>
    let r := if op = 0 then cqCreate s c
      else if op = 1 then cqDelete s c
      else if op = 2 then cqApply s c
      else (Code.HIF_E_QUEUE, s)
    r.2.wr (Reg.HIF_CQ_STATUS_CODE c) r.1)

def cqCmdOff : Nat := Reg.HIF_CQ_CMD_OP.off

/-- CQ_CREATE (R293). -/
def execCqCreate (s : State) : Answer := .next (s.host cqCmdOff (fun s => cqCmd s 0))
/-- CQ_DELETE (R293). -/
def execCqDelete (s : State) : Answer := .next (s.host cqCmdOff (fun s => cqCmd s 1))
/-- CQ_APPLY (R293). -/
def execCqApply (s : State) : Answer := .next (s.host cqCmdOff (fun s => cqCmd s 2))
/-- CQ_CMD_REFUSED (R293). -/
def execCqCmdRefused (s : State) : Answer := .next (s.host cqCmdOff (fun s => cqCmd s 3))

/-! Request queues. -/

/-- The state of a request queue: 0 DISABLED, 1 ENABLED, 2 HALTED, 3 DRAINING, 4 WAITING. -/
def rqState (s : State) (q : Nat) : Nat := s.rd (Reg.HIF_RQ_STATUS_STATE q)

/-- Halt a queue with a code; the first that halts while RQ_HALT is 0 is named (R287, R288). -/
def rqHalt (s : State) (q code : Nat) : State :=
  let s := if s.flag Reg.HIF_IRQ_STATUS_RQ_HALT then s else s.wr Reg.HIF_HALT_FIRST_QUEUE q
  let s := s.wrs [(Reg.HIF_RQ_STATUS_STATE q, 2), (Reg.HIF_RQ_STATUS_CODE q, code)]
  let s := s.raiseHif Reg.HIF_IRQ_STATUS_RQ_HALT
  let ctx := match s.rq q with | some x => x.ctx | none => 0xFFFF
  s.report { errOf code 0 with context := ctx }

/-- A doorbell of a request queue (R287). -/
def rqDoorbell (s : State) (q tail : Nat) : State :=
  match s.rq q with
  | none => dbDrop s
  | some x =>
    if rqState s q ≠ 1 ∧ rqState s q ≠ 4 then dbDrop s
    else if tail % 2 ^ 32 = s.rd (Reg.HIF_RQ_TAIL_TAIL q) then s
    else if 2 ^ x.sizeLog2 < (tail % 2 ^ 32 + 2 ^ 32 - s.rd (Reg.HIF_RQ_HEAD_HEAD q)) % 2 ^ 32 then
      rqHalt s q Code.HIF_E_RING
    else
      (s.wr (Reg.HIF_RQ_TAIL_TAIL q) tail).setRq q
        (some { x with rung := x.rung ++ [(tail % 2 ^ 32, s.timeUs * 375)] })

/-- RQ_DOORBELL (R287). -/
def execRqDoorbell (q tail : Nat) (s : State) : Answer := .next (s.doorbell (fun s => rqDoorbell s q tail))

/-- Whether operations of a queue are in flight. -/
def rqBusy (s : State) (q : Nat) : Bool := s.ops.any (fun o => o.rq == q && !o.standIn)

/-- Whether a WAIT of a queue is pending (R290). -/
def rqWaits (s : State) (q : Nat) : Bool := s.ops.any (fun o => o.rq == q && o.phase == .waitCell)

/-- Create a request queue (R286). -/
def rqCreate (s : State) (q : Nat) : Nat × State :=
  let cq := s.rd (Reg.HIF_RQ_CFG_CQ q)
  let ctx := s.rd (Reg.HIF_RQ_CFG_CONTEXT q)
  let n := s.rd (Reg.HIF_RQ_CFG_SIZE_LOG2 q)
  if rqState s q ≠ 0 ∨ sizeOk n = false ∨ (s.cq cq).isNone then (Code.HIF_E_QUEUE, s)
  else if s.rd (Reg.SEC_CTX_STATE ctx) ≠ 1 ∧ s.rd (Reg.SEC_CTX_STATE ctx) ≠ 2 then (Code.HIF_E_CONTEXT, s)
  else
    (0, (s.setRq q (some { base := s.rd (Reg.HIF_RQ_BASE q) / 64 * 64, sizeLog2 := n, ctx := ctx, cq := cq })).wrs
      [(Reg.HIF_RQ_STATUS_STATE q, 1), (Reg.HIF_RQ_HEAD_HEAD q, 0), (Reg.HIF_RQ_TAIL_TAIL q, 0)])

/-- A queue whose operations have all written their records becomes DISABLED. -/
def rqDisable (s : State) (q : Nat) : State := (s.setRq q none).wr (Reg.HIF_RQ_STATUS_STATE q) 0

/-- Delete a request queue (R286). -/
def rqDelete (s : State) (q : Nat) : Nat × State :=
  if rqState s q = 0 then (Code.HIF_E_QUEUE, s)
  else if rqBusy s q then (0, s.wr (Reg.HIF_RQ_STATUS_STATE q) 3)
  else (0, rqDisable s q)

/-- Resume a halted queue: it fetches again from HEAD (R288), once a WAIT that it halted with is satisfied (R290). A queue that is not halted, and one whose context is no
longer registered, refuse (log entry 21). -/
def rqResume (s : State) (q : Nat) : Nat × State :=
  match s.rq q with
  | none => (Code.HIF_E_QUEUE, s)
  | some x =>
    if rqState s q ≠ 2 then (Code.HIF_E_QUEUE, s)
    else if s.rd (Reg.SEC_CTX_STATE x.ctx) ≠ 1 ∧ s.rd (Reg.SEC_CTX_STATE x.ctx) ≠ 2 then (Code.HIF_E_CONTEXT, s)
    else (0, s.wr (Reg.HIF_RQ_STATUS_STATE q) (if rqWaits s q then 4 else 1))

/-- A GO of HIF_RQ_CMD on the selected queue. -/
def rqCmd (s : State) (op : Nat) : State :=
  let s := s.wr Reg.HIF_RQ_CMD_OP op
  let q := s.rd Reg.HIF_RQ_SEL_QUEUE
  s.keeper (Reg.HIF_RQ_STATUS_CODE q) (fun s =>
    let r := if op = 0 then rqCreate s q
      else if op = 1 then rqDelete s q
      else if op = 2 then rqResume s q
      else (Code.HIF_E_QUEUE, s)
    r.2.wr (Reg.HIF_RQ_STATUS_CODE q) r.1)

def rqCmdOff : Nat := Reg.HIF_RQ_CMD_OP.off

/-- RQ_CREATE (R286). -/
def execRqCreate (s : State) : Answer := .next (s.host rqCmdOff (fun s => rqCmd s 0))
/-- RQ_DELETE (R286). -/
def execRqDelete (s : State) : Answer := .next (s.host rqCmdOff (fun s => rqCmd s 1))
/-- RQ_RESUME (R288). -/
def execRqResume (s : State) : Answer := .next (s.host rqCmdOff (fun s => rqCmd s 2))
/-- RQ_CMD_REFUSED (R286). -/
def execRqCmdRefused (s : State) : Answer := .next (s.host rqCmdOff (fun s => rqCmd s 3))

/-- RQ_DRAINED (R286): a DRAINING queue without operations becomes DISABLED. -/
def execRqDrained (q : Nat) (s : State) : Answer :=
  .next (s.engine (fun s => if rqState s q = 3 ∧ rqBusy s q = false then rqDisable s q else s))

/-! Token rings. -/

/-- Commit a token to its staging line (R40); `pos` is the token's own position (log entry 105). -/
def stageToken (s : State) (id token pos : Nat) : State := { s with staged := s.staged ++ [⟨id, token, pos⟩] }

/-- Whether an operation's ring is full by the last CONS read (R292). -/
def ringFull (o : Operation) : Bool := decide (2 ^ o.desc.tringLog2 ≤ (o.delivered + 2 ^ 32 - o.ringCons) % 2 ^ 32)

/-- The oldest staged token whose ring has a place (log entry 105). -/
def nextToken (s : State) : Option StagedToken :=
  s.staged.find? (fun t => match s.op t.op with | some o => !ringFull o | none => true)

/-- Deliver a staged token: its entry, then PROD after a fence (R292); the record follows the last one. -/
def deliver (s : State) : State :=
  match nextToken s with
  | none => s
  | some t =>
    let s := { s with staged := s.staged.erase t }
    match s.op t.op with
    | none => s
    | some o =>
      let base := o.desc.tringBase
      let s := s.hostWrite (base + 64 + 8 * (o.delivered % 2 ^ o.desc.tringLog2)) (leBytes 4 t.token ++ leBytes 4 t.pos)
        false
      let s := s.hostWrite base (leBytes 4 (o.delivered + 1)) false
      let s := (s.updOp o.id (fun x => { x with delivered := x.delivered + 1 })).inc Reg.HIF_TOKENS
      if o.phase == .ending then complete s o.id else s

/-- TOKEN_DELIVERY (R40, R292): a fault of the copy leaves the token in its staging line. -/
def execTokenDelivery (fault : Bool) (s : State) : Answer := .next (s.engine (fun s => if fault then s else deliver s))

/-- TOKEN_RING_CONS_REREAD (R292): a read of host memory, which D3hot does not issue (R284). -/
def execTokenRingConsReread (op cons : Nat) (s : State) : Answer :=
  .next (s.engine (fun s => if s.chip.d3hot then s else s.updOp op (fun o => { o with ringCons := cons % 2 ^ 32 })))

end Sys2Proof.Machine
end

