-- ==== Sys2Proof/Machine/SeqKv.lean ====
section
/-! DEFINITION. Sequence records and their ranges: the record's fields (R144), the geometry (R138 to R142), the frame
pool and the frame return ring (R149), backing a block (R150), release (R160, R161) and the copy of a shared block
(R159). What the host writes to start a sequence (R147) and the pages that stay pinned (R151) are read here; events
that meet (R162) come about in the order of the commands. -/

namespace Sys2Proof.Machine

/-! Geometry. -/

/-- The image of the slot that a context is bound to. -/
def ctxImage (s : State) (ctx : Nat) : Option Image :=
  if s.flag (Reg.SEC_CTX_BOUND ctx) then s.image (s.rd (Reg.SEC_CTX_SLOT ctx)) else none

/-- The cache geometry of a context's itinerary (R140). -/
def geo (s : State) (ctx : Nat) : Buckets :=
  match ctxImage s ctx with
  | some im => im.buckets.getD {}
  | none => {}

/-- The length bucket of an attended length (R142). -/
def bucketOf (n : Nat) : Nat := ((List.range 8).find? (fun b => decide (n ≤ 256 * 2 ^ b))).getD 7

/-- The bytes of a token block. -/
def blockBytes (g : Buckets) : Nat := g.tokblkPages * 65536

/-! Reaching a page in the prologue (R233). -/

/-- What a prologue walk answers: an address of tier 0, a page under migration, or a refusal. -/
inductive Reach where
  | pa (a : Nat) (l : Leaf)
  | wait
  | no (code : Nat)
  deriving DecidableEq, Repr

/-- Walk to a tier-0 byte that a booking will write or a step will read. A page of another tier is the refusal of R261,
which is counted as an abort (R263). -/
def reach (s : State) (ctx va : Nat) (w : Bool) : Reach × State :=
  let x := walk s ctx va w
  let s := countWalk s x
  match x with
  | .no c => (.no c, s)
  | .ok l =>
    if (markedAt s l.tier l.room l.addr).isSome then (.wait, s)
    else if l.tier ≠ 0 then (.no Code.MEM_E_BOOK_TIER, bookFault s)
    else (.pa (l.addr + (va - l.va)) l, s)

/-! Sequence records. -/

/-- A sequence record (R144). -/
structure SeqRec where
  base    : Nat
  length  : Nat
  limit   : Nat
  flags   : Nat
  kvTag   : Nat
  share   : Nat
  backed  : Nat
  zeros   : Bool
  deriving DecidableEq, Repr

/-- The fields of a record's 64 bytes. -/
def parseSeq (r : List Byte) : SeqRec :=
  { base := recField r 0 8, length := recField r 8 4, limit := recField r 12 4, flags := recField r 16 2
    kvTag := recField r 20 2, share := recField r 22 2, backed := recField r 24 4
    zeros := recZero r 19 1 && recZero r 30 34 && decide (recField r 16 2 < 8) }

def SeqRec.valid (r : SeqRec) : Bool := bitOf r.flags 0
def SeqRec.releasing (r : SeqRec) : Bool := bitOf r.flags 1
def SeqRec.attaching (r : SeqRec) : Bool := bitOf r.flags 2

/-- The virtual address of record `i` of a context. -/
def seqVa (s : State) (ctx i : Nat) : Nat :=
  match s.ctxRec ctx with
  | some r => r.seqVa + 64 * i
  | none => 2 ^ 52

/-- Whether an index names a record. -/
def seqIndexOk (s : State) (ctx i : Nat) : Bool :=
  match s.ctxRec ctx with
  | some r => decide (i < r.seqEntries)
  | none => false

/-- Rows 2 and 3 of R145. -/
def seqBad (g : Buckets) (r : SeqRec) : Option Nat :=
  if !r.zeros then some Code.TIL_E_FORMAT
  else if !r.valid || r.releasing || r.base % 65536 != 0 || r.limit == 0 || decide (g.maxLen < r.limit) ||
      (r.length != 0 && r.kvTag != g.kvLayoutTag) then some Code.TIL_E_SEQ
  else none

/-- The record of an operation where it passes rows 1 to 3 of R145: its address. -/
def ownRecord (s : State) (ctx i : Nat) : Option Nat :=
  if seqIndexOk s ctx i then
    match pa0 s ctx (seqVa s ctx i) true with
    | some pa => if (seqBad (geo s ctx) (parseSeq (s.mread pa 64))).isNone then some pa else none
    | none => none
  else none

/-! The frame pool and the return ring. -/

/-- A ring's control line: PROD and CONS. -/
def ringProd (s : State) (ctx va : Nat) : Nat := leNat (vread s ctx va 4)
def ringCons (s : State) (ctx va : Nat) : Nat := leNat (vread s ctx (va + 8) 4)

/-- Entries of a ring. -/
def ringCount (s : State) (ctx va : Nat) : Nat := (ringProd s ctx va + 2 ^ 32 - ringCons s ctx va) % 2 ^ 32

/-- Frames in a context's pool. -/
def poolFrames (s : State) (ctx : Nat) : Nat :=
  match s.ctxRec ctx with
  | some r => ringCount s ctx r.poolVa
  | none => 0

/-- Booking lines that write bytes at a virtual address of tier 0, inside one page. -/
def vLines (s : State) (ctx va : Nat) (bs : List Byte) : List BookLine :=
  match pa0 s ctx va true with
  | some pa => writeLines pa bs
  | none => []

/-- Add one to the HITS of a ring's control line (R149); it saturates. -/
def ringHit (s : State) (ctx va : Nat) : State :=
  let n := leNat (vread s ctx (va + 12) 4)
  keeperWrite s (vLines s ctx (va + 12) (leBytes 4 (minNat (n + 1) 0xFFFFFFFF))) []

/-- The pool's entry at a count of frames taken. -/
def poolEntry (s : State) (ctx : Nat) (r : CtxRec) (cons : Nat) : Nat :=
  leNat (vread s ctx (r.poolVa + 64 + 8 * (cons % r.poolN)) 8)

/-- Whether a pool entry names a frame that can be taken (R149, R150). -/
def frameOk (s : State) (ctx f : Nat) (taken : List Nat) : Bool :=
  f % 65536 == 0 && decide (f < 2 ^ 38) && owns s ctx f && s.refCount (f / 65536) == 0 && !taken.contains f

/-- Take frames for `n` pages from a count on: the frames, the new count, and whether an entry was refused. -/
def takeFrames (s : State) (ctx : Nat) (r : CtxRec) : Nat → Nat → List Nat → List Nat × Nat × Bool
  | 0, cons, got => (got, cons, false)
  | n + 1, cons, got =>
    let f := poolEntry s ctx r cons
    let next := (cons + 1) % 2 ^ 32
    if frameOk s ctx f got then takeFrames s ctx r n next (got ++ [f]) else (got, next, true)

/-- A present leaf entry of a frame, writable or not. -/
def frameEntry (f : Nat) (w : Bool) : Nat := f + 1 + 2 * b2n w

/-- Drop the pin entries of a page. -/
def unpin (s : State) (ctx va : Nat) : State :=
  let f (q : Pin) : Bool := !(q.ctx == ctx && q.leaf.covers va)
  { s with
    part0 := { s.part0 with pins := s.part0.pins.filter f },
    part1 := { s.part1 with pins := s.part1.pins.filter f } }

/-- How a piece of Keeper's or a control core's work ends: done, held for want of room, or stopped with a code. -/
inductive Work where
  | done | wait
  | fail (code : Nat)
  deriving DecidableEq, Repr

/-- Count the walk to a leaf entry, and its refusal. -/
def countEntry (s : State) (x : Nat ⊕ Nat) : State :=
  match x with
  | .inl _ => s.inc Reg.XLT_WALKS
  | .inr _ => (s.inc Reg.XLT_WALKS).inc Reg.XLT_FAULTS

/-! Backing (R150). -/

/-- The leaf entries of a block's pages: their addresses, or the code of a refused walk. -/
def blockLeaves (s : State) (ctx base : Nat) (n : Nat) : List Nat ⊕ Nat :=
  (List.range n).foldl (fun acc j => match acc with
    | .inr c => .inr c
    | .inl l => match rangeEntry s ctx (base + j * 65536) with
      | .inl pa => .inl (l ++ [pa])
      | .inr c => .inr c) (.inl [])

/-- One group of at most 48 pages: take the frames, commit one booking; `last` says that the group ends the block, whose
number advances BACKED_BLOCKS. -/
def backGroup (s : State) (ctx : Nat) (r : CtxRec) (seqPa b : Nat) (leaves : List Nat) (last : Bool) : Work × State :=
  let t := takeFrames s ctx r leaves.length (ringCons s ctx r.poolVa) []
  let bad := t.2.2
  let lines := ((leaves.zip t.1).map (fun q => writeLines q.1 (leBytes 8 (frameEntry q.2 true)))).flatten ++
    vLines s ctx (r.poolVa + 8) (leBytes 4 t.2.1) ++
    (if last && !bad then writeLines (seqPa + 24) (leBytes 4 (b + 1)) else [])
  let s := keeperWrite s lines (t.1.map (fun f => (f / 65536, refMake ctx 1)))
  (if bad then .fail Code.TIL_E_KV_FRAME else .done, s)

/-- The groups of a block, `n` at most; at least one, so that BACKED_BLOCKS advances. -/
def backGroups (ctx : Nat) (r : CtxRec) (seqPa b : Nat) : Nat → List Nat → State → Work × State
  | 0, _, s => (.done, s)
  | n + 1, leaves, s =>
    let g := leaves.take 48
    let rest := leaves.drop 48
    match backGroup s ctx r seqPa b g rest.isEmpty with
    | (.done, s) => if rest.isEmpty then (.done, s) else backGroups ctx r seqPa b n rest s
    | x => x

/-- Back one block: the pages whose leaf entry is not present. The number is of frames taken. -/
def backBlock (s : State) (ctx seqPa b : Nat) : Work × Nat × State :=
  match s.ctxRec ctx with
  | none => (.fail Code.XLT_E_NOT_PRESENT, 0, s)
  | some r =>
    let g := geo s ctx
    let base := s.mnat seqPa 8 + b * blockBytes g
    match blockLeaves s ctx base g.tokblkPages with
    | .inr c => (.fail c, 0, (s.inc Reg.XLT_WALKS).inc Reg.XLT_FAULTS)
    | .inl leaves =>
      let s := s.add Reg.XLT_WALKS g.tokblkPages
      let missing := leaves.filter (fun pa => !pteP (readPte s pa))
      if (pa0 s ctx r.poolVa true).isNone then (.fail Code.MEM_E_BOOK_TIER, 0, bookFault s)
      else if ringCount s ctx r.poolVa < missing.length then (.wait, 0, ringHit s ctx r.poolVa)
      else
        let x := backGroups ctx r seqPa b (missing.length / 48 + 1) missing s
        (x.1, missing.length, x.2)

/-- Back the blocks from BACKED_BLOCKS to the one that holds a position, `n` at most. -/
def backTo (ctx seqPa last : Nat) : Nat → Nat → State → Work × Nat × State
  | 0, got, s => (.done, got, s)
  | n + 1, got, s =>
    let b := s.mnat (seqPa + 24) 4
    if last / 64 < b then (.done, got, s)
    else
      match backBlock s ctx seqPa b with
      | (.done, k, s) => backTo ctx seqPa last n (got + k) s
      | (x, k, s) => (x, got + k, s)

/-! Freeing a page. -/

/-- What a booking that drops a frame's count adds where the count reaches 0: the return ring's entry and PROD (R160).
None where the ring is full. -/
def returnFrame (s : State) (ctx f : Nat) : Option (List BookLine) :=
  if s.refCount (f / 65536) ≠ 1 then some []
  else
    match s.ctxRec ctx with
    | none => some []
    | some r =>
      if r.retN ≤ ringCount s ctx r.retVa then none
      else
        let prod := ringProd s ctx r.retVa
        some (vLines s ctx (r.retVa + 64 + 8 * (prod % r.retN)) (leBytes 8 f) ++
          vLines s ctx r.retVa (leBytes 4 ((prod + 1) % 2 ^ 32)))

/-- The count of a frame, one less. -/
def refDown (s : State) (f : Nat) : Nat × Nat :=
  (f / 65536, refMake (s.refOwner (f / 65536)) (s.refCount (f / 65536) - 1))

/-- Unmap one page of a range by one booking; further lines may ride along. -/
def freePage (s : State) (ctx va : Nat) (extra : List BookLine) : Work × State :=
  match rangeEntry s ctx va with
  | .inr c => (.fail c, countEntry s (.inr c))
  | .inl pa =>
    let s := countEntry s (.inl pa)
    let e := readPte s pa
    if !pteP e then (.done, s)
    else
      match returnFrame s ctx (pteAddr e) with
      | none => (.wait, s)
      | some ring =>
        (.done, unpin (keeperWrite s (writeLines pa (leBytes 8 0) ++ ring ++ extra) [refDown s (pteAddr e)]) ctx va)

/-- The pages of the blocks below `n`, highest first. -/
def pagesDown (base pages n : Nat) : List Nat :=
  (List.range (n * pages)).reverse.map (fun i => base + i * 65536)

/-- Unmap pages in order until one cannot be. -/
def freePages (ctx : Nat) : List Nat → State → Work × State
  | [], s => (.done, s)
  | va :: rest, s =>
    match freePage s ctx va [] with
    | (.done, s) => freePages ctx rest s
    | x => x

/-! Release (R160, R161). -/

/-- The record of a request that ends shows RELEASING and its code; Keeper writes only those two fields. -/
def markReleasing (s : State) (seqPa code : Nat) : State :=
  let flags := s.mnat (seqPa + 16) 2
  keeperWrite s (writeLines (seqPa + 16) (leBytes 2 (if bitOf flags 1 then flags else flags + 2)) ++
    writeLines (seqPa + 28) (leBytes 2 code)) []

/-- The final booking of a release: LENGTH, KV_TAG, SHARE_BLOCKS and BACKED_BLOCKS 0, BUCKET 0xFF, VALID and RELEASING
clear. -/
def releaseFinal (s : State) (seqPa : Nat) : State :=
  let flags := s.mnat (seqPa + 16) 2
  keeperWrite s (writeLines (seqPa + 8) (leBytes 4 0) ++ writeLines (seqPa + 16) (leBytes 2 (flags / 4 * 4) ++ [0xFF]) ++
    writeLines (seqPa + 20) (leBytes 8 0)) []

/-- Take a release out of the list. -/
def dropRelease (s : State) (x : Release) : State := { s with releases := s.releases.erase x }

/-- An uncorrectable line that a booking or a walk meets: counted as a line and as an abort (R234, R263). -/
def uncorrBook (s : State) : State := bookFault (s.inc Reg.MEM_DRAM_UNCORR)

/-- A release that a fault ends: it is recorded, and nothing more is done for it (R271). -/
def releaseFault (s : State) (x : Release) (code : Nat) : State :=
  (dropRelease s x).report { errOf code 0 with context := x.ctx }

/-- Carry a release on: to its end, to a full return ring (R161), or to a fault, which is recorded (R271). A block above
BACKED_BLOCKS may be partly backed, and an attach or a copy that stopped leaves blocks mapped above it, so the release
begins at the highest block that can be mapped. -/
def releaseRun (s : State) (x : Release) : State :=
  let base := s.mnat x.seqPa 8
  let backed := s.mnat (x.seqPa + 24) 4
  let pages := (pagesDown base x.tokblk (minNat (maxNat (backed + 1) x.mapped) x.maxBlocks)).filter (fun va =>
    decide (va < base + backed * x.tokblk * 65536) || (rangeEntry s x.ctx va).isLeft)
  match freePages x.ctx pages s with
  | (.done, t) => releaseFinal (dropRelease t x) x.seqPa
  | (.wait, t) =>
    if x.held then t
    else
      let t := match t.ctxRec x.ctx with | some r => ringHit t x.ctx r.retVa | none => t
      { t with releases := t.releases.map (fun y => if y = x then { y with held := true } else y) }
  | (.fail c, t) => releaseFault t x c

/-- SEQUENCE_RELEASE (R160): Keeper releases the named sequence of a context, unless it is held on a full ring; `bad` says
that a line of it is uncorrectable. -/
def execSequenceRelease (ctx seq : Nat) (bad : Bool) (s : State) : Answer :=
  .next (s.engine (fun s =>
    match s.releases.find? (fun x => x.ctx == ctx && x.seqIndex == seq && !x.held) with
    | some x => if bad then releaseFault (uncorrBook s) x Code.XLT_E_UNCORR else releaseRun s x
    | none => s))

/-- RELEASE_RESUME (R161): the host has advanced CONS of the context's return ring; held releases go on in order. -/
def releaseResume (s : State) (ctx : Nat) : State :=
  (s.releases.filter (fun x => x.ctx == ctx && x.held)).foldl (fun t x =>
    let y := { x with held := false }
    releaseRun { t with releases := t.releases.map (fun z => if z = x then y else z) } y) s

/-- RELEASE_RESUME (R161). -/
def execReleaseResume (ctx : Nat) (s : State) : Answer := .next (s.engine (fun s => releaseResume s ctx))

/-! The copy of a shared block (R159). -/

/-- Copy one page of the shared block into a pool frame: map the new frame with write permission, drop the old count. The
pin entry of the old frame goes with it. -/
def copyPage (s : State) (ctx : Nat) (r : CtxRec) (va : Nat) : Work × State :=
  match rangeEntry s ctx va with
  | .inr c => (.fail c, countEntry s (.inr c))
  | .inl pa =>
    let s := countEntry s (.inl pa)
    let e := readPte s pa
    if !pteP e then (.done, s)
    else if ringCount s ctx r.poolVa = 0 then (.wait, ringHit s ctx r.poolVa)
    else
      let t := takeFrames s ctx r 1 (ringCons s ctx r.poolVa) []
      let cons := vLines s ctx (r.poolVa + 8) (leBytes 4 t.2.1)
      match t.1 with
      | [] => (.fail Code.TIL_E_KV_FRAME, keeperWrite s cons [])
      | f :: _ =>
        match returnFrame s ctx (pteAddr e) with
        | none => (.wait, ringHit s ctx r.retVa)
        | some ring =>
          let s := agentWrite s f (s.mread (pteAddr e) 65536)
          (.done, unpin (keeperWrite s (writeLines pa (leBytes 8 (frameEntry f true)) ++ cons ++ ring)
            [(f / 65536, refMake ctx 1), refDown s (pteAddr e)]) ctx va)

/-- Copy the pages of a block in order: how it ended, and the number copied so far. -/
def copyPages (ctx : Nat) (r : CtxRec) : List Nat → Nat → State → Work × Nat × State
  | [], n, s => (.done, n, s)
  | va :: rest, n, s =>
    match copyPage s ctx r va with
    | (.done, s) => copyPages ctx r rest (n + 1) s
    | (x, s) => (x, n, s)

/-- Copy block `b` of a sequence from its page `n` on, unmap the shared blocks above it, lower BACKED_BLOCKS and
SHARE_BLOCKS. The number is of pages copied. -/
def copyShared (s : State) (ctx seqPa b n : Nat) : Work × Nat × State :=
  match s.ctxRec ctx with
  | none => (.fail Code.XLT_E_NOT_PRESENT, n, s)
  | some r =>
    let g := geo s ctx
    let base := s.mnat seqPa 8
    let share := s.mnat (seqPa + 22) 2
    match copyPages ctx r (((List.range g.tokblkPages).drop n).map (fun j => base + b * blockBytes g + j * 65536)) n s with
    | (.done, n, s) =>
      let above := (pagesDown base g.tokblkPages share).filter (fun va => decide (base + (b + 1) * blockBytes g ≤ va))
      match freePages ctx above s with
      | (.done, s) =>
        let s := if b + 1 < share then
            keeperWrite s (writeLines (seqPa + 24) (leBytes 4 (minNat (s.mnat (seqPa + 24) 4) (b + 1)))) []
          else s
        (.done, n, keeperWrite s (writeLines (seqPa + 22) (leBytes 2 b)) [])
      | (.wait, s) => (.wait, n, ringHit s ctx r.retVa)
      | (x, s) => (x, n, s)
    | x => x

end Sys2Proof.Machine
end

