-- ==== Sys2Proof/Machine/Validate.lean ====
section
/-! DEFINITION. Validation of an itinerary (R68, R455): the checks in table order, each answering its code and DETAIL at
the first rule that fails, and the checks that an activation repeats (R71, R210, R346). -/

namespace Sys2Proof.Machine

/-- A failed check: its code and DETAIL. -/
abbrev Fail := Option (Nat × Nat)

/-- The first failure of a list of checks. -/
def firstFail : List Fail → Fail
  | [] => none
  | some f :: _ => some f
  | none :: rest => firstFail rest

/-- A failure of a code where a DETAIL is given. -/
def failAt (code : Nat) : Option Nat → Fail
  | some d => some (code, d)
  | none => none

/-- A failure with a DETAIL where a condition does not hold. -/
def failUnless (ok : Bool) (code detail : Nat) : Fail := if ok then none else some (code, detail)

/-- The bytes of an itinerary slot (R61). -/
def slotBytes (s : State) : Nat := slotGranules (s.rd Reg.ITN_CFG_SLOT_SIZE) * 2 ^ 21

/-! Checks 1 to 5. -/

/-- The header checks that the DMA engine applies (R64): check 1, HEADER_CRC, checks 3 and 4, and TOTAL_LEN. -/
def headerChecks (s : State) (img : List Byte) (loadLen : Nat) : Fail :=
  let rd := rdOf img
  let h := readHeader rd
  firstFail [
    failUnless (rd 0 4 == 0x54494C48) Code.ITN_E_MAGIC 0,
    failUnless (rd 0xFC 4 == crc32c (img.take 0xFC)) Code.ITN_E_CRC 0xFFFF,
    failUnless (h.major == s.rd Reg.ITN_CAPS_FMT_MAJOR && decide (h.minor ≤ s.rd Reg.ITN_CAPS_FMT_MINOR))
      Code.ITN_E_VERSION h.major,
    failUnless (h.member == s.rd Reg.GEN_ID_MEMBER) Code.ITN_E_MEMBER h.member,
    failUnless (h.totalLen == loadLen) Code.ITN_E_LENGTH 0xFFFF]

/-- The index of the first directory entry that a test marks. -/
def firstDir (dirs : List Dir) (f : Nat → Dir → Bool) : Option Nat :=
  (List.range dirs.length).find? (fun i => match dirs[i]? with | some d => f i d | none => false)

/-- Check 2: the CRC of the directory and of each section that lies wholly within TOTAL_LEN. -/
def crcCheck (img : List Byte) : Fail :=
  let rd := rdOf img
  let h := readHeader rd
  let dirs := readDirs rd
  if rd 0xFC 4 != crc32c (img.take 0xFC) then some (Code.ITN_E_CRC, 0xFFFF)
  else if rd 0xC0 4 != crc32c ((img.drop 0x100).take (32 * h.sections)) then some (Code.ITN_E_CRC, 0xFFFE)
  else failAt Code.ITN_E_CRC (firstDir dirs (fun _ d =>
    decide (d.off + d.len ≤ h.totalLen) && d.crc != crc32c ((img.drop d.off).take d.len)))

/-- The LENGTH that a section's own fields give (R48); none where every length is accepted here. -/
def wantLen (rd : Rd) (parts : List PartDesc) (d : Dir) : Option Nat :=
  let r := rdAt rd d.off
  match d.type with
  | 1 => some 32
  | 2 => some (16 + r 0 4)
  | 3 => if d.len != 0 && d.len % 32 == 0 then none else some (d.len + 1)
  | 4 => some (16 + 16 * (r 0 2 + r 4 4))
  | 5 => some (16 + 544 * r 0 1)
  | 6 => some (16 + 64 * r 0 2)
  | 7 => some (16 + 32 * r 0 4 + 16 * r 4 4)
  | 8 =>
    if parts.length ≤ d.part then none
    else some ((recordOffs r (maskTiles (parts.getD d.part {}).tileMask).length 64).foldl
      (fun _ off => off + r (off + 0x10) 4) 64)
  | 9 => some 192
  | 10 => if parts.length ≤ d.part then none else some (512 * (maskTiles (parts.getD d.part {}).tileMask).length)
  | 11 => some (16 + 32 * r 0 2)
  | 12 => some (64 + 8 * r 0x16 2)
  | _ => none

/-- Check 5: the limits of R48. A directory that reaches beyond TOTAL_LEN names no section: DETAIL is 0xFFFF (log entry 120). -/
def lengthCheck (img : List Byte) (slotSize loadLen : Nat) : Fail :=
  let rd := rdOf img
  let h := readHeader rd
  let dirs := readDirs rd
  let parts := readParts rd
  let dirEnd := 0x100 + 32 * h.sections
  let inSection (i : Nat) : Bool := decide (i < dirEnd) || dirs.any (fun d => decide (d.off ≤ i) && decide (i < d.off + d.len))
  if h.totalLen != loadLen || decide (2 ^ 30 < h.totalLen) || h.totalLen % 4096 != 0 || decide (slotSize < h.totalLen) ||
      decide (h.totalLen < dirEnd) then some (Code.ITN_E_LENGTH, 0xFFFF)
  else
    match firstDir dirs (fun i d =>
      d.off % 64 != 0 || decide (h.totalLen < d.off + d.len) ||
      (match wantLen rd parts d with | some n => n != d.len | none => false) ||
      spansMeet (0, dirEnd) (d.off, d.off + d.len) ||
      (dirs.take i).any (fun e => spansMeet (e.off, e.off + e.len) (d.off, d.off + d.len))) with
    | some i => some (Code.ITN_E_LENGTH, i)
    | none => failUnless ((List.range h.totalLen).all (fun i => inSection i || img.getD i 0 == 0)) Code.ITN_E_LENGTH 0xFFFF

/-! Checks 6 to 8. -/

/-- Check 6 (R455). -/
def formatCheck (img : List Byte) : Fail :=
  let rd := rdOf img
  let dirs := readDirs rd
  let parts := readParts rd
  if !headerOk rd then some (Code.ITN_E_FORMAT, 0xFFFF)
  else
    firstFail [
      failAt Code.ITN_E_FORMAT (firstDir dirs (fun _ d => !d.zeros || !([0, 1, 0xFF].contains d.part))),
      failAt Code.ITN_E_FORMAT (firstDir dirs (fun _ d => !sectionOk rd parts d)),
      failAt Code.ITN_E_FORMAT (firstDir dirs (fun _ d => !crossOk rd dirs d))]

/-- Whether a section type serves the whole image (R52). -/
def wholeType (t : Nat) : Bool := [1, 2, 5, 12].contains t

/-- Whether a directory entry breaks R52 by itself or by repeating an earlier one. -/
def dirBad (dirs : List Dir) (parts : List PartDesc) (i : Nat) (d : Dir) : Bool :=
  if 0x8000 ≤ d.type then false
  else
    !inRange 1 12 d.type || (if wholeType d.type then d.part != 0xFF else decide (parts.length ≤ d.part)) ||
    (d.type == 9 && (parts.getD d.part {}).role == 1) ||
    (dirs.take i).any (fun e => e.type == d.type && e.part == d.part)

/-- Check 7: the occurrences of R52, and R331's CHAINSPAN for class-8 entries. DETAIL is the section's TYPE. Missing sections
are looked for in the order 1, 2, 5, then 3, 4, 7, 8, then 9, then 12 (log entry 120). -/
def sectionCheck (img : List Byte) : Fail :=
  let rd := rdOf img
  let dirs := readDirs rd
  let parts := readParts rd
  let has (t p : Nat) : Bool := (findDir dirs t p).isSome
  let idx := List.range parts.length
  match firstDir dirs (dirBad dirs parts) with
  | some i => some (Code.ITN_E_SECTION, (dirs.map (·.type)).getD i 0)
  | none =>
    firstFail (([1, 2, 5].map (fun t => failUnless (has t 0xFF) Code.ITN_E_SECTION t)) ++
      ([3, 4, 7, 8].map (fun t => failUnless (idx.all (fun p => has t p)) Code.ITN_E_SECTION t)) ++
      [failUnless (idx.all (fun p => (parts.getD p {}).role == 1 || has 9 p)) Code.ITN_E_SECTION 9,
       failUnless (has 12 0xFF || idx.all (fun p => (readEntries (secRd rd dirs 4 p)).all (fun e => e.cls != 8)))
         Code.ITN_E_SECTION 12])

/-- The neighbour of a tile in a direction: 0 north, 1 east, 2 south, 3 west (R22). -/
def neighbour (t dir : Nat) : Option Nat :=
  if dir = 0 then (if t < 8 then none else some (t - 8))
  else if dir = 1 then (if t % 8 = 7 then none else some (t + 1))
  else if dir = 2 then (if 24 ≤ t then none else some (t + 8))
  else (if t % 8 = 0 then none else some (t - 1))

/-- The tiles of a mask reached from a set, in at most `n` rounds. -/
def spread (mask : Nat) : Nat → List Nat → List Nat
  | 0, l => l
  | n + 1, l => spread mask n ((maskTiles mask).filter (fun t =>
      l.contains t || (List.range 4).any (fun d => match neighbour t d with | some u => l.contains u | none => false)))

/-- The lowest tile of a mask that its lowest tile does not reach. -/
def unreached (mask : Nat) : Option Nat :=
  let ts := maskTiles mask
  let got := spread mask 32 (ts.take 1)
  ts.find? (fun t => !got.contains t)

/-- Check 8: R53, the roles of R50, R25, and the bucket masks of R141, in this order; an unconnected partition is reported with
the lowest tile that its lowest tile does not reach (log entry 120). -/
def partmapCheck (img : List Byte) : Fail :=
  let rd := rdOf img
  let dirs := readDirs rd
  let parts := readParts rd
  let map := secRd rd dirs 1 0xFF
  let n := parts.length
  let mask (p : Nat) : Nat := (parts.getD p {}).tileMask
  let roles := parts.map (·.role)
  let badTile (t : Nat) : Bool :=
    decide (n < map t 1) || (List.range n).any (fun p => bitOf (mask p) t != (map t 1 == p + 1))
  let bk := dirs.find? (fun d => d.type == 9)
  let outside := match bk with
    | some d => (List.range 32).find? (fun t =>
        !bitOf (mask d.part) t && (readBuckets (rdAt rd d.off)).entries.any (fun e => bitOf e.tileMask t))
    | none => none
  firstFail [
    failAt Code.ITN_E_PARTMAP ((List.range 32).find? badTile),
    failUnless (roles == [0] || roles == [1, 2] || roles == [2, 1]) Code.ITN_E_PARTMAP 0xFFFF,
    failUnless ((List.range n).all (fun p => mask p != 0)) Code.ITN_E_PARTMAP 0xFFFF,
    firstFail ((List.range n).map (fun p => failAt Code.ITN_E_PARTMAP (unreached (mask p)))),
    failAt Code.ITN_E_PARTMAP outside]

/-! Checks 9 to 15, over the parsed image. -/

/-- The first of a list of items, with its index, that a test marks. -/
def firstIdx {α : Type} (l : List α) (f : α → Bool) : Option Nat :=
  (l.findIdx? f)

/-- Check 9: a tile's maximum divider above its partition's DIV_LIMIT. -/
def slowCheck (s : State) (im : Image) : Fail :=
  failAt Code.ITN_E_TILE_SLOW ((List.range 32).find? (fun t =>
    im.parts.any (fun x => bitOf x.desc.tileMask t && decide (x.desc.divLimit < s.rd (Reg.PWR_TILE_MAXDIV t)))))

/-- The phases of a tile and segment, in their order. -/
def phasesOf (x : PartImage) (t seg : Nat) : List PhaseEntry := x.plan.filter (fun e => e.tile == t && e.seg == seg)

/-- Whether a phase entry stands after the one before it, by tile, segment and beat. -/
def phaseAfter (a b : PhaseEntry) : Bool :=
  decide (a.tile < b.tile) || (a.tile == b.tile && (decide (a.seg < b.seg) || (a.seg == b.seg && decide (a.start < b.start))))

/-- The tile of the first phase entry that breaks R55 or R56, given the entry before it. A refused owner code, and a SEGMENT beyond
the timetable, break R55 and are not left to check 6 (log entry 120). -/
def planBad (x : PartImage) : Option PhaseEntry → List PhaseEntry → Option Nat
  | _, [] => none
  | prev, e :: rest =>
    let first := match prev with
      | some a => a.tile != e.tile || a.seg != e.seg
      | none => true
    let ordered := match prev with
      | some a => phaseAfter a e
      | none => true
    let seg := x.segs.getD e.seg {}
    if !bitOf x.desc.tileMask e.tile || decide (x.segs.length ≤ e.seg) || decide (seg.lenBeats ≤ e.start) || !ordered ||
        (first && e.start != 0) || (List.range 32).any (fun k => !inRange 1 5 (ownerOf e.owners k)) then some e.tile
    else planBad x (some e) rest

/-- The tile, the owner code and the engines of an entry of class 0, 1, 6 or 7 (R453). -/
def engineOf (e : TimeEntry) : Option (Nat × Nat × List Nat) :=
  match e.cls with
  | 0 => some (e.index / 2, 1 + e.index % 2, [3])
  | 1 => some (e.index / 2, 1 + e.index % 2, [4])
  | 6 => some (e.index, 3, [0, 2])
  | 7 => some (e.index, 4, [1])
  | _ => none

/-- The tile record of a tile. -/
def tileKernels (x : PartImage) (t : Nat) : Option TileKernels := x.kernels.find? (fun k => k.tile == t)

/-- The kernel of an entry's invocation. -/
def kernelOf (x : PartImage) (t opRef : Nat) : Option KernelEntry :=
  match tileKernels x t with
  | some k => (match k.invocations[opRef]? with | some v => k.dir[v.1]? | none => none)
  | none => none

/-- Whether each phase that an entry covers gives the kernel's banks to its engine. -/
def banksOwned (ph : List PhaseEntry) (segLen : Nat) (e : TimeEntry) (banks owner : Nat) : Bool :=
  (List.range ph.length).all (fun i =>
    let a := ph.getD i ⟨0, 0, 0, 0⟩
    let stop := match ph[i + 1]? with | some b => b.start | none => segLen
    !(decide (a.start < e.start + e.len) && decide (e.start < stop)) ||
      (List.range 32).all (fun k => !bitOf banks k || ownerOf a.owners k == owner))

/-- Whether an entry breaks R453's bank and kernel conditions. A tile outside the partition is left to check 12. -/
def entryBad (x : PartImage) (e : TimeEntry) : Option Nat :=
  match engineOf e with
  | none => none
  | some (t, owner, engines) =>
    if !bitOf x.desc.tileMask t then none
    else
      match kernelOf x t e.opRef with
      | none => some t
      | some k =>
        if engines.contains k.cls && banksOwned (phasesOf x t e.seg) (x.segs.getD e.seg {}).lenBeats e k.bankMask owner
        then none else some t

/-- The first answer over a list. -/
def firstSome {α : Type} (f : α → Option Nat) : List α → Option Nat
  | [] => none
  | a :: rest => match f a with
    | some d => some d
    | none => firstSome f rest

/-- Check 10 for one partition: R55, R56, R88 and R453. Plan entries come first, then missing phases, kernel banks and OP_REF
(log entry 120). -/
def ownerBad (x : PartImage) : Option Nat :=
  let ts := maskTiles x.desc.tileMask
  let segs := List.range x.segs.length
  match planBad x none x.plan with
  | some t => some t
  | none =>
    match ts.find? (fun t => segs.any (fun g => (phasesOf x t g).isEmpty)) with
    | some t => some t
    | none =>
      match ts.find? (fun t =>
        let km := match tileKernels x t with | some k => k.kernelBanks | none => 0
        (x.plan.filter (fun e => e.tile == t)).any (fun e =>
          (List.range 32).any (fun k => bitOf km k && ownerOf e.owners k != 5))) with
      | some t => some t
      | none => firstSome (entryBad x) x.entries

/-- Check 10. -/
def ownerCheck (im : Image) : Fail := failAt Code.ITN_E_OWNER (firstSome ownerBad im.parts)

/-- Whether a span of beats covers the last beat of a group of `r`. -/
def coversWindow (e : TimeEntry) (r : Nat) : Bool := decide (e.start + (r - 1 - e.start % r) < e.start + e.len)

/-- Check 11 for one partition: segment lengths, then entries (log entry 120). -/
def windowBad (im : Image) (x : PartImage) : Option Nat :=
  let r := 2 ^ im.windowLog2
  let c := im.chainWindowLog2
  match firstIdx x.segs (fun g => g.lenBeats % r != 0 || (c != 0 && g.lenBeats % 2 ^ c != 0)) with
  | some k => some (0x80000000 + k)
  | none => firstIdx x.entries (fun e =>
      ((e.cls == 3 || e.cls == 5) && coversWindow e r) || (e.cls == 8 && (c == 0 || coversWindow e (2 ^ c))))

/-- Check 11: R59 and R331. -/
def windowCheck (im : Image) : Fail :=
  if !inRange 3 6 im.windowLog2 || (im.chainWindowLog2 != 0 && !inRange 3 6 im.chainWindowLog2) then
    some (Code.ITN_E_WINDOW, 0xFFFF)
  else failAt Code.ITN_E_WINDOW (firstSome (windowBad im) im.parts)

/-- Whether an entry names a resource with an end outside its partition (R25). -/
def routeBad (mask : Nat) (e : TimeEntry) : Bool :=
  match e.cls with
  | 0 => !bitOf mask (e.index / 2)
  | 1 => !bitOf mask (e.index / 2)
  | 2 => !bitOf mask (e.index / 4) || (match neighbour (e.index / 4) (e.index % 4) with
      | some u => !bitOf mask u
      | none => true)
  | 3 => !bitOf mask e.index
  | 6 => !bitOf mask e.index
  | 7 => !bitOf mask e.index
  | _ => false

/-- Check 12. -/
def routeCheck (im : Image) : Fail :=
  failAt Code.ITN_E_ROUTE (firstSome (fun x => firstIdx x.entries (routeBad x.desc.tileMask)) im.parts)

/-- Whether two entries collide (R60). -/
def collides (a b : TimeEntry) : Bool :=
  a.seg == b.seg && spansMeet (a.start, a.start + a.len) (b.start, b.start + b.len) && a.index == b.index &&
  (a.cls == b.cls || (decide (a.cls ≤ 1) && decide (b.cls ≤ 1) && a.flags == b.flags))

/-- The later entry of the first collision. -/
def collideBad (l : List TimeEntry) : Option Nat :=
  (List.range l.length).find? (fun j => match l[j]? with
    | some e => (l.take j).any (fun a => collides a e)
    | none => false)

/-- Check 13. -/
def collideCheck (im : Image) : Fail :=
  failAt Code.ITN_E_COLLIDE (firstSome (fun x => collideBad x.entries) im.parts)

/-! Check 14 (R54, R454). -/

/-- The first slot of a frame that breaks R54. -/
def frameBad (frame : List Nat) (ratio parts : Nat) : Option Nat :=
  let n := frame.length
  (List.range n).find? (fun i =>
    let b := frame.getD i 0
    (n % ratio != 0 && i == n - n % ratio) ||
    [0, 2, 4].any (fun sh => decide (minNat parts 2 < bitsOf b sh 2)) ||
    (i % ratio == ratio - 1 && (bitsOf b 0 2 != 0 || bitsOf b 4 2 != 0)))

/-- For each beat of the longest step: its segment, the class-4 entries that begin in it, the class-5 entries that cover
it. -/
def stepUse (x : PartImage) : List (Nat × Nat × Nat) :=
  ((List.range x.segs.length).map (fun g =>
    let seg := x.segs.getD g {}
    let es := x.entries.filter (fun e => e.seg == g)
    let one := (List.range seg.lenBeats).map (fun b =>
      (g, (es.filter (fun e => e.cls == 4 && e.start == b)).length,
        (es.filter (fun e => e.cls == 5 && decide (e.start ≤ b) && decide (b < e.start + e.len))).length))
    (List.replicate seg.maxRepeat one).flatten)).flatten

/-- The segment of the first run of `slots` M-cycles in which a partition's use exceeds its slots. A beat that the run covers in
part lies in it (log entry 120). -/
def useBad (x : PartImage) (slots cel hub : Nat) : Option Nat :=
  let u := stepUse x
  let n := u.length
  if n = 0 then none
  else
    let w := ceilDiv slots 32
    let at_ (i : Nat) : Nat × Nat × Nat := u.getD (i % n) (0, 0, 0)
    match (List.range n).find? (fun b =>
      let run := (List.range w).map (fun i => at_ (b + i))
      decide (cel < sumNat (run.map (fun r => r.2.1))) || decide (hub < ceilDiv (sumNat (run.map (fun r => r.2.2))) 2)) with
    | some b => some (0x80000000 + (at_ b).1)
    | none => none

/-- Check 14. -/
def hubCheck (img : List Byte) (im : Image) : Fail :=
  let rd := rdOf img
  let r := secRd rd (readDirs rd) 2 0xFF
  let frame := (List.range (r 0 4)).map (fun i => r (16 + i) 1)
  match frameBad frame (2 ^ im.windowLog2) im.parts.length with
  | some i => some (Code.ITN_E_HUBFRAME, i)
  | none =>
    failAt Code.ITN_E_HUBFRAME (firstSome (fun p =>
      useBad (im.parts.getD p {}) frame.length ((frame.filter (fun b => bitsOf b 2 2 == p + 1)).length)
        ((frame.filter (fun b => bitsOf b 0 2 == p + 1)).length)) (List.range im.parts.length))

/-! Check 15 (R455). -/

/-- The class-4 entries of a partition. -/
def reads (x : PartImage) : List TimeEntry := x.entries.filter (fun e => e.cls == 4)

/-- The banks a partition reads. -/
def banksRead (x : PartImage) : List Nat := ((reads x).map (fun e => e.index / 16)).eraseDups

/-- Whether a segment has 24,576 consecutive beats without a read of a bank, given the reads in their order. -/
def restIn (len : Nat) : Nat → List TimeEntry → Bool
  | cur, [] => decide (cur + 24576 ≤ len)
  | cur, e :: rest => decide (cur + 24576 ≤ e.start) || restIn len (maxNat cur (e.start + e.len)) rest

/-- Whether a bank has a rest (R169). -/
def hasRest (x : PartImage) (bank : Nat) : Bool :=
  (List.range x.segs.length).any (fun g =>
    let seg := x.segs.getD g {}
    seg.repeatSrc == 0 && restIn seg.lenBeats 0 ((reads x).filter (fun e => e.seg == g && e.index / 16 == bank)))

/-- Row 1: a tile record's thread, scratch and image bounds. -/
def kernelBounds (k : TileKernels) : Bool :=
  decide (k.threads ≤ 32768) && k.threads == sumNat (k.dir.map (·.threads)) && decide (k.scratch ≤ 8388608) &&
  decide (k.imageLen ≤ 262144 * (maskTiles k.kernelBanks).length)

/-- Row 5: the sums of R57. -/
def segBounds (x : PartImage) : Bool :=
  let d := x.desc
  let bound := if d.role = 1 then ceilDiv d.chunkTokens 64 else d.maxRows / 64
  sumNat (x.segs.map (fun g => g.lenBeats * g.maxRepeat)) == d.maxStepBeats &&
  (x.segs.getD (x.segs.length - 1) {}).lenBeats == d.tScatter &&
  x.segs.all (fun g => g.repeatSrc != 1 || decide (bound ≤ g.maxRepeat))

/-- Row 6: R168 within one partition. -/
def readBounds (x : PartImage) : Bool :=
  (reads x).all (fun e => decide (188 ≤ e.len) && e.index % 16 != 15)

/-- Row 7: reads and rack loads only in segments that run once. -/
def repeatBounds (x : PartImage) : Bool :=
  x.entries.all (fun e => (x.segs.getD e.seg {}).repeatSrc == 0 ||
    !(e.cls == 4 || (e.cls == 1 && (match kernelOf x (e.index / 2) e.opRef with | some k => k.mode == 0 | none => false))))

/-- Row 8: the bucket conditions of R141. `named` says that BUCKETS names this partition. -/
def bucketBounds (g : Buckets) (x : PartImage) (named : Bool) : Bool :=
  x.segs.all (fun seg => decide (seg.repeatSrc < 2) ||
    (decide (seg.repeatSrc - 2 < g.bucketCount) &&
      (!named || seg.maxRepeat == (g.entries.getD (seg.repeatSrc - 2) {}).maxGroups))) &&
  (!named || x.entries.all (fun e =>
    let src := (x.segs.getD e.seg {}).repeatSrc
    decide (src < 2) || (match engineOf e with
      | some (t, _, _) => e.cls == 1 || bitOf (g.entries.getD (src - 2) {}).tileMask t
      | none => true)))

/-- Check 15. -/
def boundsCheck (im : Image) : Fail :=
  let all (f : PartImage → Bool) : Bool := im.parts.all f
  let banks := im.parts.map banksRead
  let g := im.buckets.getD {}
  let e := Code.ITN_E_BOUNDS
  firstFail [
    failUnless (all (fun x => x.kernels.all kernelBounds)) e 0x0008,
    failUnless (all (fun x => decide (x.desc.maxRows ≤ 256))) e 0xFFFF,
    failUnless (all (fun x => x.desc.role != 0 || decide (x.desc.chunkTokens ≤ x.desc.maxRows))) e 0x0009,
    failUnless (all (fun x => decide (x.tableEntries ≤ 65536))) e 0x000B,
    failUnless (all segBounds) e 0x0004,
    failUnless (all readBounds && !((banks.getD 0 []).any (fun b => (banks.getD 1 []).contains b)) &&
      all (fun x => (banksRead x).all (hasRest x))) e 0x0004,
    failUnless (all repeatBounds) e 0x0005,
    failUnless (all (fun x => bucketBounds g x (x.desc.role != 1))) e 0x0009]

/-! Checks 16 and 17 (R210, R346). -/

/-- The set a model slot points to, where it points to one; `next` asks for the set of a pending swap, which an
activation uses (R219). -/
def pointedSet (s : State) (m : Nat) (next : Bool) : Option Nat :=
  if m < 64 && s.flag (Reg.EXP_MSLOT_VALID m) then
    some (if next && s.flag (Reg.EXP_MSLOT_PENDING m) then s.rd (Reg.EXP_MSLOT_NEXT_SET m)
      else s.rd (Reg.EXP_MSLOT_SET m))
  else none

/-- The effective slot of a layout entry (R210, R211): the context's override, or MODEL_SLOT. -/
def effectiveSlot (s : State) (im : Image) (e : LayoutEntry) (ctx : Option Nat) : Nat :=
  match ctx with
  | none => e.modelSlot
  | some c =>
    let o := if (im.parts.getD e.partition {}).desc.role = 1 then s.rd (Reg.EXP_CTXV_DATA_PREFILL_SLOT c)
      else s.rd (Reg.EXP_CTXV_DATA_DECODE_SLOT c)
    if o = 0xFF then e.modelSlot else o

/-- Whether a table's slot holds a table of an epoch. -/
def tableLoaded (s : State) (id epoch : Nat) : Bool :=
  epoch != 0 && (s.rd (Reg.EXP_TBL_TAG_A id) == epoch || s.rd (Reg.EXP_TBL_TAG_B id) == epoch)

/-- Whether no run of a set has more pages than its plane has reads in a step. -/
def runsFit (x : PartImage) (r : SetRec) : Bool :=
  (r.planes.zip r.pages).all (fun q => decide (q.2 ≤ ((reads x).filter (fun e => e.index == q.1)).length))

/-- The conditions of R210 on one layout entry with its effective slot. -/
def layoutServed (s : State) (im : Image) (e : LayoutEntry) (slot : Nat) (next : Bool) : Bool :=
  let x := im.parts.getD e.partition {}
  match pointedSet s slot next with
  | none => false
  | some n =>
    let r := s.set n
    let base := if e.form < 2 then some {} else match pointedSet s e.baseSlot next with
      | some b =>
        let q := s.set b
        if q.state == 3 && q.form == 0 && q.layoutTag == e.baseLayoutTag && q.setUid == r.baseUid && q.blocks == r.blocks then
          some q else none
      | none => none
    r.state == 3 && r.form == e.form && r.layoutTag == e.layoutTag && r.tables.all (fun t => tableLoaded s t.1 t.2) &&
    runsFit x r && e.arrays.all (fun a => decide (a.1 + a.2 ≤ r.blocks)) &&
    (match base with | some q => runsFit x q | none => false)

/-- Check 16 over every CELLAR_LAYOUT entry; with the Cellar failed no set can be served (R178). -/
def weightsCheck (s : State) (im : Image) (ctx : Option Nat) : Fail :=
  failUnless (s.rd Reg.CEL_STATUS_PHASE != 5 && im.layouts.all (fun e => layoutServed s im e (effectiveSlot s im e ctx) ctx.isSome)) Code.ITN_E_WEIGHTS 0

/-- The room of a stage of the span of partition `p`. -/
def stageRoom (s : State) (p stage : Nat) : Nat := s.rd (Reg.CHN_S_ROOM_ROOM p stage)

/-- The roster record of a room. -/
def rosterOf (s : State) (room : Nat) : Option RosterRec := s.chn.roster.find? (fun r => r.room == room)

/-- Hops between two rooms: the shorter way in a ring. -/
def hops (s : State) (a b : Nat) : Nat :=
  let d := if a ≤ b then b - a else a - b
  if s.flag Reg.CHN_STATUS_RING then minNat d (s.rd Reg.CHN_STATUS_COUNT - d) else d

/-- Whether a region of a context is present, writable tier-0 pages. -/
def regionWritable (s : State) (ctx va n : Nat) : Bool :=
  (List.range (ceilDiv (va % 4096 + n) 4096)).all (fun i => match walk s ctx (va / 4096 * 4096 + 4096 * i) true with
    | .ok l => l.tier == 0
    | .no _ => false)

/-- The conditions of R346 on a span, at activation for a context. -/
def spanServed (s : State) (x : ChainSpan) (ctx : Nat) : Bool :=
  let p := x.partition
  let room (k : Nat) : Nat := stageRoom s p k
  !s.flag Reg.CHN_STATUS_STALE &&
  (List.range x.stages).all (fun k => match rosterOf s (room k) with
    | some r => room k != 0 && bitsOf (r.words.getD 0 0) 16 16 == s.rd Reg.CHN_LEVEL_COMPAT_LEVEL
    | none => false) &&
  (x.stage == 0 || s.rd (Reg.CHN_P_PEER_ROOM x.inPort) == room (x.stage - 1)) &&
  (x.stage + 1 == x.stages || s.rd (Reg.CHN_P_PEER_ROOM x.outPort) == room (x.stage + 1)) &&
  x.routes.all (fun r => decide (hops s (room x.stage) (room r.1) ≤ r.2)) &&
  (x.stage == 0 || regionWritable s ctx (s.rd (Reg.CHN_S_IN_VA p)) (2 * x.inBytes)) &&
  (x.stage + 1 == x.stages || regionWritable s ctx (s.rd (Reg.CHN_S_OUT_VA p)) (2 * x.outBytes))

/-- Check 17: the unit is in a chain once a roll call has given it a room. -/
def chainCheck (s : State) (im : Image) (ctx : Option Nat) : Fail :=
  failUnless (decide (im.compat ≤ s.rd Reg.CHN_LEVEL_COMPAT_LEVEL) &&
    (match im.span with
     | none => true
     | some x => s.rd Reg.CHN_STATUS_ROOM != 0 && (match ctx with | some c => spanServed s x c | none => true)))
    Code.ITN_E_CHAIN 0

/-! The whole. -/

/-- Validation (R68): the first check that fails, in table order. -/
def validate (s : State) (img : List Byte) (loadLen : Nat) : Fail :=
  let im := readImage img
  match headerChecks s img loadLen with
  | some (c, d) =>
    if c = Code.ITN_E_MAGIC then some (c, d)
    else firstFail [crcCheck img, some (c, d)]
  | none =>
    match firstFail [crcCheck img, lengthCheck img (slotBytes s) loadLen, formatCheck img, sectionCheck img,
      partmapCheck img] with
    | some f => some f
    | none =>
      firstFail [slowCheck s im, ownerCheck im, windowCheck im, routeCheck im, collideCheck im, hubCheck img im,
        boundsCheck im, weightsCheck s im none, chainCheck s im none]

/-- The checks that an activation repeats (R71): 9, 16 and 17. -/
def activationFail (s : State) (im : Image) (ctx : Nat) : Fail :=
  firstFail [slowCheck s im, weightsCheck s im (some ctx), chainCheck s im (some ctx)]

end Sys2Proof.Machine
end

