-- ==== Sys2Proof/Machine/Itinerary.lean ====
section
/-! DEFINITION. Itinerary slots: loading an image, its validation, aborts and faults of a load, freeing a slot, the size
of the slot region, and binding contexts (R61 to R70). -/

namespace Sys2Proof.Machine

/-- Whether a load or validation is in progress. -/
def loadRunning (s : State) : Bool := s.rd Reg.ITN_LOAD_STATUS_STATE == 1 || s.rd Reg.ITN_LOAD_STATUS_STATE == 2

/-- The slot of the load in progress. -/
def loadSlot (s : State) : Nat := s.rd Reg.ITN_LOAD_STATUS_SLOT

/-- An ITN command refused: its code reads in ITN_LOAD_STATUS.CODE and is recorded. -/
def loadRefuse (s : State) (code : Nat) : State := (s.wr Reg.ITN_LOAD_STATUS_CODE code).rep code 0

/-- Put a slot's image and the fields that follow from it. -/
def setSlot (s : State) (k state : Nat) (im : Option Image) : State :=
  let s := { s with images := SMap.set imageBlank s.images k im }
  s.wrs [(Reg.ITN_SLOT_STATE k, state),
    (Reg.ITN_SLOT_PARTS k, match im with | some i => i.parts.length - 1 | none => 0)]

/-- A load command (R63, R67). -/
def loadGo (s : State) (k : Nat) (list : Bool) : State :=
  let s := s.wrs [(Reg.ITN_LOAD_CTRL_SLOT, k), (Reg.ITN_LOAD_CTRL_SRC_LIST, b2n list)]
  s.keeper Reg.ITN_LOAD_STATUS_CODE (fun s =>
    if loadRunning s then s.wr Reg.ITN_LOAD_STATUS_CODE Code.ITN_E_LOAD_BUSY
    else if s.rd (Reg.ITN_SLOT_BOUND_COUNT k) != 0 || s.rd (Reg.ITN_SLOT_STATE k) == 3 then
      loadRefuse s Code.ITN_E_SLOT_BUSY
    else
      let s := setSlot s k 1 none
      let s := s.wrs [(Reg.ITN_LOAD_STATUS_STATE, 1), (Reg.ITN_LOAD_STATUS_SLOT, k), (Reg.ITN_LOAD_STATUS_CODE, 0),
        (Reg.ITN_LOAD_DETAIL_DETAIL, 0), (Reg.ITN_LOAD_PROGRESS_BYTES, 0)]
      { s with loadLen := s.rd Reg.ITN_LOAD_LEN_LEN * 4096 })

/-- ITN_LOAD_GO (R64, R67). -/
def execItnLoadGo (slot : Nat) (list : Bool) (s : State) : Answer :=
  .next (s.host Reg.ITN_LOAD_CTRL_SLOT.off (fun s => loadGo s slot list))

/-- The end of a load: the slot's state, the code and DETAIL, the event; a code other than 0 is recorded. -/
def loadEnd (s : State) (state : Nat) (im : Option Image) (code detail : Nat) : State :=
  let s := setSlot s (loadSlot s) state im
  let s := s.wrs [(Reg.ITN_LOAD_STATUS_STATE, 3), (Reg.ITN_LOAD_STATUS_CODE, code), (Reg.ITN_LOAD_DETAIL_DETAIL, detail)]
  let s := s.raiseItn Reg.ITN_IRQ_STATUS_LOAD_DONE
  if code = 0 then s else s.report { errOf code 0 with detail := detail }

/-- The bytes of a slot that a load has filled go: no part of it remains (R66). -/
def wipeLoad (s : State) : State := { s with dram := dramZero s.dram (slotBase s (loadSlot s)) s.loadLen }

/-- The first 256 bytes of the image have arrived (R64). -/
def headerArrived (s : State) (bytes : List Byte) : State :=
  if s.rd Reg.ITN_LOAD_STATUS_STATE = 1 then
    let s := (s.mwrite (slotBase s (loadSlot s)) bytes).wr Reg.ITN_LOAD_PROGRESS_BYTES (minNat 256 s.loadLen)
    match headerChecks s bytes s.loadLen with
    | some (c, d) => loadEnd s 4 none c d
    | none => s
  else s

/-- HEADER_ARRIVED (R64). -/
def execHeaderArrived (bytes : List Byte) (s : State) : Answer := .next (s.engine (fun s => headerArrived s bytes))

/-- The last byte of the image has arrived: Keeper validates it (R62, R69). -/
def dmaDone (s : State) (bytes : List Byte) : State :=
  if s.rd Reg.ITN_LOAD_STATUS_STATE = 1 then
    let s := (wipeLoad s).mwrite (slotBase s (loadSlot s)) (bytes.take s.loadLen)
    s.wrs [(Reg.ITN_SLOT_STATE (loadSlot s), 2), (Reg.ITN_LOAD_STATUS_STATE, 2), (Reg.ITN_LOAD_PROGRESS_BYTES, 0)]
  else s

/-- ITN_DMA_DONE (R62). -/
def execItnDmaDone (bytes : List Byte) (s : State) : Answer := .next (s.engine (fun s => dmaDone s bytes))

/-- Keeper has checked the image in the slot (R62, R68). -/
def validationDone (s : State) : State :=
  if s.rd Reg.ITN_LOAD_STATUS_STATE = 2 then
    let img := s.mread (slotBase s (loadSlot s)) s.loadLen
    match validate s img s.loadLen with
    | some (c, d) => loadEnd s 4 none c d
    | none => loadEnd (s.wr Reg.ITN_LOAD_PROGRESS_BYTES s.loadLen) 3 (some (readImage img)) 0 0
  else s

/-- VALIDATION_DONE (R62, R68). -/
def execValidationDone (s : State) : Answer := .next (s.engine validationDone)

/-- A PCI Express fault of the load DMA (R66). -/
def loadDmaError (s : State) (off : Nat) : State :=
  if s.rd Reg.ITN_LOAD_STATUS_STATE = 1 then loadEnd (wipeLoad s) 0 none Code.ITN_E_DMA (off / 4096) else s

/-- ITN_LOAD_DMA_ERROR (R66). -/
def execItnLoadDmaError (off : Nat) (s : State) : Answer := .next (s.engine (fun s => loadDmaError s off))

/-- A load or validation stops (R67); the abort of a register, and that of a function level reset (R299). -/
def loadAbort (s : State) : State := if loadRunning s then loadEnd (wipeLoad s) 0 none Code.ITN_E_ABORTED 0 else s

/-- ITN_LOAD_ABORT (R67). -/
def execItnLoadAbort (s : State) : Answer := .next (s.host Reg.ITN_LOAD_CTRL_SLOT.off loadAbort)

/-- A FREE command (R62, R63). -/
def slotFree (s : State) (k : Nat) : State :=
  if s.rd (Reg.ITN_SLOT_BOUND_COUNT k) != 0 then loadRefuse s Code.ITN_E_SLOT_BUSY
  else if s.rd (Reg.ITN_SLOT_STATE k) == 3 || s.rd (Reg.ITN_SLOT_STATE k) == 4 then setSlot s k 0 none
  else s

/-- SLOT_FREE (R62, R63). -/
def execSlotFree (slot : Nat) (s : State) : Answer :=
  .next (s.host (Reg.ITN_SLOT_FREE slot).off (fun s => slotFree s slot))

/-- A write of SLOT_SIZE (R61, R227). -/
def slotSizeWrite (s : State) (v : Nat) : State :=
  if (List.range 8).any (fun k => s.rd (Reg.ITN_SLOT_STATE k) != 0) then loadRefuse s Code.ITN_E_SLOT_BUSY
  else if usedAbove s (granAvailOf (v % 4) (s.rd Reg.MEM_CFG_SETREC_GIB)) then
    (s.wr Reg.MEM_GRANT_STATUS_CODE Code.MEM_E_GRANULE).rep Code.MEM_E_GRANULE 0
  else s.wr Reg.ITN_CFG_SLOT_SIZE v

/-- SLOT_SIZE_WRITE (R61, R227). -/
def execSlotSizeWrite (size : Nat) (s : State) : Answer :=
  .next (s.host Reg.ITN_CFG_SLOT_SIZE.off (fun s => slotSizeWrite s size))

/-! Binding. -/

/-- The slot a context is bound to. -/
def boundSlot (s : State) (c : Nat) : Option Nat :=
  if s.flag (Reg.SEC_CTX_BOUND c) then some (s.rd (Reg.SEC_CTX_SLOT c)) else none

/-- Drop a context's binding. -/
def unbind (s : State) (c : Nat) : State :=
  match boundSlot s c with
  | some k => s.wrs [(Reg.ITN_SLOT_BOUND_COUNT k, s.rd (Reg.ITN_SLOT_BOUND_COUNT k) - 1),
      (Reg.SEC_CTX_BOUND c, 0), (Reg.SEC_CTX_SLOT c, 0)]
  | none => s

/-- Bind a context to a slot, replacing an earlier binding. -/
def bind (s : State) (k c : Nat) : State :=
  let s := unbind s c
  s.wrs [(Reg.ITN_SLOT_BOUND_COUNT k, s.rd (Reg.ITN_SLOT_BOUND_COUNT k) + 1),
    (Reg.SEC_CTX_BOUND c, 1), (Reg.SEC_CTX_SLOT c, k)]

/-- The end of a bind operation: its code and event. -/
def bindEnd (s : State) (c code : Nat) : State :=
  let s := (s.wr Reg.ITN_BIND_STATUS_CODE code).raiseItn Reg.ITN_IRQ_STATUS_BIND_DONE
  if code = 0 then s else s.report { errOf code 0 with context := c }

/-- A bind operation (R70). -/
def bindCmd (s : State) (op k c : Nat) : State :=
  let s := s.wrs [(Reg.ITN_BIND_OP, op), (Reg.ITN_BIND_SLOT, k), (Reg.ITN_BIND_CONTEXT, c)]
  s.keeper Reg.ITN_BIND_STATUS_CODE (fun s =>
    if 1 < op || runningOrPending s c ||
        (op == 0 && (!registered s c || s.rd (Reg.ITN_SLOT_STATE k) != 3)) then bindEnd s c Code.ITN_E_BIND
    else bindEnd (if op = 0 then bind s k c else unbind s c) c 0)

/-- ITN_BIND (R70). -/
def execItnBind (slot ctx : Nat) (s : State) : Answer :=
  .next (s.host Reg.ITN_BIND_OP.off (fun s => bindCmd s 0 slot ctx))

/-- ITN_UNBIND (R70); the word's SLOT field keeps its value. -/
def execItnUnbind (ctx : Nat) (s : State) : Answer :=
  .next (s.host Reg.ITN_BIND_OP.off (fun s => bindCmd s 1 (s.rd Reg.ITN_BIND_SLOT) ctx))

/-- BIND_OP_REFUSED: OP 2 or 3 (R70). -/
def execBindOpRefused (op ctx : Nat) (s : State) : Answer :=
  .next (s.host Reg.ITN_BIND_OP.off (fun s => bindCmd s op (s.rd Reg.ITN_BIND_SLOT) ctx))

end Sys2Proof.Machine
end

