-- ==== Sys2Proof/Machine/Scratch.lean ====
section
/-! DEFINITION. A tile's scratch: bank addressing (R244), owners (R55, R245), written bits (R247), the handover of banks,
and the kernel banks and thread table that an activation fills (R88, R89, R94). -/

namespace Sys2Proof.Machine

/-- Bytes in a bank. -/
def bankSize : Nat := 262144

/-- What an empty scratch store reads as. -/
def scrBlank : Nat → Nat := fun _ => 0

/-- The bank and byte in the bank of a 23-bit scratch address under a hash mask (R244). -/
def scrPlace (a mask : Nat) : Nat × Nat :=
  (Nat.xor (bitsOf a 6 5) (Nat.land (bitsOf a 11 5) mask), bitsOf a 11 12 * 64 + a % 64)

/-- Whether a line of a bank has its written bit set. -/
def Tile.isWritten (t : Tile) (bank line : Nat) : Bool := SMap.get scrBlank t.written (bank * 4096 + line) == 1

/-- A byte of a bank as a read sees it: 0 where the line's written bit is clear (R247). -/
def Tile.byte (t : Tile) (bank off : Nat) : Nat :=
  if t.isWritten bank (off / 64) then SMap.get scrBlank t.scratch (bank * bankSize + off) else 0

/-- Clear the cells of a line that is about to be written for the first time (R247). -/
def Tile.freshLine (t : Tile) (bank line : Nat) : Tile :=
  if t.isWritten bank line then t
  else { t with
    scratch := SMap.keep (fun k => k / 64 != bank * 4096 + line) t.scratch
    written := SMap.set scrBlank t.written (bank * 4096 + line) 1 }

/-- Write a byte of a bank. -/
def Tile.put (t : Tile) (bank off v : Nat) : Tile :=
  let t := t.freshLine bank (off / 64)
  { t with scratch := SMap.set scrBlank t.scratch (bank * bankSize + off) (v % 256) }

/-- Write bytes of a bank from an offset. -/
def Tile.puts (t : Tile) (bank off : Nat) : List Nat → Tile
  | [] => t
  | v :: rest => Tile.puts (t.put bank off v) bank (off + 1) rest

/-- The bank and the byte in it of byte `i` of a run (R244). -/
def refPlace (r : ScrRef) (i : Nat) : Nat × Nat :=
  match r with
  | .bank b off => (b, off + i)
  | .addr a mask => scrPlace ((a + i) % 2 ^ 23) mask

/-- The banks of a run of `n` bytes. -/
def refBanks (r : ScrRef) (n : Nat) : List Nat := ((List.range n).map (fun i => (refPlace r i).1)).eraseDups

/-- Bytes of a run as an engine with an owner code reads them: 0 from a bank of another owner (R245). -/
def Tile.readRef (t : Tile) (owner : Nat) (r : ScrRef) (n : Nat) : List Nat :=
  (List.range n).map (fun i =>
    let q := refPlace r i
    if SMap.get scrBlank t.owners q.1 = owner then t.byte q.1 q.2 else 0)

/-- Write a run as an engine with an owner code does: a byte for a bank of another owner is dropped (R245). -/
def Tile.putRef (t : Tile) (owner : Nat) (r : ScrRef) (bs : List Nat) : Tile :=
  (List.range bs.length).foldl (fun u i =>
    let q := refPlace r i
    if SMap.get scrBlank t.owners q.1 = owner then u.put q.1 q.2 (bs.getD i 0) else u) t

/-- Clear the cells of a line of the secure region that is about to be written for the first time. -/
def Tile.freshSecure (t : Tile) (line : Nat) : Tile :=
  if SMap.get scrBlank t.secureWritten line == 1 then t
  else { t with
    secure := SMap.keep (fun k => k / 64 != line) t.secure
    secureWritten := SMap.set scrBlank t.secureWritten line 1 }

/-- Write bytes of the secure region from an offset, with its written bits (R253). -/
def Tile.putSecure (t : Tile) (off : Nat) : List Nat → Tile
  | [] => t
  | v :: rest =>
    let t := t.freshSecure (off % 2 ^ 19 / 64)
    Tile.putSecure { t with secure := SMap.set scrBlank t.secure (off % 2 ^ 19) (v % 256) } (off + 1) rest

/-- A byte of the secure region as a read sees it: 0 where the line's written bit is clear (R253). -/
def Tile.secureByte (t : Tile) (off : Nat) : Nat :=
  if SMap.get scrBlank t.secureWritten (off % 2 ^ 19 / 64) == 1 then SMap.get scrBlank t.secure (off % 2 ^ 19) else 0

/-- Zero the secure region (R254). -/
def Tile.wipeSecure (t : Tile) : Tile := { t with secure := [] }

/-- The owner code of a bank. -/
def Tile.owner (t : Tile) (bank : Nat) : Nat := SMap.get scrBlank t.owners bank

/-- Clear every written bit of a bank. -/
def Tile.clearBank (t : Tile) (bank : Nat) : Tile :=
  { t with written := SMap.keep (fun k => k / 4096 != bank) t.written }

/-- Give a bank to an owner; its written bits are cleared where the owner changes, or always where `force` (R56, R94). -/
def Tile.give (t : Tile) (force : Bool) (bank code : Nat) : Tile :=
  let t := if force || t.owner bank != code then t.clearBank bank else t
  { t with owners := SMap.set scrBlank t.owners bank code }

/-- Hand banks to the owners of a phase; `banks` says which, `force` whether the written bits of a kept bank go too. -/
def Tile.handover (t : Tile) (force : Bool) (banks : List Nat) (owners : Nat) : Tile :=
  banks.foldl (fun u b => u.give force b (ownerOf owners b)) t

/-- The kernel banks of a tile of a partition, ascending (R88). -/
def kernelBanksOf (x : PartImage) (n : Nat) : List Nat :=
  match tileKernels x n with
  | some k => (List.range 32).filter (fun b => bitOf k.kernelBanks b)
  | none => []

/-- The owners field of phase 0 of segment 0 of a tile. -/
def phase0 (x : PartImage) (n : Nat) : Nat :=
  match phasesOf x n 0 with
  | e :: _ => e.owners
  | [] => 0

/-- The carry set of a tile (R272): banks that are not kernel banks and never change owner. -/
def carrySet (x : PartImage) (n : Nat) : List Nat :=
  ((List.range 32).filter (fun b => !(kernelBanksOf x n).contains b)).filter (fun b =>
    (x.plan.filter (fun e => e.tile == n)).all (fun e => ownerOf e.owners b == ownerOf (phase0 x n) b))

/-- The fill entries of a tile (R272): the class-6 and class-7 entries of segment 0 whose kernels touch its carry set. -/
def fillEntries (x : PartImage) (n : Nat) : List Nat :=
  let carry := carrySet x n
  let k := (tileKernels x n).getD {}
  (List.range x.entries.length).filter (fun i =>
    match x.entries[i]? with
    | some e =>
      e.seg == 0 && (e.cls == 6 || e.cls == 7) && e.index == n &&
        (match k.invocations[e.opRef]? with
         | some v => carry.any (fun b => bitOf (k.dir.getD v.1 {}).bankMask b)
         | none => false)
    | none => false)

/-- Copy an image area into the kernel banks: the lowest bank first, each from its line 0 (R94, R452). -/
def loadKernels (t : Tile) (banks : List Nat) (area : List Nat) : Tile :=
  (List.range banks.length).foldl (fun u i => u.puts (banks.getD i 0) 0 ((area.drop (i * bankSize)).take bankSize)) t

/-- What a thread slot that no kernel is given holds. -/
def threadBlank : Nat → Thread := fun _ => {}

/-- The thread slots of kernels from an index on, allocated in directory order (R89). -/
def allocThreads : Nat → Nat → List KernelEntry → SMap Thread → SMap Thread
  | _, _, [], m => m
  | i, base, k :: rest, m =>
    allocThreads (i + 1) (base + k.threads) rest
      ((List.range k.threads).foldl (fun u j => SMap.set threadBlank u (base + j) { kernel := i }) m)

/-- The first thread slot of a kernel's allocation. -/
def threadBase (k : TileKernels) (kernel : Nat) : Nat := ((k.dir.take kernel).map (·.threads)).foldl (· + ·) 0

/-- An array with its buffers, tally halves, release marks and rack cleared (R94 item 5). -/
def Arr.cleared (a : Arr) : Arr :=
  { a with
    buf0 := [], trail0 := [], buf1 := [], trail1 := [], slab0 := false, slab1 := false
    badBuf0 := false, badBuf1 := false, tally := []
    released := [], rack := [] }

/-- An array at the start of a step: no pass has run. -/
def Arr.newGap (a : Arr) : Arr := { a with last := none, gapDown := 0, gapUp := 0 }

/-- A line whose bytes are lost reads as zeros until it is written again (R248). -/
def Tile.loseLine (t : Tile) (bank line : Nat) : Tile :=
  { t with written := SMap.set scrBlank t.written (bank * 4096 + line) 0 }

/-- An array's place in its tile. -/
def Tile.arr (t : Tile) (a : Nat) : Arr := if a = 0 then t.arr0 else t.arr1

/-- Change an array. -/
def Tile.updArr (t : Tile) (a : Nat) (f : Arr → Arr) : Tile :=
  if a = 0 then { t with arr0 := f t.arr0 } else { t with arr1 := f t.arr1 }

end Sys2Proof.Machine
end

