-- ==== Sys2Proof/Machine/Guest.lean ====
section
/-! DEFINITION. The guest book (R307 to R312): keys, lookup, attach (R158), publication, eviction and the commands of
SRV_GB_CMD. -/

namespace Sys2Proof.Machine

/-- The partition with ROLE 0 or 2 that runs a context (R314). -/
def decodePart (s : State) (ctx : Nat) : Option Nat :=
  [0, 1].find? (fun p => (s.part p).busy && (s.part p).ctx == ctx && (s.part p).role != 1)

/-- A partition that runs a context. -/
def runPart (s : State) (ctx : Nat) : Option Nat :=
  [0, 1].find? (fun p => (s.part p).busy && (s.part p).ctx == ctx)

/-! The prompt. -/

/-- Token `i` of a request's prompt: tier-0 memory, or what the outside delivered. -/
def promptToken (s : State) (o : Operation) (i : Nat) : Nat :=
  match pa0 s o.ctx (o.desc.promptVa + 4 * i) false with
  | some pa => s.mnat pa 4
  | none => leNat ((o.prompt.drop (4 * i)).take 4)

/-- The 256 token bytes of a chunk. -/
def chunkBytes (s : State) (o : Operation) (a : Nat) : List Byte :=
  ((List.range 64).map (fun i => leBytes 4 (promptToken s o (64 * a + i)))).flatten

/-- The blocks of a prompt that a guest book can hold. -/
def promptBlocks (o : Operation) : Nat := (o.desc.promptLen - 1) / 64

/-! Keys (R308). -/

/-- The first 8 bytes of a SHAKE256 output. -/
def first8 (bs : List Byte) : Nat := leNat ((shake256 bs).take 8)

/-- The root key of a context's running partition, from the set that it reads. -/
def rootKey (s : State) (ctx : Nat) : Nat :=
  let uid := match decodePart s ctx with
    | some p => (match (s.part p).wset with | some n => (s.set n).setUid | none => 0)
    | none => 0
  first8 ([0x48, 0x4C, 0x47, 0x42] ++ leBytes 16 uid ++ leBytes 2 (geo s ctx).kvLayoutTag)

/-- The key of a chunk from the key before it. -/
def chunkKey (s : State) (o : Operation) (prev a : Nat) : Nat := first8 (leBytes 8 prev ++ chunkBytes s o a)

/-- The keys of chunks 0 to `n` − 1, after the root key. -/
def chunkKeys (s : State) (o : Operation) (n : Nat) : List Nat :=
  ((List.range n).foldl (fun acc a => acc ++ [chunkKey s o (acc.getD (acc.length - 1) 0) a]) [rootKey s o.ctx])

/-! Entries (R307). -/

/-- The guest-book region of a context. -/
structure Book where
  va   : Nat
  e    : Nat
  fl   : Nat
  size : Nat
  deriving DecidableEq, Repr

/-- The region that a context's record gives. -/
def bookOf (s : State) (ctx : Nat) : Option Book :=
  match s.ctxRec ctx with
  | some r =>
    if r.gbVa = 0 then none
    else some { va := r.gbVa, e := r.gbEntries, fl := 64 * ceilDiv (geo s ctx).tokblkPages 8, size := r.gbBytes }
  | none => none

/-- Whether every page of a region is a present tier-0 leaf with W = 1. -/
def regionOk (s : State) (ctx va n : Nat) : Bool :=
  (List.range (ceilDiv n 4096)).all (fun i => match walk s ctx (va + 4096 * i) true with
    | .ok l => l.tier == 0
    | .no _ => false)

/-- Enabled by command (SRV_GB_CMD) and by the conditions of R307. -/
def gbEnabled (s : State) (ctx : Nat) : Bool :=
  SMap.get (fun _ => 0) s.gbOn ctx == 1 &&
  match bookOf s ctx with
  | some b => decide ((320 + b.fl) * b.e ≤ b.size) && (ctxImage s ctx).isSome && regionOk s ctx b.va b.size
  | none => false

/-- Where the head, the tokens and the frame list of an entry lie. -/
def Book.head (b : Book) (i : Nat) : Nat := b.va + 64 * i
def Book.tokens (b : Book) (i : Nat) : Nat := b.va + 64 * b.e + 256 * i
def Book.frames (b : Book) (i : Nat) : Nat := b.va + 320 * b.e + b.fl * i

/-- A head's fields. -/
structure Head where
  key      : Nat
  parent   : Nat
  depth    : Nat
  state    : Nat
  children : Nat
  lastUse  : Nat
  hits     : Nat
  counted  : Nat
  deriving DecidableEq, Repr

/-- Read a head. -/
def readHead (s : State) (ctx : Nat) (b : Book) (i : Nat) : Head :=
  let r := vread s ctx (b.head i) 64
  { key := recField r 0 8, parent := recField r 8 8, depth := recField r 16 4, state := recField r 20 1
    children := recField r 22 2, lastUse := recField r 24 8, hits := recField r 32 4, counted := recField r 36 2 }

/-- The probe window of a key. -/
def probeWindow (b : Book) (key : Nat) : List Nat := (List.range 8).map (fun i => (key % b.e + i) % b.e)

/-- The live entry of a key and depth in the probe window. -/
def findEntry (s : State) (ctx : Nat) (b : Book) (key depth : Nat) : Option Nat :=
  (probeWindow b key).find? (fun i =>
    let h := readHead s ctx b i
    h.state == 1 && h.key == key && h.depth == depth)

/-- Whether an entry's tokens are a chunk's. -/
def tokensMatch (s : State) (o : Operation) (b : Book) (i a : Nat) : Bool :=
  vread s o.ctx (b.tokens i) 256 == chunkBytes s o a

/-- Count the leading chunks that match, from chunk `a` on, at most `n` (R309). -/
def lookupFrom (s : State) (o : Operation) (b : Book) : Nat → Nat → Nat → Nat
  | 0, a, _ => a
  | n + 1, a, prev =>
    let k := chunkKey s o prev a
    match findEntry s o.ctx b k a with
    | none => a
    | some i => if tokensMatch s o b i a then lookupFrom s o b n (a + 1) k else a

/-- The attach count of a request (R309). -/
def lookup (s : State) (o : Operation) : Nat :=
  if !bitOf o.desc.flags 1 || !gbEnabled s o.ctx then 0
  else
    match bookOf s o.ctx with
    | some b => lookupFrom s o b (promptBlocks o) 0 (rootKey s o.ctx)
    | none => 0

/-- Frame `j` of an entry's list. -/
def entryFrame (s : State) (ctx : Nat) (b : Book) (i j : Nat) : Nat := leNat (vread s ctx (b.frames i + 8 * j) 8)

/-- Write bytes of an entry by a booking of Keeper's. -/
def bookWrite (s : State) (ctx va : Nat) (bs : List Byte) : State := keeperWrite s (vLines s ctx va bs) []

/-- Set a head's STATE. -/
def putState (s : State) (ctx : Nat) (b : Book) (i v : Nat) : List BookLine := vLines s ctx (b.head i + 20) (leBytes 1 v)

/-! Attach (R158, R309). -/

/-- Map the pages of one shared block without write permission, each with its count one higher. -/
def attachPages (s : State) (ctx : Nat) (b : Book) (i base n : Nat) : Work × State :=
  (List.range n).foldl (fun acc j => match acc with
    | (.done, s) =>
      let f := entryFrame s ctx b i j
      match rangeEntry s ctx (base + j * 65536) with
      | .inr c => (.fail c, countEntry s (.inr c))
      | .inl pa =>
        (.done, keeperWrite (countEntry s (.inl pa)) (writeLines pa (leBytes 8 (frameEntry f false)))
          [(f / 65536, refMake ctx (s.refCount (f / 65536) + 1))])
    | x => x) (.done, s)

/-- Whether every frame of an entry can be attached: owned by the context and below the largest count. -/
def attachable (s : State) (ctx : Nat) (b : Book) (i n : Nat) : Bool :=
  (List.range n).all (fun j =>
    let f := entryFrame s ctx b i j
    decide (s.refCount (f / 65536) < 0xFFFF) && owns s ctx f)

/-- Attach blocks from `a` on while their entries are live and attachable: the blocks attached. -/
def attachFrom (o : Operation) (b : Book) (g : Buckets) (base : Nat) :
    Nat → Nat → Nat → State → Work × Nat × State
  | 0, a, _, s => (.done, a, s)
  | n + 1, a, prev, s =>
    let k := chunkKey s o prev a
    match findEntry s o.ctx b k a with
    | none => (.done, a, s)
    | some i =>
      if !tokensMatch s o b i a || !attachable s o.ctx b i g.tokblkPages then (.done, a, s)
      else
        match attachPages s o.ctx b i (base + a * blockBytes g) g.tokblkPages with
        | (.done, s) =>
          let h := readHead s o.ctx b i
          let s := bookWrite s o.ctx (b.head i + 24) (leBytes 8 s.timeUs ++ leBytes 4 (minNat (h.hits + 1) 0xFFFFFFFF))
          attachFrom o b g base n (a + 1) k s
        | (x, s) => (x, a, s)

/-- The attach's final booking: LENGTH, SHARE_BLOCKS, BACKED_BLOCKS and KV_TAG set, ATTACHING clear. -/
def attachFinal (s : State) (o : Operation) (seqPa a : Nat) : State :=
  let flags := s.mnat (seqPa + 16) 2
  let off := if bitOf flags 2 then flags - 4 else flags
  keeperWrite s ((if a = 0 then [] else writeLines (seqPa + 8) (leBytes 4 (64 * a)) ++
      writeLines (seqPa + 20) (leBytes 2 (geo s o.ctx).kvLayoutTag ++ leBytes 2 a ++ leBytes 4 a)) ++
    writeLines (seqPa + 16) (leBytes 2 off)) []

/-- ATTACHING as Keeper sets it when an attach is to come (R158). -/
def attachMark (s : State) (seqPa : Nat) : State :=
  let flags := s.mnat (seqPa + 16) 2
  keeperWrite s (writeLines (seqPa + 16) (leBytes 2 (if bitOf flags 2 then flags else flags + 4))) []

/-! Eviction (R311). -/

/-- Lower the parent's CHILDREN. -/
def parentLines (s : State) (ctx : Nat) (b : Book) (h : Head) (up : Bool) : List BookLine :=
  if h.depth = 0 then []
  else
    match findEntry s ctx b h.parent (h.depth - 1) with
    | none => []
    | some i =>
      let c := (readHead s ctx b i).children
      vLines s ctx (b.head i + 22) (leBytes 2 (if up then minNat (c + 1) 0xFFFF else c - 1))

/-- Drop up to 48 counted frames of an entry by one booking, at most `n` times, until none is left. Frames that reach 0
go to the return ring; a full ring holds the eviction. -/
def evictFrames (ctx : Nat) (b : Book) (i : Nat) : Nat → State → Work × State
  | 0, s => (.done, s)
  | n + 1, s =>
    let c := (readHead s ctx b i).counted
    if c = 0 then (.done, s)
    else
      let f := entryFrame s ctx b i (c - 1)
      match returnFrame s ctx f with
      | none => (.wait, s)
      | some ring =>
        evictFrames ctx b i n (keeperWrite s (vLines s ctx (b.head i + 36) (leBytes 2 (c - 1)) ++ ring) [refDown s f])

/-- Evict an entry: STATE 3 and the parent's CHILDREN, then the counts, then STATE 0. -/
def evictEntry (s : State) (ctx : Nat) (b : Book) (i : Nat) : Work × State :=
  let h := readHead s ctx b i
  let s := if h.state = 1 then keeperWrite s (putState s ctx b i 3 ++ parentLines s ctx b h false) [] else s
  match evictFrames ctx b i (h.counted + 1) s with
  | (.done, s) => (.done, keeperWrite s (putState s ctx b i 0) [])
  | (.wait, s) => (.wait, match s.ctxRec ctx with | some r => ringHit s ctx r.retVa | none => s)
  | x => x

/-- Whether an entry may be evicted: a leaf in STATE 1, or one whose eviction was held. -/
def isLeaf (h : Head) : Bool := (h.state == 1 && h.children == 0) || h.state == 3

/-- The leaf with the oldest LAST_USE among entries. -/
def oldestLeaf (s : State) (ctx : Nat) (b : Book) (l : List Nat) : Option Nat :=
  l.foldl (fun best i =>
    let h := readHead s ctx b i
    if !isLeaf h then best
    else
      match best with
      | none => some i
      | some j => if h.lastUse < (readHead s ctx b j).lastUse then some i else best) none

/-- Live entries of a context, and the frames that they hold. -/
def gbLive (s : State) (ctx : Nat) : Nat :=
  match bookOf s ctx with
  | some b => ((List.range b.e).filter (fun i => (readHead s ctx b i).state == 1)).length
  | none => 0
def gbHeld (s : State) (ctx : Nat) : Nat :=
  match bookOf s ctx with
  | some b => (List.range b.e).foldl (fun n i =>
      let h := readHead s ctx b i
      if h.state = 1 then n + h.counted else n) 0
  | none => 0

/-- EVICTION (R311): an eviction that a full return ring has held is completed; while a context's entries hold more frames
than MAX_FRAMES, its oldest leaf goes. -/
def evictionOp (s : State) (ctx : Nat) : State :=
  let limit := s.rd (Reg.SRV_GB_CFG_MAX_FRAMES ctx)
  match bookOf s ctx with
  | some b =>
    let held := (List.range b.e).find? (fun i => (readHead s ctx b i).state == 3)
    if held.isSome then
      match held with
      | some i => (evictEntry s ctx b i).2
      | none => s
    else if limit != 0 && decide (limit < gbHeld s ctx) then
      match oldestLeaf s ctx b (List.range b.e) with
      | some i => (evictEntry s ctx b i).2
      | none => s
    else s
  | none => s

/-- EVICTION (R311). -/
def execEviction (ctx : Nat) (s : State) : Answer := .next (s.engine (fun s => evictionOp s ctx))

/-- Evict every entry, leaves first, at most `n` of them. -/
def flushLoop (ctx : Nat) (b : Book) : Nat → State → State
  | 0, s => s
  | n + 1, s =>
    match oldestLeaf s ctx b (List.range b.e) with
    | none => s
    | some i =>
      match evictEntry s ctx b i with
      | (.done, s) => flushLoop ctx b n s
      | (_, s) => s

/-! Publication (R310). -/

/-- The entry for a new key: a free one in the probe window, or the oldest leaf's place after its eviction. -/
def takeEntry (s : State) (ctx : Nat) (b : Book) (key : Nat) : Option Nat × State :=
  let w := probeWindow b key
  match w.find? (fun i => (readHead s ctx b i).state == 0) with
  | some i => (some i, s)
  | none =>
    match oldestLeaf s ctx b w with
    | none => (none, s)
    | some i =>
      match evictEntry s ctx b i with
      | (.done, s) => (some i, s)
      | (_, s) => (none, s)

/-- Whether an entry in STATE 1 or 2 has a key. -/
def keyTaken (s : State) (ctx : Nat) (b : Book) (key : Nat) : Bool :=
  (probeWindow b key).any (fun i =>
    let h := readHead s ctx b i
    (h.state == 1 || h.state == 2) && h.key == key)

/-- The frames of a block of a sequence, in page order. -/
def blockFrames (s : State) (ctx base n : Nat) : List Nat :=
  (List.range n).map (fun j => match rangeEntry s ctx (base + j * 65536) with
    | .inl pa => pteAddr (readPte s pa)
    | .inr _ => 0)

/-- Write the frame list in bookings of 48 frames, each with its counts and COUNTED. -/
def publishFrames (ctx : Nat) (b : Book) (i : Nat) : Nat → Nat → List Nat → State → State
  | 0, _, _, s => s
  | n + 1, done, fs, s =>
    let g := fs.take 48
    if g.isEmpty then s
    else
      let lines := ((List.range 6).map (fun k =>
        let part := (g.drop (8 * k)).take 8
        vLines s ctx (b.frames i + 8 * done + 64 * k) (part.map (leBytes 8)).flatten)).flatten
      let s := keeperWrite s (lines ++ vLines s ctx (b.head i + 36) (leBytes 2 (done + g.length)))
        (g.map (fun f => (f / 65536, refMake ctx (s.refCount (f / 65536) + 1))))
      publishFrames ctx b i n (done + 48) (fs.drop 48) s

/-- Publish block `j` of a request: `none` says that no block of the request is published any more. -/
def publishBlock (s : State) (o : Operation) (seqPa j : Nat) : Option Nat × State :=
  match bookOf s o.ctx with
  | none => (none, s)
  | some b =>
    let g := geo s o.ctx
    let keys := chunkKeys s o (j + 1)
    let key := keys.getD (j + 1) 0
    let fs := blockFrames s o.ctx (s.mnat seqPa 8 + j * blockBytes g) g.tokblkPages
    if keyTaken s o.ctx b key || fs.any (fun f => decide (0xFFFF ≤ s.refCount (f / 65536))) then (none, s)
    else
      match takeEntry s o.ctx b key with
      | (none, s) => (none, s)
      | (some i, s) =>
        let head := leBytes 8 key ++ leBytes 8 (keys.getD j 0) ++ leBytes 4 j ++ [2, 0] ++ leBytes 2 0 ++
          leBytes 8 s.timeUs ++ leBytes 4 0 ++ leBytes 2 0 ++ leBytes 26 0
        let s := keeperWrite s (vLines s o.ctx (b.head i) head ++ vLines s o.ctx (b.tokens i) (chunkBytes s o j)) []
        let s := publishFrames o.ctx b i (g.tokblkPages / 48 + 1) 0 fs s
        let s := keeperWrite s (putState s o.ctx b i 1 ++ parentLines s o.ctx b (readHead s o.ctx b i) true) []
        (some (j + 1), keeperWrite s (writeLines (seqPa + 22) (leBytes 2 (j + 1))) [])

/-- PUBLICATION (R310): the next block of a request that its committed length completes. -/
def publishOp (s : State) (o : Operation) : State :=
  match o.publish, o.seqPa with
  | some j, some pa =>
    if decide (j < promptBlocks o) && decide (64 * (j + 1) ≤ o.length) && gbEnabled s o.ctx && (runPart s o.ctx).isSome then
      let share := s.mnat (pa + 22) 2
      if j < share then s.updOp o.id (fun x => { x with publish := some share })
      else
        let r := publishBlock s o pa j
        r.2.updOp o.id (fun x => { x with publish := r.1 })
    else s
  | _, _ => s

/-- PUBLICATION (R310). -/
def execPublication (op : Nat) (s : State) : Answer :=
  .next (s.engine (fun s => match s.op op with | some o => publishOp s o | none => s))

/-! SRV_GB_CMD. -/

/-- A command of the guest book of the selected context: refused when the context is not registered or has no region. -/
def gbCmd (s : State) (op : Nat) : State :=
  let s := s.wr Reg.SRV_GB_CMD_OP op
  let ctx := s.rd Reg.SRV_GB_SEL_CONTEXT
  s.keeper (Reg.SRV_GB_STATUS_CODE ctx) (fun s =>
    match bookOf s ctx with
    | none => s.wr (Reg.SRV_GB_STATUS_CODE ctx) Code.SRV_E_GB
    | some b =>
      if !registered s ctx || decide (2 < op) then s.wr (Reg.SRV_GB_STATUS_CODE ctx) Code.SRV_E_GB
      else
        let s := s.wr (Reg.SRV_GB_STATUS_CODE ctx) 0
        if op = 0 then flushLoop ctx b b.e s
        else { s with gbOn := SMap.set (fun _ => 0) s.gbOn ctx (2 - op) })

def gbOff : Nat := Reg.SRV_GB_CMD_OP.off

/-- GB_FLUSH (R311). -/
def execGbFlush (s : State) : Answer := .next (s.host gbOff (fun s => gbCmd s 0))
/-- GB_ENABLE (R307). -/
def execGbEnable (s : State) : Answer := .next (s.host gbOff (fun s => gbCmd s 1))
/-- GB_DISABLE (R307). -/
def execGbDisable (s : State) : Answer := .next (s.host gbOff (fun s => gbCmd s 2))
/-- GB_OP_REFUSED (R307). -/
def execGbOpRefused (s : State) : Answer := .next (s.host gbOff (fun s => gbCmd s 3))

end Sys2Proof.Machine
end

