-- ==== Sys2Proof/Machine/Span.lean ====
section
/-! DEFINITION. A span's stage in a partition (R345 to R348): entering and leaving it, and the messages it sends. -/

namespace Sys2Proof.Machine

/-- The span of partition `p`. -/
def State.span (s : State) (p : Nat) : SpanRun := if p = 0 then s.chn.span0 else s.chn.span1

/-- Change the span of partition `p`. -/
def State.updSpan (s : State) (p : Nat) (f : SpanRun → SpanRun) : State :=
  if p = 0 then { s with chn := { s.chn with span0 := f s.chn.span0 } }
  else { s with chn := { s.chn with span1 := f s.chn.span1 } }

/-- A context whose image has a CHAINSPAN section for partition `p` starts there: the registers are taken over (R353). -/
def spanEnter (s : State) (p : Nat) (im : Image) : State :=
  match im.span with
  | none => s
  | some x =>
    if x.partition != p then s
    else
      let s := s.updSpan p (fun _ => {
        running := true, stage := x.stage, stages := x.stages, spanId := x.spanId, elems := x.elems, codec := x.codec
        inPort := x.inPort, outPort := x.outPort, inBytes := x.inBytes, outBytes := x.outBytes
        rooms := (List.range x.stages).map (fun k => s.rd (Reg.CHN_S_ROOM_ROOM p k))
        inVa := s.rd (Reg.CHN_S_IN_VA p), outVa := s.rd (Reg.CHN_S_OUT_VA p) })
      s.wrs [(Reg.CHN_S_STATUS_RUNNING p, 1), (Reg.CHN_S_STATUS_CODE p, 0)]

/-- The partition no longer runs a stage. -/
def spanLeave (s : State) (p : Nat) : State := (s.updSpan p (fun _ => {})).wr (Reg.CHN_S_STATUS_RUNNING p) 0

/-- Whether this partition's steps draw tokens: outside a span, and at its last stage (R345). -/
def draws (s : State) (p : Nat) : Bool := !(s.span p).running || (s.span p).stage + 1 == (s.span p).stages

/-- Whether a partition is stage 0 of a span. -/
def spanHead (s : State) (p : Nat) : Bool := (s.span p).running && (s.span p).stage == 0

/-- Whether a partition is a later stage, which adopts its plan (R347). -/
def spanLater (s : State) (p : Nat) : Bool := (s.span p).running && (s.span p).stage != 0

/-- Whether a partition of a span may begin a step (R347): a whole STEP message waits where it is a later stage, the next
stage has a free half, and the last message's flits have left. -/
def spanReady (s : State) (p : Nat) : Bool :=
  let x := s.span p
  !x.running || ((x.stage == 0 || !x.steps.isEmpty) &&
    (x.stage + 1 == x.stages || (decide (x.outBusy.length < 2) &&
      !(s.port x.outPort).queue.any (fun m => m.msgType == 0x20))))

/-- Queue a message for every other stage. -/
def spanTell (s : State) (p type addr : Nat) (payload : List Byte) : State :=
  let x := s.span p
  let own := s.rd Reg.CHN_STATUS_ROOM
  overList (x.rooms.filter (fun r => r != own)) (fun r t => sendMsg t (msgTo t type 3 r addr payload)) s

/-- A request ends at stage 0: every other stage releases its sequence (R348). -/
def spanRelease (s : State) (ctx seq : Nat) : State :=
  overList [0, 1] (fun p t =>
    if (t.part p).busy && (t.part p).ctx == ctx && spanHead t p then spanTell t p 0x22 seq [] else t) s

/-- Bytes of a row that crosses the chain (R347, R350). -/
def spanRowBytes (x : SpanRun) : Nat := if x.codec = 0 then 2 * x.elems else x.elems / 32 * 33

/-- 1,024 bytes whose layout is not described: free values. -/
def openBytes (s : State) (n : Nat) : List Byte × State :=
  ((List.range n).map (fun i => BitVec.ofNat 8 (Config.freeNat (s.free + i))), { s with free := s.free + n })

/-- Whether a step number is the one that a partition works on: of the message it consumes, or its own count. -/
def spanStepNo (s : State) (p : Nat) : Nat :=
  match (s.span p).cur with
  | some c => c.step
  | none => (s.span p).stepNo

/-- Send the STEP message of a step to the next stage (R347): head, plan, slot codes, and the rows in the output region. -/
def sendStep (s : State) (p ctx rows : Nat) (codes : List Nat) : State :=
  let x := s.span p
  let n := spanStepNo s p
  let o := openBytes s 1024
  let s := o.2
  let head := leBytes 16 x.spanId ++ leBytes 8 n ++ leBytes 2 rows ++ List.replicate 38 0
  let body := vread s ctx (x.outVa + x.outHalf * x.outBytes + 1600) (rows * spanRowBytes x)
  let slots := ((List.range 256).map (fun i => leBytes 2 (codes.getD i 0))).flatten
  let m := msgTo s 0x20 0 (x.rooms.getD (x.stage + 1) 0) n (head ++ o.1 ++ slots ++ body)
  let s := sendMsg s m
  s.updSpan p (fun y => { y with outBusy := y.outBusy ++ [(n, y.outHalf)], outHalf := 1 - y.outHalf })

/-- Send the TOKENS message of a step to stage 0 (R347): the token and the code of each slot. -/
def sendTokens (s : State) (p rows : Nat) (slots : List (Nat × Nat)) : State :=
  let x := s.span p
  let n := spanStepNo s p
  let head := leBytes 16 x.spanId ++ leBytes 8 n ++ leBytes 2 rows ++ List.replicate 38 0
  let body := ((List.range 256).map (fun i =>
    let e := slots.getD i (0, 0)
    leBytes 4 e.1 ++ leBytes 2 e.2 ++ [0, 0])).flatten
  sendMsg s (msgTo s 0x21 3 (x.rooms.getD 0 0) n (head ++ body))

/-- The step that consumed an input half ends: the half is freed, and the stage fore of it hears of it (R347). -/
def spanFree (s : State) (p : Nat) : State :=
  let x := s.span p
  match x.cur with
  | none => s
  | some c =>
    (sendMsg s (msgTo s 0x23 3 (x.rooms.getD (x.stage - 1) 0) c.step [])).updSpan p (fun y => { y with cur := none })

/-- What a stage sends when its step's results are known: STEP to the next stage, or TOKENS to stage 0. `out` gives each
plan slot's token and code. -/
def spanSend (s : State) (p ctx rows : Nat) (out : List (Nat × Nat)) : State :=
  let x := s.span p
  if !x.running then s
  else
    let at_ (i : Nat) : Nat × Nat := match x.cur with
      | none => out.getD i (0, 0)
      | some c =>
        let old := c.codes.getD i 0
        if old != 0 then (0, old)
        else match (List.range x.slots.length).find? (fun k => x.slots.getD k 256 == i) with
          | some k => out.getD k (0, 0)
          | none => (0, 0)
    let all := (List.range 256).map at_
    if x.stage + 1 = x.stages then sendTokens s p rows all else sendStep s p ctx rows (all.map (·.2))

end Sys2Proof.Machine
end

