-- ==== Sys2Proof/Machine/Serving.lean ====
section
/-! DEFINITION. The life of an operation outside the step: the fetch of a descriptor and its checks (R288 to R290),
admission (R314 to R317), deadlines and cancels (R318, R325), the end of a request and the release it leaves (R160),
attach (R158), the copy of a shared block (R159), and SRV_EVAL (R322). A resumed request is a new request in every
respect (R313). -/

namespace Sys2Proof.Machine

/-! Descriptors (R289). -/

/-- The fields of a descriptor's 128 bytes. -/
def parseDesc (r : List Byte) : Desc :=
  { opcode := recField r 0 1, flags := recField r 1 1, seqIndex := recField r 4 2, streamIndex := recField r 6 2
    userTag := recField r 8 8, promptVa := recField r 0x10 8, promptLen := recField r 0x18 4
    maxTokens := recField r 0x1C 4, tringBase := recField r 0x20 8, tringLog2 := recField r 0x28 1
    stopCount := recField r 0x29 1, topK := recField r 0x2A 2, deadlineUs := recField r 0x2C 4
    stopTokens := (List.range 4).map (fun i => recField r (0x30 + 4 * i) 4)
    temperature := recField r 0x40 4, topP := recField r 0x44 4, sampleSeed := recField r 0x48 8
    syncCell := recField r 0x50 4, syncValue := recField r 0x58 8 }

/-- Whether a number lies in a range. -/
def within (lo hi n : Nat) : Bool := decide (lo ≤ n) && decide (n ≤ hi)

/-- The ranges of a GENERATE. -/
def generateOk (r : List Byte) (d : Desc) : Bool :=
  decide (d.flags < 4) && recZero r 2 2 && recZero r 0x54 4 && recZero r 0x60 32 &&
  d.promptVa % 4 == 0 && within 1 32768 d.promptLen && within 1 32768 d.maxTokens &&
  d.tringBase % 64 == 0 && within 4 16 d.tringLog2 && decide (d.stopCount ≤ 4) &&
  (d.stopTokens.drop d.stopCount).all (· == 0) &&
  decide (d.temperature < 0x7F800000) && within 1 0x3F800000 d.topP && decide (d.syncCell < 32768)

/-- The ranges of a CANCEL, a SIGNAL and a WAIT. -/
def shortOk (r : List Byte) (d : Desc) : Bool :=
  d.flags == 0 && recZero r 2 2 && (d.opcode == 2 || d.seqIndex == 0) && recZero r 6 2 &&
  recZero r 0x10 0x40 && recZero r 0x54 4 && recZero r 0x60 32 && decide (d.syncCell < 32768)

/-- Whether a descriptor with a known opcode passes the checks of `HIF_E_FORMAT`. -/
def descOk (r : List Byte) (d : Desc) : Bool := if d.opcode = 1 then generateOk r d else shortOk r d

/-! Requests in their phases. -/

/-- Admitted and not ended. -/
def Operation.admitted (o : Operation) : Bool :=
  o.phase == .attaching || o.phase == .prefill || o.phase == .decode

/-- A GENERATE that has not ended. -/
def Operation.alive (o : Operation) : Bool := o.desc.opcode == 1 && (o.admitted || o.phase == .waiting)

/-- Prompt positions still to prefill (R302). -/
def Operation.unfilled (o : Operation) : Nat := (o.desc.promptLen - 1) - o.prefillPos

/-- The phase of an admitted request by its prefilled positions. -/
def Operation.nextPhase (o : Operation) : OpPhase := if o.unfilled = 0 then .decode else .prefill

/-- The admitted requests of a context, in serving order (R303). -/
def insertOrder (o : Operation) : List Operation → List Operation
  | [] => [o]
  | x :: rest => if o.order < x.order then o :: x :: rest else x :: insertOrder o rest
def admittedOps (s : State) (ctx : Nat) : List Operation :=
  (s.ops.filter (fun o => o.ctx == ctx && o.admitted)).foldl (fun l o => insertOrder o l) []

/-- Admitted, unreleased requests of a context (SRV_Pp_LOAD). -/
def admittedCount (s : State) (ctx : Nat) : Nat :=
  (admittedOps s ctx).length + (s.releases.filter (fun x => x.ctx == ctx && x.admitted)).length

/-- The reservation of a context (R316). -/
def reservation (s : State) (ctx : Nat) : Nat :=
  (admittedOps s ctx).foldl (fun n o => n + (o.reserveN - o.taken)) 0 +
  (s.releases.filter (fun x => x.ctx == ctx)).foldl (fun n x => n + x.reserved) 0

/-- Q of R315: the unprefilled positions of a context's admitted requests. -/
def queuedPositions (s : State) (ctx : Nat) : Nat := (admittedOps s ctx).foldl (fun n o => n + o.unfilled) 0

/-! Ends (R160). -/

/-- The deadline instant in K-cycles (R318). -/
def instant (o : Operation) : Option Nat :=
  if o.desc.deadlineUs = 0 then none else some (o.ringKc + o.desc.deadlineUs * 375)

/-- Whether a deadline instant has passed at a K-cycle. -/
def instantPassed (o : Operation) (kc : Nat) : Bool :=
  match instant o with
  | some t => decide (t ≤ kc)
  | none => false

/-- The code by which a stop and a deadline end a request at a K-cycle: the earlier decides (R325). -/
def stopCodeAt (o : Operation) (kc : Nat) : Option Nat :=
  match o.stop with
  | some (t, c) =>
    (match instant o with
     | some i => if i < t then (if i ≤ kc then some Code.SRV_E_DEADLINE else some c) else some c
     | none => some c)
  | none => if instantPassed o kc then some Code.SRV_E_DEADLINE else none

/-- The record that a request's end releases: the one it has claimed, or one that passes R145's rows 1 to 3 and that no
other request in flight holds (log entry 22). -/
def endRecord (s : State) (o : Operation) : Option Nat :=
  match o.seqPa with
  | some pa => some pa
  | none =>
    match ownRecord s o.ctx o.desc.seqIndex with
    | some pa => if s.ops.any (fun x => x.id != o.id && x.seqPa == some pa) then none else some pa
    | none => none

/-- The release that a request leaves: its reservation stays until it is done (R316). -/
def pushRelease (s : State) (o : Operation) (seqPa : Nat) : State :=
  { s with
    releases := s.releases ++ [{
      ctx := o.ctx, seqIndex := o.desc.seqIndex, seqPa := seqPa, reserved := o.reserveN - o.taken
      admitted := o.admitted, tokblk := (geo s o.ctx).tokblkPages
      maxBlocks := ceilDiv (s.mnat (seqPa + 12) 4) 64, mapped := maxNat o.attach (s.mnat (seqPa + 22) 2) }] }

/-- Count a request that ends on its deadline, at the partition that serves its context (log entry 101). -/
def countDeadline (s : State) (o : Operation) (code : Nat) : State :=
  if code = Code.SRV_E_DEADLINE then
    (s.inc (Reg.SRV_P_DEADLINE ((decodePart s o.ctx).getD ((runPart s o.ctx).getD o.admPart)))).raiseSrv Reg.SRV_IRQ_STATUS_DEADLINE
  else s

/-- End a request outside a step: Keeper's booking sets RELEASING and the code, its release is queued, its record is
written (R160, R161). -/
def endRequest (s : State) (o : Operation) (code : Nat) : State :=
  let s := match endRecord s o with
    | some pa => pushRelease (markReleasing s pa code) o pa
    | none => s
  endOp (countDeadline (spanRelease s o.ctx o.desc.seqIndex) o code) o.id code

/-- End a request whose record is another's or none's: only its completion record carries the code (R145). -/
def endNoRecord (s : State) (o : Operation) (code : Nat) : State := endOp (countDeadline s o code) o.id code

/-! Admission. -/

/-- The partition that prefills for a decode-role partition: itself where combined (R315). -/
def prefillPart (s : State) (p : Nat) : Nat := if (s.part p).role = 0 then p else 1 - p

/-- LIMIT of the request's record, or what it asks for where no such record is its own (log entry 23). -/
def requestLength (s : State) (o : Operation) : Nat :=
  let want := o.desc.promptLen + o.desc.maxTokens
  match ownRecord s o.ctx o.desc.seqIndex with
  | some pa => minNat want (s.mnat (pa + 12) 4)
  | none => want

/-- The time test of R315: whether the request is refused. -/
def timeFails (s : State) (p : Nat) (o : Operation) : Bool :=
  let pp := prefillPart s p
  let step := s.rd (Reg.SRV_P_STEP_US_US p)
  let chunk := if pp = p then step else s.rd (Reg.SRV_P_CHUNK_US_US pp)
  let c := match s.image (s.part p).slot with
    | some im => (im.parts.getD pp {}).desc.chunkTokens
    | none => 0
  let h := if pp = p then 0 else step
  let pos := o.desc.promptLen - 1 - 64 * o.attach
  decide (o.desc.deadlineUs <
    (s.timeUs - o.ringKc / 375) + ceilDiv (queuedPositions s o.ctx + pos) c * chunk + h + o.desc.maxTokens * step)

/-- What admission decides. -/
inductive Verdict where
  | take | stay
  | refuse (code : Nat)
  deriving DecidableEq, Repr

/-- N of R316. -/
def needFrames (s : State) (o : Operation) : Nat :=
  (ceilDiv (requestLength s o) 64 - o.attach) * (geo s o.ctx).tokblkPages

/-- The tests of R315 to R317. -/
def admitTest (s : State) (p : Nat) (o : Operation) : Verdict :=
  if s.rd (Reg.SRV_P_CFG_ADMIT_EN p) = 0 then .take
  else if s.rd (Reg.SRV_P_CFG_ADMIT_REQS p) ≤ admittedCount s o.ctx then
    (if o.desc.deadlineUs = 0 then .stay else .refuse Code.SRV_E_ADMIT_TIME)
  else if o.desc.deadlineUs != 0 && timeFails s p o then .refuse Code.SRV_E_ADMIT_TIME
  else if decide (poolFrames s o.ctx < reservation s o.ctx + needFrames s o) then .refuse Code.SRV_E_ADMIT_MEMORY
  else .take

/-- Admit a request on partition `p`: it takes its place in the serving order; where lookup found blocks and the record
is its own with LENGTH 0, ATTACHING is set (R158, R309). -/
def admitRequest (s : State) (p : Nat) (o : Operation) : State :=
  let s := (s.trace 8 0 [p, o.rq, o.fetchIdx, 0]).inc (Reg.SRV_P_ADMITTED p)
  let rec0 := ownRecord s o.ctx o.desc.seqIndex
  let o := { o with
    order := s.nextAdmit, admPart := p, reserveN := needFrames s o
    publish := if bitOf o.desc.flags 1 then some 0 else none }
  let free (pa : Nat) : Bool := !(s.ops.any (fun x => x.id != o.id && x.seqPa == some pa))
  let s := { s with nextAdmit := s.nextAdmit + 1 }
  match rec0 with
  | some pa =>
    if o.attach != 0 && free pa && (parseSeq (s.mread pa 64)).length == 0 then
      attachMark (s.updOp o.id (fun _ => { o with phase := .attaching, seqPa := some pa })) pa
    else s.updOp o.id (fun _ => { o with attach := 0, phase := o.nextPhase })
  | none => s.updOp o.id (fun _ => { o with attach := 0, phase := o.nextPhase })

/-- Refuse a request at admission (R317); its sequence is released as at any end (R160; log entry 22). -/
def refuseRequest (s : State) (p : Nat) (o : Operation) (code : Nat) : State :=
  let s := s.inc (if code = Code.SRV_E_ADMIT_TIME then Reg.SRV_P_REF_TIME p else Reg.SRV_P_REF_MEM p)
  endRequest (s.raiseSrv Reg.SRV_IRQ_STATUS_REFUSED) o code

/-- Apply admission to a request. -/
def admitOp (s : State) (p : Nat) (o : Operation) : State :=
  match admitTest s p o with
  | .take => admitRequest s p o
  | .stay => s
  | .refuse c => refuseRequest s p o c

/-- Requests that wait for admission, by ring time and then by queue (R303). -/
def insertRing (o : Operation) : List Operation → List Operation
  | [] => [o]
  | x :: rest =>
    if o.ringKc < x.ringKc ∨ (o.ringKc = x.ringKc ∧ o.rq < x.rq) then o :: x :: rest else x :: insertRing o rest

/-- Admission at a seal beat of partition `p` (R314, R317). A waiting request's lookup precedes it. -/
def admitWaiting (s : State) (p : Nat) : State :=
  let ctx := (s.part p).ctx
  let l := (s.ops.filter (fun o => o.ctx == ctx && o.phase == .waiting && s.rd Reg.KPR_STATUS_STATE != 3)).foldl (fun l o => insertRing o l) []
  overList l (fun o t => admitOp t p { o with attach := lookup t o }) s

/-! Fetch. -/

/-- Whether a queue fetches: Keeper runs and is not draining (R400, R422), the queue is ENABLED, a descriptor is rung,
there is room for an operation, and the host can be reached (R284, R288). -/
def fetchReady (s : State) (q : Nat) : Bool :=
  s.ready && s.rd Reg.KPR_STATUS_STATE != 3 && rqState s q == 1 && s.rd (Reg.HIF_RQ_HEAD_HEAD q) != s.rd (Reg.HIF_RQ_TAIL_TAIL q) &&
  decide (s.descriptors < 131072) && s.chip.linkUp && !s.chip.d3hot

/-- The ring time of the descriptor at HEAD: the first doorbell that covered it (R287). -/
def ringTimeOf (x : RqConf) (head now : Nat) : Nat :=
  match x.rung.find? (fun r => within 1 (2 ^ x.sizeLog2) ((r.1 + 2 ^ 32 - head) % 2 ^ 32)) with
  | some r => r.2
  | none => now

/-- Take the descriptor at HEAD: HEAD advances, the operation begins. -/
def takeDesc (s : State) (q : Nat) (x : RqConf) (bytes prompt : List Byte) : Operation × State :=
  let head := s.rd (Reg.HIF_RQ_HEAD_HEAD q)
  let o : Operation :=
    { id := s.nextOp, rq := q, ctx := x.ctx, cq := x.cq, fetchIdx := head, ringKc := ringTimeOf x head (s.timeUs * 375)
      desc := parseDesc bytes, prompt := prompt }
  let next := (head + 1) % 2 ^ 32
  let s := (s.wr (Reg.HIF_RQ_HEAD_HEAD q) next).inc Reg.HIF_FETCHED
  let s := s.setRq q (some { x with rung := x.rung.filter (fun r => r.1 != next) })
  (o, { s with ops := s.ops ++ [o], nextOp := s.nextOp + 1 })

/-- A fetched GENERATE (R302): lookup, then admission where the context runs; an instant that has passed ends the request
of a context that does not run (R318). -/
def startGenerate (s : State) (o : Operation) : State :=
  match decodePart s o.ctx with
  | some p => admitOp s p { o with attach := lookup s o }
  | none => if instantPassed o s.timeKc && (runPart s o.ctx).isNone then endRequest s o Code.SRV_E_DEADLINE else s

/-- The GENERATE in flight that a CANCEL names. -/
def cancelTarget (s : State) (o : Operation) : Option Operation :=
  s.ops.find? (fun x => x.alive && x.ctx == o.ctx && x.desc.seqIndex == o.desc.seqIndex)

/-- A fetched CANCEL (R290): its target ends, at its step's scatter where it is in a step (R42). -/
def startCancel (s : State) (o : Operation) : State :=
  match cancelTarget s o with
  | none => endOp s o.id Code.HIF_E_NO_TARGET
  | some x =>
    let y := if x.stop.isSome then x else { x with stop := some (s.timeKc, Code.HIF_E_CANCELLED) }
    let s := if x.inStep.isSome then s.updOp x.id (fun _ => y)
      else endRequest s x ((stopCodeAt y s.timeKc).getD Code.HIF_E_CANCELLED)
    endOp s o.id 0

/-- What a fetched descriptor does. -/
def startOp (s : State) (bytes : List Byte) (o : Operation) : State :=
  if !within 1 4 o.desc.opcode then endOp s o.id Code.HIF_E_OPCODE
  else if !descOk bytes o.desc then endOp s o.id Code.HIF_E_FORMAT
  else if o.desc.opcode = 1 then startGenerate s o
  else if o.desc.opcode = 2 then startCancel s o
  else if o.desc.opcode = 3 then s.updOp o.id (fun x => { x with phase := .signal })
  else (s.updOp o.id (fun x => { x with phase := .waitCell })).wr (Reg.HIF_RQ_STATUS_STATE o.rq) 4

/-- The fetch of the 128 bytes at a queue's HEAD. The OPCODE byte says which operation begins. -/
def fetchOp (s : State) (q : Nat) (bytes prompt : List Byte) : State :=
  match s.rq q with
  | none => s
  | some x =>
    if fetchReady s q then
      let r := takeDesc s q x bytes prompt
      startOp r.2 bytes r.1
    else s

/-- GENERATE (R290, R302): `prompt` is the prompt where it lies outside tier 0. -/
def execGenerate (q : Nat) (bytes prompt : List Byte) (s : State) : Answer :=
  .next (s.engine (fun s => fetchOp s q bytes prompt))
/-- CANCEL (R290). -/
def execCancel (q : Nat) (bytes : List Byte) (s : State) : Answer := .next (s.engine (fun s => fetchOp s q bytes []))
/-- SIGNAL (R290). -/
def execSignal (q : Nat) (bytes : List Byte) (s : State) : Answer := .next (s.engine (fun s => fetchOp s q bytes []))
/-- WAIT (R290). -/
def execWait (q : Nat) (bytes : List Byte) (s : State) : Answer := .next (s.engine (fun s => fetchOp s q bytes []))
/-- OPCODE_UNKNOWN (R289). -/
def execOpcodeUnknown (q : Nat) (bytes : List Byte) (s : State) : Answer :=
  .next (s.engine (fun s => fetchOp s q bytes []))

/-- A SIGNAL completes once every earlier operation of its queue has written its record (R290). -/
def signalComplete (s : State) (o : Operation) : State :=
  if o.phase == .signal && !(s.ops.any (fun x => x.rq == o.rq && decide (x.id < o.id))) then
    endOp (synAdd s o.desc.syncCell o.desc.syncValue) o.id 0
  else s

/-- SIGNAL_COMPLETE (R290). -/
def execSignalComplete (op : Nat) (s : State) : Answer :=
  .next (s.engine (fun s => match s.op op with | some o => signalComplete s o | none => s))

/-- A WAIT whose cell has reached its target writes its record, and its queue fetches again (R290). -/
def waitSatisfied (s : State) (o : Operation) : State :=
  if o.phase == .waitCell && decide (o.desc.syncValue ≤ s.rd (Reg.SYN_CELL o.desc.syncCell)) then
    let s := if rqState s o.rq = 4 then s.wr (Reg.HIF_RQ_STATUS_STATE o.rq) 1 else s
    endOp s o.id 0
  else s

/-- WAIT_SATISFIED (R290). -/
def execWaitSatisfied (op : Nat) (s : State) : Answer :=
  .next (s.engine (fun s => match s.op op with | some o => waitSatisfied s o | none => s))

/-- FETCH_ERROR (R288): the queue halts, HEAD at the first descriptor not fetched. -/
def execFetchError (q : Nat) (s : State) : Answer :=
  .next (s.engine (fun s => if fetchReady s q then rqHalt (s.inc Reg.HIF_FETCH_ERR) q Code.HIF_E_FETCH else s))

/-! Deadlines outside a step. -/

/-- End every operation of a context, outside a step, whose instant has passed (R318). -/
def deadlinePass (s : State) (ctx : Nat) : State :=
  overList (s.ops.filter (fun o => o.ctx == ctx && o.alive && o.inStep.isNone))
    (fun o t => match stopCodeAt o t.timeKc with
      | some c => endRequest t o c
      | none => t) s

/-- The check of every running context's operations (R318). -/
def deadlineAll (s : State) : State :=
  overList [0, 1] (fun p t => if (t.part p).busy then deadlinePass t (t.part p).ctx else t) s

/-- DEADLINE_CHECK (R318). -/
def execDeadlineCheck (s : State) : Answer :=
  .next (s.engine deadlineAll)

/-! Attach and copy. -/

/-- Attach the blocks that lookup found (R158): what is mapped becomes the sequence's start, and N grows by what is not
(R316). A walk's refusal ends the request (R271). -/
def attachOp (s : State) (o : Operation) : State :=
  match o.seqPa, bookOf s o.ctx with
  | some pa, some b =>
    if o.phase == .attaching && (runPart s o.ctx).isSome then
      let g := geo s o.ctx
      match attachFrom o b g (s.mnat pa 8) o.attach 0 (rootKey s o.ctx) s with
      | (.fail c, _, t) => endRequest (t.report (opErr o c 1)) o c
      | (.wait, _, t) => t
      | (.done, a, t) =>
        let t := attachFinal t o pa a
        let o := { o with
          prefillPos := 64 * a, length := 64 * a, shared := a != 0
          reserveN := o.reserveN + (o.attach - a) * g.tokblkPages }
        t.updOp o.id (fun _ => { o with phase := o.nextPhase })
    else s
  | _, _ => s

/-- An attach or a copy meets an uncorrectable line: it ends, recorded, and the request that needs it ends (R271). -/
def keeperFault (s : State) (o : Operation) : State :=
  endRequest ((uncorrBook s).report (opErr o Code.XLT_E_UNCORR 1)) o Code.XLT_E_UNCORR

/-- ATTACH (R158); `bad` says that a line of it is uncorrectable. -/
def execAttach (op : Nat) (bad : Bool) (s : State) : Answer :=
  .next (s.engine (fun s => match s.op op with
    | some o => if bad && o.phase == .attaching then keeperFault s o else attachOp s o
    | none => s))

/-- Copy the shared block that the request's next step would write (R159). -/
def copyOp (s : State) (o : Operation) : State :=
  match o.copyBlock, o.seqPa with
  | some b, some pa =>
    if (runPart s o.ctx).isSome then
      match copyShared s o.ctx pa b o.copied with
      | (.done, _, t) => t.updOp o.id (fun x => { x with copyBlock := none, copied := 0 })
      | (.wait, n, t) => t.updOp o.id (fun x => { x with copied := n })
      | (.fail c, _, t) => endRequest (t.report (opErr o c 1)) o c
    else s
  | _, _ => s

/-- KV_BLOCK_COPY (R159); `bad` says that a line of it is uncorrectable. -/
def execKvBlockCopy (op : Nat) (bad : Bool) (s : State) : Answer :=
  .next (s.engine (fun s => match s.op op with
    | some o => if bad && o.copyBlock.isSome then keeperFault s o else copyOp s o
    | none => s))

/-! SRV_EVAL. -/

/-- Answer d_P for the partition and cap in SRV_EVAL_CTRL (R322, R363). -/
def srvEval (s : State) : State :=
  let p := s.rd Reg.SRV_EVAL_CTRL_PART
  let cap := s.rd Reg.SRV_EVAL_CTRL_CAP_W
  if within 90 (s.rd Reg.SRM_LIMITS0_CEIL_W) cap then
    let d := capDivOf s (evalMasks s) p cap
    let s := s.wrs [(Reg.SRV_EVAL_STATUS_VALID, 1), (Reg.SRV_EVAL_STATUS_DIVIDER, d), (Reg.SRV_EVAL_STATUS_CODE, 0)]
    { s with
      pwr := { s.pwr with
        queried := (s.pwr.queried.filter (fun q => q.1 != p || q.2 != cap)) ++ [(p, cap)] } }
  else s.wrs [(Reg.SRV_EVAL_STATUS_VALID, 0), (Reg.SRV_EVAL_STATUS_CODE, Code.SRV_E_EVAL)]

/-- SRV_EVAL (R322). -/
def execSrvEval (s : State) : Answer :=
  .next (s.host Reg.SRV_EVAL_CTRL_GO.off (fun s => s.keeper Reg.SRV_EVAL_STATUS_CODE srvEval))

end Sys2Proof.Machine
end

