-- ==== Sys2Proof/Machine/Partition.lean ====
section
/-! DEFINITION. Partitions: activation, pending activations and stops, the step boundary, context switches with the
save area, model-slot swaps at a boundary, abandonment and urgent pre-emption (R41, R71 to R74, R86, R94, R95, R217,
R272 to R280, R324). Nothing of a context is left for the next (R381); the two partitions share no scheduled resource
(R26). -/

namespace Sys2Proof.Machine

/-! The step plan. -/

/-- Decode rows of a plan. -/
def decodeRows (plan : List Slot) : Nat := (plan.filter (·.decode)).length

/-- Live row groups of a plan: the decode rows together, and each request's chunk in whole groups (R304, R305). -/
def rowGroups (plan : List Slot) : Nat :=
  ceilDiv (decodeRows plan) 64 + sumNat (plan.map (fun x => ceilDiv x.chunk 64))

/-- Occupied row groups of a length bucket (R142). -/
def bucketGroups (plan : List Slot) (b : Nat) : Nat :=
  ceilDiv (plan.filter (fun x => x.decode && x.bucket == b)).length 64 +
  sumNat ((plan.filter (fun x => x.bucket == b)).map (fun x => ceilDiv x.chunk 64))

/-- The runs of a segment in a step (R57). -/
def repeatOf (plan : List Slot) (g : Segment) : Nat :=
  if g.repeatSrc = 0 then 1 else if g.repeatSrc = 1 then rowGroups plan else bucketGroups plan (g.repeatSrc - 2)

/-- The beats of the segments between the prologue and the scatter. -/
def bodyBeats (x : PartImage) (plan : List Slot) : Nat :=
  sumNat (((x.segs.drop 1).dropLast).map (fun g => g.lenBeats * repeatOf plan g))

/-- The length of segment 0. -/
def prologueBeats (x : PartImage) : Nat := (x.segs.headD {}).lenBeats

/-! Results and events. -/

/-- The event bit of a partition. -/
def partEvent (p : Nat) : Fld := if p = 0 then Reg.ITN_IRQ_STATUS_PART0_EVENT else Reg.ITN_IRQ_STATUS_PART1_EVENT

/-- Report the last activation, refusal or stop of a partition. -/
def partResult (s : State) (p code : Nat) : State := (s.wr (Reg.ITN_P_RESULT_CODE p) code).raiseItn (partEvent p)

/-- A refused activation: recorded and reported; the partition is unchanged. -/
def partRefuse (s : State) (p ctx code : Nat) : State :=
  partResult (s.report { errOf code 0 with partition := p, context := ctx }) p code

/-- Bring the PENDING bit up to date. -/
def pendSync (s : State) (p : Nat) : State :=
  let x := s.part p
  s.wr (Reg.ITN_P_STATUS_PENDING p) (b2n (x.pendCtx.isSome || x.pendStop || x.stopCode != 0))

/-- The ACTIVE bit of an itinerary slot and the RUN bit of a context for a partition. -/
def activeFld (p k : Nat) : Fld := if p = 0 then Reg.ITN_SLOT_ACTIVE0 k else Reg.ITN_SLOT_ACTIVE1 k
def runFld (p c : Nat) : Fld := if p = 0 then Reg.SEC_CTX_RUN0 c else Reg.SEC_CTX_RUN1 c

/-! The save region (R273, R274). -/

/-- The bytes of one tile record. -/
def tileRecord : Nat := 8409088

/-- The base and size of a context's save region for a role. -/
def saveRegion (s : State) (ctx role : Nat) : Option (Nat × Nat) :=
  match s.ctxRec ctx with
  | some r => some (r.saveVa + (if role = 1 then r.saveHalf else 0), r.saveHalf)
  | none => none

/-- The leaves of a range; none where a page is not a present, writable tier-0 leaf. -/
def regionLeaves (s : State) (ctx stop : Nat) : Nat → Nat → Option (List Leaf)
  | 0, _ => some []
  | fuel + 1, va =>
    if stop ≤ va then some []
    else match walk s ctx va true with
      | .no _ => none
      | .ok l => if l.tier != 0 then none else (regionLeaves s ctx stop fuel (l.va + l.size)).map (fun r => l :: r)

/-- The pin entries of a save region, where R274 finds it fit for `n` tiles. -/
def savePins (s : State) (ctx role n : Nat) : Option (List Pin) :=
  match saveRegion s ctx role with
  | none => none
  | some (va, size) =>
    if size < 4096 + n * tileRecord then none
    else (regionLeaves s ctx (va + size) (size / 4096 + 2) va).map (fun ls => ls.map (fun l => ⟨ctx, l, .save⟩))

/-- Room for new entries in a partition's pin table of 2^20 (R231): entries of contexts that do not run give way, the least
recently used first (R268). None where even that does not make room. -/
def pinRoom (x : Part) (new : List Pin) : Option (List Pin) :=
  let total := x.pins.length + new.length
  if total ≤ 2 ^ 20 then some (x.pins ++ new)
  else
    let excess := total - 2 ^ 20
    let others := x.pins.filter (fun q => q.ctx != x.ctx)
    if others.length < excess then none
    else some ((others.drop excess) ++ x.pins.filter (fun q => q.ctx == x.ctx) ++ new)

/-- Make the pin entries of a context's save region when its activation is accepted (R274); a region that the context has
pinned in the partition already keeps its entries. -/
def pinSave (s : State) (p ctx role n : Nat) : State :=
  if (s.part p).pins.any (fun q => q.kind == .save && q.ctx == ctx) then s
  else
    match savePins s ctx role n with
    | none => s
    | some new =>
      match pinRoom (s.part p) new with
      | none => s
      | some l => (s.updPart p (fun y => { y with pins := l })).add Reg.XLT_PINS new.length

/-- Discard the save-area entries of a context whose pending activation ends, unless it runs or is being switched in. -/
def unpinSave (s : State) (p ctx : Nat) : State :=
  let x := s.part p
  if x.busy && (x.ctx == ctx || x.incoming == some ctx) then s
  else s.updPart p (fun y => { y with pins := y.pins.filter (fun q => q.kind != .save || q.ctx != ctx) })

/-- A pending activation gives way to a later one or to a stop (R72, R73): its region's entries go. -/
def supersede (s : State) (p ctx : Nat) : State :=
  partRefuse (unpinSave (s.updPart p (fun y => { y with pendCtx := none })) p ctx) p ctx Code.ITN_E_SUPERSEDED

/-- The physical address behind a save-area pin entry of a partition. -/
def savePa (x : Part) (ctx va : Nat) : Option Nat :=
  match x.pins.find? (fun q => q.kind == .save && q.ctx == ctx && q.leaf.covers va) with
  | some q => some (q.leaf.addr + (va - q.leaf.va))
  | none => none

/-- Write bytes into a save region, page by page of 4 KiB. -/
def saveWrite (s : State) (p ctx va : Nat) (bs : List Byte) : State :=
  (List.range (ceilDiv (va % 4096 + bs.length) 4096)).foldl (fun t i =>
    let lo := if i = 0 then 0 else 4096 * i - va % 4096
    let hi := 4096 * (i + 1) - va % 4096
    match savePa (t.part p) ctx (va + lo) with
    | some pa => agentWrite t pa ((bs.take hi).drop lo)
    | none => t) s

/-- Read bytes of a save region. -/
def saveRead (s : State) (p ctx va n : Nat) : List Byte :=
  (List.range n).map (fun i => match savePa (s.part p) ctx (va + i) with
    | some pa => SMap.get dramBlank s.dram pa
    | none => 0)

/-! Model slots and swaps (R217, R219). -/

/-- The set that a model slot gives a partition that takes it now: that of a pending swap where there is one. -/
def slotNext (s : State) (m : Nat) : Option Nat := pointedSet s m true

/-- Whether a partition reads through a model slot without having taken the set of its pending swap. -/
def lagsSwap (s : State) (m : Nat) (x : Part) : Bool :=
  x.busy && ((x.mslot == m && x.wset != slotNext s m) || (x.bslot == m && x.wbase != slotNext s m))

/-- A pending swap takes force once no using partition is left on the old set. -/
def swapSettle (s : State) : State :=
  iter 64 (fun m t =>
    if t.flag (Reg.EXP_MSLOT_PENDING m) && !lagsSwap t m t.part0 && !lagsSwap t m t.part1 then
      let t := t.wrs [(Reg.EXP_MSLOT_SET m, t.rd (Reg.EXP_MSLOT_NEXT_SET m)), (Reg.EXP_MSLOT_PENDING m, 0),
        (Reg.EXP_MSLOT_NEXT_SET m, 0)]
      t.raiseExp Reg.EXP_IRQ_STATUS_SWAP_DONE
    else t) s

/-- A partition takes its pending swaps at its boundary. -/
def takeSwaps (s : State) (p : Nat) : State :=
  swapSettle (s.updPart p (fun x => { x with
    wset := if x.mslot < 64 then slotNext s x.mslot else x.wset
    wbase := if x.bslot < 64 then slotNext s x.bslot else x.wbase }))

/-- The sets a partition reads. -/
def Part.sets (x : Part) : List Nat := if x.busy then x.wset.toList ++ x.wbase.toList else []

/-- The sets that the itinerary of a running partition names, through every CELLAR_LAYOUT entry (R171); `next` asks for those
of pending swaps. -/
def namedSets (s : State) (p : Nat) (next : Bool) : List Nat :=
  let x := s.part p
  let others := match s.image x.slot with
    | none => []
    | some im => (im.layouts.filter (fun e => e.partition != p)).flatMap (fun e =>
        (pointedSet s (effectiveSlot s im e (some x.ctx)) next).toList ++
        (if e.form < 2 then [] else (pointedSet s e.baseSlot next).toList))
  if x.busy then x.sets ++ others else []

/-- Whether the itinerary of a partition names an impaired set. -/
def readsImpaired (s : State) (p : Nat) : Bool := (namedSets s p true).any (fun n => (s.set n).state == 4)

/-! Starting a context. -/

/-- The tile masks of an image's partitions. -/
def masksOf (im : Image) : List Nat := im.parts.map (fun x => x.desc.tileMask)

/-- The checks of an activation, in order: the binding, checks 9, 16 and 17, the cap divider, the map, the partition,
the save region. 0 where it is accepted (R71, R274, R363). -/
def activationCode (s : State) (p ctx : Nat) : Nat :=
  match boundSlot s ctx with
  | none => Code.ITN_E_BIND
  | some k =>
    match s.image k with
    | none => Code.ITN_E_BIND
    | some im =>
      if ctxState s ctx != 2 then Code.ITN_E_BIND
      else match activationFail s im ctx with
        | some (c, _) => c
        | none =>
          let d := (im.parts.getD p {}).desc
          if decide (p < im.parts.length) && decide (d.divLimit < capDivOf s (masksOf im) p s.pwr.capNow) then
            Code.ITN_E_TILE_SLOW
          else if (s.part (1 - p)).busy && s.mapForce != some (masksOf im) then Code.ITN_E_MAPDIFF
          else if im.parts.length ≤ p then Code.ITN_E_BIND
          else if (savePins s ctx d.role (maskTiles d.tileMask).length).isNone then Code.ITN_E_BIND
          else 0

/-- Assign the MSE site slots of a tile (R121): GEN advances where the assignment changes; a slot without an enabled entry
before and after keeps what it shows. -/
def assignSites (s : State) (n slot : Nat) (l : List MseEntry) : State :=
  iter 64 (fun i t =>
    let e := l.getD i {}
    let had := t.flag (Reg.TIL_MSE_SITE_VALID n i)
    let same := t.rd (Reg.TIL_MSE_SITE_SITE_ID n i) == e.siteId && t.rd (Reg.TIL_MSE_SITE_ITN_SLOT n i) == slot
    if had == e.enabled && (!had || same) then t
    else t.wrs [(Reg.TIL_MSE_SITE_SITE_ID n i, e.siteId), (Reg.TIL_MSE_SITE_VALID n i, b2n e.enabled),
      (Reg.TIL_MSE_SITE_ITN_SLOT n i, slot), (Reg.TIL_MSE_SITE_GEN n i, t.rd (Reg.TIL_MSE_SITE_GEN n i) + 1)]) s

/-- Prepare a tile for a context (R94 items 2 to 5, R95). `load` says whether the kernel banks and the thread table are
filled anew: on an activation from IDLE and on a switch to another itinerary slot. -/
def prepTile (s : State) (slot : Nat) (x : PartImage) (n : Nat) (load : Bool) : State :=
  let kb := kernelBanksOf x n
  let banks := if load then List.range 32 else (List.range 32).filter (fun b => !kb.contains b)
  let k := (tileKernels x n).getD {}
  let area := (s.mread (slotBase s slot + k.imageOff) k.imageLen).map (·.toNat)
  let s := s.updTile n (fun t =>
    let t := t.handover true banks (phase0 x n)
    let t := if load then { loadKernels t kb area with threads := allocThreads 0 0 k.dir [] } else t
    { t with
      secureWritten := [], retention := false, filled := false
      arr0 := { t.arr0.cleared with duty := 16 }, arr1 := { t.arr1.cleared with duty := 16 } })
  if load then s.wrs [(Reg.TIL_THREADS_DECLARED n, k.threads), (Reg.TIL_THREADS_BOUND n, 0)] else s

/-- Prepare every tile of a partition's image. -/
def prepTiles (s : State) (slot : Nat) (x : PartImage) (load : Bool) : State :=
  let tiles := maskTiles x.desc.tileMask
  let s := overList tiles (fun n t => prepTile t slot x n load) s
  if load then (List.range tiles.length).foldl (fun t i => assignSites t (tiles.getD i 0) slot (x.mse.getD i [])) s
  else s

/-- The partition record of a context that starts on `p`: its itinerary, its sets, and its save region's pins where its
activation has not made them before. -/
def enterPart (s : State) (p ctx slot : Nat) (im : Image) : State :=
  let x := im.parts.getD p {}
  let entry := im.layouts.find? (fun e => e.partition == p)
  let m := match entry with | some e => effectiveSlot s im e (some ctx) | none => 0xFF
  let b := match entry with | some e => if e.form < 2 then 0xFF else e.baseSlot | none => 0xFF
  let s := s.updPart p (fun y => { y with
    ctx := ctx, slot := slot, tileMask := x.desc.tileMask, role := x.desc.role, divLimit := x.desc.divLimit
    mslot := m, bslot := b, wset := slotNext s m, wbase := slotNext s b, seg := 0, plan := []
    incoming := none, outCode := 0, fresh := true })
  let s := pinSave s p ctx x.desc.role (maskTiles x.desc.tileMask).length
  (spanEnter s p im).wrs [(Reg.ITN_P_STATUS_CONTEXT_RUN p, ctx), (Reg.ITN_P_STATUS_SLOT p, slot), (activeFld p slot, 1),
    (runFld p ctx, 1)]

/-- Leave a partition: the bits that name its context and slot go, and so do the pins of its save area; those of a context
that is to come stay. -/
def leavePart (s : State) (p : Nat) : State :=
  let x := s.part p
  let s := (spanLeave s p).wrs [(activeFld p x.slot, 0), (runFld p x.ctx, 0)]
  s.updPart p (fun y => { y with pins := y.pins.filter (fun q =>
    q.kind == .range || q.kind == .table || (q.kind == .save && (some q.ctx == x.incoming || some q.ctx == x.pendCtx))) })

/-! Ramps and idle time (R84 to R87). -/

/-- T-cycles of a ramp step of 375 K-cycles at a divider. -/
def rampT (d : Nat) : Nat := 6000 / d

/-- Count `t` T-cycles in which an array had no pass, `gated` of them with its clock gated: filler in beats, gating in
K-cycles of 16 / d T-cycles (R85, R98). -/
def countIdle (s : State) (n a d t gated : Nat) : State :=
  (s.add (Reg.TIL_ARR_FILLER n a) ((t - gated) / 64)).add (Reg.TIL_ARR_GATED n a) (gated * d / 16)

/-- The T-cycles of an idle time of `t` in which an array that made `k` ramp steps down was gated: none unless it reached
the end of the ramp. -/
def gatedOf (d t k : Nat) : Nat := if k = 16 then t - (3000 + 16 * rampT d) else 0

/-- An array goes back to full duty by as many ramp steps as it is short of it, and the steps are counted. -/
def rampUp (s : State) (n a : Nat) : State :=
  let s := s.add (Reg.TIL_ARR_RAMP n a) (16 - ((s.tile n).arr a).duty)
  s.updTile n (fun u => u.updArr a (fun x => { x with duty := 16 }))

/-- The arrays of a partition are back at full duty, each step counted (R36). -/
def rampBack (s : State) (p : Nat) : State :=
  overList (s.part p).tiles (fun n t => rampUp (rampUp t n 0) n 1) s

/-- Count the wait of a partition in its arrays' idle time: what they ran before the ramp-back, and the ramp-back. -/
def countWait (s : State) (p : Nat) : State :=
  match (s.part p).waitKc with
  | none => s
  | some k0 =>
    let d := s.rd (Reg.ITN_P_STATUS_DIVIDER p)
    let t := (s.timeKc - k0) * 16 / d
    let one (n a : Nat) (u : State) : State :=
      let k := 16 - ((u.tile n).arr a).duty
      countIdle u n a d (t + k * rampT d) (gatedOf d t k)
    (overList (s.part p).tiles (fun n u => one n 1 (one n 0 u)) s).updPart p (fun y => { y with waitKc := none })

/-- The wait of a partition ends: its banks wake and its arrays ramp back up (R85, R87, R252). -/
def wake (s : State) (p : Nat) : State :=
  let s := rampBack (countWait s p) p
  overList (s.part p).tiles (fun n t => t.updTile n (fun u => { u with retention := false })) s

/-- Raise the voltage for the dividers in use (R359); the order of an activation is acknowledged. -/
def voltUp (s : State) : State := if s.pwr.setpoint < voltWanted s then pmbus s (voltWanted s) true else s

/-- Set the divider of a partition that starts (R94 item 1). -/
def startDivider (s : State) (p : Nat) : State :=
  let s := { s with pwr := (s.pwr.setCapWant p (partCapDiv s p)).setLastChange p s.timeUs }
  let d0 := target s p
  let on := [(1, s.pwr.curOn), (2, s.pwr.thermOn), (5, s.pwr.celOn)]
  let s := { s with pwr := on.foldl (fun w q => if q.2 then w.setStep q.1 p (slower d0) else w) s.pwr }
  let d := target s p
  let s := overList (s.part p).tiles (fun n t => t.wr (Reg.TIL_STATUS_DIV n) d) (s.wr (Reg.ITN_P_STATUS_DIVIDER p) d)
  powerSettle (voltUp s)

/-- Count a number of ramp steps in every array of a partition's tiles (R86). -/
def countRamps (s : State) (tiles : List Nat) (k : Nat) : State :=
  overList tiles (fun n t => (t.add (Reg.TIL_ARR_RAMP n 0) k).add (Reg.TIL_ARR_RAMP n 1) k) s

/-- The tiles and the status of a partition that waits at a boundary (R87). -/
def showWaiting (s : State) (p : Nat) : State :=
  let x := s.part p
  let s := overList x.tiles (fun n t => t.wrs [(Reg.TIL_STATUS_PART n, p + 1), (Reg.TIL_STATUS_STATE n, 7)]) s
  let s := s.updPart p (fun y => { y with waitKc := some (y.waitKc.getD s.timeKc) })
  s.wr (Reg.ITN_P_STATUS_STATE p) 2

/-- An activation takes effect on an IDLE partition (R72, R94). -/
def startIdle (s : State) (p ctx : Nat) : State :=
  match boundSlot s ctx with
  | none => s
  | some k =>
    match s.image k with
    | none => s
    | some im =>
      let s := if (s.part (1 - p)).busy then s else { s with mapForce := some (masksOf im) }
      let s := s.updPart p (fun y => { y with stage := .waiting, beat := 0, pendCtx := none, pendStop := false, urgent := false, stopCode := 0, stall := {} })
      let s := enterPart s p ctx k im
      let s := prepTiles s k (im.parts.getD p {}) true
      let s := countRamps s (s.part p).tiles 16
      let s := showWaiting (startDivider s p) p
      partResult (takeSwaps (pendSync s p) p) p 0

/-! Leaving a context. -/

/-- Park the tiles of a partition (R25, R86): ramped down, clocks gated, banks in retention. -/
def parkTiles (s : State) (tiles : List Nat) : State :=
  overList tiles (fun n t =>
    let t := t.updTile n (fun u => { u with
      retention := true, threads := [], arr0 := { u.arr0 with duty := 0 }, arr1 := { u.arr1 with duty := 0 } })
    t.wrs [(Reg.TIL_STATUS_DIV n, 0), (Reg.TIL_STATUS_PART n, 0), (Reg.TIL_STATUS_STATE n, 2),
      (Reg.TIL_THREADS_DECLARED n, 0), (Reg.TIL_THREADS_BOUND n, 0)]) s

/-- A partition becomes IDLE: its tiles are parked and the code of the stop is reported (R73, R74). Every way here has brought its
arrays to full duty (`beginSwitch`), so the ramp of R86 is 16 steps down. -/
def parkPart (s : State) (p code : Nat) : State :=
  let x := s.part p
  let s := parkTiles (countRamps (leavePart s p) x.tiles 16) x.tiles
  let s := s.setPart p { pins := (s.part p).pins, pendCtx := x.pendCtx, pendStop := false, stopCode := 0 }
  let s := s.wrs [(Reg.ITN_P_STATUS_STATE p, 0), (Reg.ITN_P_STATUS_CONTEXT_RUN p, 0), (Reg.ITN_P_STATUS_DIVIDER p, 0),
    (Reg.ITN_P_STATUS_SLOT p, 0)]
  let w := ((s.pwr.setCapWant p 0).setWait p none)
  let s := { s with pwr := [1, 2, 5].foldl (fun w r => w.setStep r p 0) w }
  partResult (powerSettle (swapSettle (pendSync s p))) p code

/-- An activation that arrived while the partition was stopping acts once it is IDLE. -/
def idlePending (s : State) (p : Nat) : State :=
  match (s.part p).pendCtx with
  | none => s
  | some c =>
    let s := pendSync (s.updPart p (fun y => { y with pendCtx := none })) p
    let code := activationCode s p c
    if code = 0 then startIdle s p c else partRefuse (unpinSave s p c) p c code

/-! Saving and restoring (R273, R275, R276). -/

/-- The bytes of a bank, zeros where a line is not written. -/
def bankData (t : Tile) (b : Nat) : List Byte := (List.range bankSize).map (fun i => BitVec.ofNat 8 (t.byte b i))

/-- The written bits of a bank, bit `j` for line `j`. -/
def bankBits (t : Tile) (b : Nat) : List Byte :=
  (List.range 512).map (fun i => BitVec.ofNat 8 ((List.range 8).foldl (fun v j =>
    v + b2n (t.isWritten b (8 * i + j)) * 2 ^ j) 0))

/-- The bits of a list of banks. -/
def bankMask (l : List Nat) : Nat := l.foldl (fun m b => m + 2 ^ b) 0

/-- What DATA_CRC covers: bitmap and data of each saved bank, in ascending order. -/
def saveData (t : Tile) (banks : List Nat) : List Byte := (banks.map (fun b => bankBits t b ++ bankData t b)).flatten

/-- The header of a tile record. -/
def tileHeader (n : Nat) (t : Tile) (banks : List Nat) : List Byte :=
  leBytes 1 n ++ leBytes 1 (b2n t.filled) ++ leBytes 2 0 ++ leBytes 4 (bankMask banks) ++
  leBytes 4 (crc32c (saveData t banks)) ++ List.replicate 4084 0

/-- Step 1 of R275: STATE = 0 in the outgoing context's region header. -/
def clearSaved (s : State) (p : Nat) : State :=
  let x := s.part p
  match saveRegion s x.ctx x.role with
  | some (va, _) => saveWrite s p x.ctx (va + 4) [0]
  | none => s

/-- Steps 2 and 3 of R275: the carry banks, the tile headers, and the region header in one booking. -/
def writeSave (s : State) (p : Nat) : State :=
  let x := s.part p
  let img := s.partImage p
  match saveRegion s x.ctx x.role with
  | none => s
  | some (va, _) =>
    let idx := List.range x.tiles.length
    let one (t : State) (k : Nat) : State :=
      let n := x.tiles.getD k 0
      let u := t.tile n
      let base := va + 4096 + k * tileRecord
      let t := (carrySet img n).foldl (fun t b =>
        saveWrite (saveWrite t p x.ctx (base + 0x1000 + 512 * b) (bankBits u b)) p x.ctx
          (base + 0x5000 + bankSize * b) (bankData u b)) t
      saveWrite t p x.ctx base (tileHeader n u (carrySet img n))
    let heads := (idx.map (fun k => let n := x.tiles.getD k 0; tileHeader n (s.tile n) (carrySet img n))).flatten
    let banks := sumNat (x.tiles.map (fun n => (carrySet img n).length))
    let id := match s.image x.slot with | some im => im.itnId | none => []
    let s := idx.foldl one s
    let hdr := leBytes 4 0x56534C48 ++ leBytes 1 1 ++ leBytes 1 x.role ++ leBytes 2 0 ++ leBytes 4 x.tileMask ++
      leBytes 4 banks ++ id ++ leBytes 8 (s.rd (Reg.ITN_P_STEPS p)) ++ leBytes 4 (crc32c heads) ++
      List.replicate 4052 0
    match savePa x x.ctx va with
    | some pa => keeperWrite s (writeLines pa hdr) []
    | none => s

/-- Put the saved lines of a bank into a tile. -/
def restoreBank (t : Tile) (b : Nat) (bits data : List Byte) : Tile :=
  (List.range 4096).foldl (fun u j =>
    if bitOf ((bits.getD (j / 8) 0).toNat) (j % 8) then
      u.puts b (64 * j) (((data.drop (64 * j)).take 64).map (·.toNat))
    else u) t

/-- Restore one tile from its record: whether DATA_CRC matches, and the tile (R276). -/
def restoreTile (s : State) (p ctx base n : Nat) (img : PartImage) : Bool × State :=
  let head := saveRead s p ctx base 12
  let banks := (List.range 32).filter (fun b => bitOf (recField head 4 4) b)
  let parts := banks.map (fun b => (b, saveRead s p ctx (base + 0x1000 + 512 * b) 512,
    saveRead s p ctx (base + 0x5000 + bankSize * b) bankSize))
  if crc32c ((parts.map (fun q => q.2.1 ++ q.2.2)).flatten) = recField head 8 4 then
    (true, s.updTile n (fun t =>
      let t := parts.foldl (fun u q => if (carrySet img n).contains q.1 then restoreBank u q.1 q.2.1 q.2.2 else u) t
      { t with filled := bitOf (recField head 1 1) 0 }))
  else (false, s)

/-- The checks of R276 on the region header. -/
def headerFits (s : State) (p : Nat) (hdr : List Byte) (va : Nat) : Bool :=
  let x := s.part p
  let id := match s.image x.slot with | some im => im.itnId | none => []
  recField hdr 0 4 == 0x56534C48 && recField hdr 4 1 == 1 && recField hdr 8 4 == x.tileMask &&
  (hdr.drop 0x10).take 16 == id &&
  recField hdr 0x28 4 == crc32c (((List.range x.tiles.length).map (fun k =>
    saveRead s p x.ctx (va + 4096 + k * tileRecord) 4096)).flatten)

/-- A restore (R276): whether it met no failed check, and the tiles. -/
def restore (s : State) (p : Nat) : Bool × State :=
  let x := s.part p
  match saveRegion s x.ctx x.role with
  | none => (false, s)
  | some (va, _) =>
    let hdr := saveRead s p x.ctx va 0x2C
    if headerFits s p hdr va then
      (List.range x.tiles.length).foldl (fun r k =>
        let q := restoreTile r.2 p x.ctx (va + 4096 + k * tileRecord) (x.tiles.getD k 0) (s.partImage p)
        (r.1 && q.1, q.2)) (true, s)
    else (false, s)

/-- Record a save or restore that met a fault or failed a check (R277). -/
def saveFault (s : State) (p : Nat) : State :=
  s.report { errOf Code.ITN_E_SAVE 0 with partition := p, context := (s.part p).ctx }

/-! The boundary. -/

/-- Begin the switch of R275 at a step boundary: to an incoming context, or to a stop with its code. The arrays of a
partition that waited run filler passes again, and its banks are awake for the save. -/
def beginSwitch (s : State) (p : Nat) (incoming : Option Nat) (code : Nat) : State :=
  let s := clearSaved (wake s p) p
  let s := s.updPart p (fun y => { y with
    stage := .saving, incoming := incoming, outCode := code, pendCtx := none, pendStop := false, urgent := false
    stopCode := 0 })
  pendSync (s.wr (Reg.ITN_P_STATUS_STATE p) 4) p

/-- Whether Keeper drains and no admitted request of a context is left: the partition that waits is stopped (R422). -/
def drained (s : State) (ctx : Nat) : Bool :=
  s.rd Reg.KPR_STATUS_STATE == 3 &&
  !(s.ops.any (fun o => o.ctx == ctx && (o.phase == .attaching || o.phase == .prefill || o.phase == .decode)))

/-- Whether check 16 fails for a pending activation at the boundary, with the sets of the swaps that take effect there
(R219). -/
def weightsLost (s : State) (ctx : Nat) : Bool :=
  match boundSlot s ctx with
  | none => false
  | some k => match s.image k with
    | none => false
    | some im => (weightsCheck s im (some ctx)).isSome

/-- A partition waits at its boundary (R87). -/
def toWait (s : State) (p : Nat) : State :=
  pendSync (showWaiting (s.updPart p (fun y => { y with stage := .waiting, stopCode := 0, exempt := false })) p) p

/-- A step boundary (R72, R73, R217, R219): swaps take effect, then a stop, a switch, or a wait for work. A droop stall
holds back the save of an urgent request (R278). -/
def boundary (s : State) (p : Nat) : State :=
  let s := takeSwaps s p
  let x := s.part p
  if x.urgent && x.stall.droop then s.updPart p (fun y => { y with stage := .waiting })
  else
    let code := if x.stopCode = Code.ITN_E_WEIGHTS && !readsImpaired s p then 0 else x.stopCode
    if code != 0 || x.pendStop then
      match x.pendCtx with
      | some c => beginSwitch (supersede s p c) p none code
      | none => beginSwitch s p none code
    else match x.pendCtx with
      | some c =>
        if weightsLost s c then
          toWait (partRefuse (unpinSave (s.updPart p (fun y => { y with pendCtx := none, urgent := false })) p c) p c Code.ITN_E_WEIGHTS) p
        else beginSwitch s p (some c) 0
      | none => if drained s x.ctx then beginSwitch s p none 0 else toWait s p

/-- A pending request takes effect at once where the partition waits (R87). -/
def actNow (s : State) (p : Nat) : State := if (s.part p).stage == .waiting then boundary s p else s

/-- Step 5 of R275 before the tiles park: every bank but the kernel banks goes to its phase-0 owner, its written bits
cleared. -/
def handBack (s : State) (p : Nat) : State :=
  let img := s.partImage p
  overList (s.part p).tiles (fun n t => t.updTile n (fun u =>
    u.handover true ((List.range 32).filter (fun b => !(kernelBanksOf img n).contains b)) (phase0 img n))) s

/-- Switch the incoming context in (R95). What has become pending during the save acts at its first boundary. -/
def switchIn (s : State) (p ctx : Nat) : State :=
  match boundSlot s ctx with
  | none => idlePending (parkPart (handBack s p) p 0) p
  | some k =>
    match s.image k with
    | none => idlePending (parkPart (handBack s p) p 0) p
    | some im =>
      if some (masksOf im) != s.mapForce then
        let x := s.part p
        let s := parkTiles (countRamps (leavePart (handBack s p) p) x.tiles 16) x.tiles
        let s := startIdle (s.setPart p { pins := (s.part p).pins }) p ctx
        if x.pendCtx.isSome || x.pendStop then
          actNow (pendSync (s.updPart p (fun y => { y with pendCtx := x.pendCtx, pendStop := x.pendStop })) p) p
        else s
      else
        let other := k != (s.part p).slot
        let s := enterPart (leavePart s p) p ctx k im
        let s := prepTiles s k (im.parts.getD p {}) other
        let s := startDivider s p
        let s := s.updPart p (fun y => { y with stage := .restoring, beat := if other then 0 else y.beat })
        takeSwaps (s.wr (Reg.ITN_P_STATUS_STATE p) 1) p

/-- The end of the save (R275 steps 3 to 6). -/
def saveDone (s : State) (p : Nat) (fault : Bool) : State :=
  let x := s.part p
  if x.stage == .saving then
    let s := if fault then saveFault s p else writeSave s p
    let s := s.updPart p Part.dropStep
    match x.incoming with
    | some c => switchIn s p c
    | none => idlePending (parkPart (handBack s p) p x.outCode) p
  else s

/-- SAVE_DONE (R275). -/
def execSaveDone (p : Nat) (fault : Bool) (s : State) : Answer := .next (s.engine (fun s => saveDone s p fault))

/-- The end of the restore (R276): the incoming context is at its first boundary. -/
def restoreDone (s : State) (p : Nat) (fault : Bool) : State :=
  if (s.part p).stage == .restoring then
    let r := if fault then (false, s) else restore s p
    let s := if r.1 then r.2 else saveFault r.2 p
    boundary (partResult s p 0) p
  else s

/-- RESTORE_DONE (R276). -/
def execRestoreDone (p : Nat) (fault : Bool) (s : State) : Answer := .next (s.engine (fun s => restoreDone s p fault))

/-! Abandonment (R41, R42, R278, R279). -/

/-- Count the stall in progress up to an abandonment and end it; a droop cause that still holds stays (R278). -/
def dropStall (s : State) (p beats : Nat) : State :=
  let x := s.part p
  if x.stall.on then
    let s := chargeStall s p beats (x.stall.seen.filter (fun c => decide (c < 4)))
    s.updPart p (fun y => { y with stall := { droop := y.stall.droop, seen := if y.stall.droop then [1] else [] } })
  else s

/-- The layout entry of a partition's running itinerary. -/
def layoutOf (s : State) (p : Nat) : Option LayoutEntry :=
  match s.image (s.part p).slot with
  | some im => im.layouts.find? (fun e => e.partition == p)
  | none => none

/-- What a dropped step still takes from the Cellar: of its last step with reads in flight. -/
def lateOf (s : State) (p : Nat) : Option LateStep :=
  let x := s.part p
  if s.cel.inFlight.any (fun r => r.part == p && r.live) then
    match layoutOf s p, x.wset with
    | some e, some n => some { set := n, base := x.wbase, arrays := e.arrays, tiles := x.tiles, arrived := x.arrived, seqNo := x.seqNo }
    | _, _ => x.late
  else x.late

/-- The reads and the buffered blocks of a step that ends go on to their end and are discarded (R200); the racks empty. -/
def dropWork (s : State) (p : Nat) : State :=
  let tiles := (s.part p).tiles
  let late := lateOf s p
  let s := s.updPart p (fun y => { y with late := late })
  let s := { s with
    cel := { s.cel with
      inFlight := s.cel.inFlight.map (fun (r : ReadOp) => if r.part == p then { r with live := false } else r) }
    exp := { s.exp with
      buffered := s.exp.buffered.map (fun (b : BufBlock) => if tiles.contains (b.arr / 2) then { b with live := false } else b) } }
  overList tiles (fun n t => t.updTile n (fun u => { u with
    arr0 := { u.arr0 with rack := [] }, arr1 := { u.arr1 with rack := [] } })) s

/-- Beats of the part of a step that is in progress: an abandonment ends it after some of them. -/
def Part.beatsLeft (x : Part) (img : PartImage) : Nat :=
  match x.stage with
  | .prologue => prologueBeats img - 16
  | .sealed => 16
  | .body => bodyBeats img x.plan
  | _ => 0

/-- Abandon the step of a partition: what it held is dropped, its requests keep their places (R41, R279). Its beat counter
has advanced by the beats that ran (R92), a number the events of a step do not tell: a free value within the part of the
step in progress. -/
def abandon (s : State) (p : Nat) : State :=
  let keep := (s.part p).stall
  let ran := s.freshNat
  let n := (s.part p).beatsLeft (s.partImage p)
  let s := ran.2.updPart p (fun y => { y with beat := y.beat + ran.1 % (n + 1) })
  let s := { s with ops := s.ops.map (fun (o : Operation) => if o.inStep == some p then { o with inStep := none } else o) }
  (dropWork s p).updPart p (fun y => { y.dropStep with
    stage := .waiting, seg := 0, stall := { keep with retry := false, booking := false } })

/-- A request that a CANCEL, a drain, an FLR or a span's halt has stopped ends once no step holds it (R42, R290). -/
def endStopped (s : State) (ids : List Nat) : State :=
  overList ids (fun i t => match t.op i with
    | some o => if o.stop.isSome then endRequest t o ((stopCodeAt o t.timeKc).getD 0) else t
    | none => t) s

/-- The operations in a partition's step. -/
def stepOps (s : State) (p : Nat) : List Nat := (s.ops.filter (fun o => o.inStep == some p)).map (fun o => o.id)

/-- An urgent request acts (R43, R278): before the scatter it abandons the step. -/
def preempt (s : State) (p beats : Nat) : State :=
  let x := s.part p
  if x.stage == .prologue || x.stage == .sealed || x.stage == .body then
    let s := (s.updPart p (fun y => { y with urgent := true })).add Reg.MEM_BKG_AB_PREEMPT x.bookings.length
    boundary (endStopped (abandon (dropStall s p beats) p) (stepOps s p)) p
  else actNow s p

/-! Requests. -/

/-- Keeper stops a partition at its next boundary with a code (R74, R171). -/
def keeperStop (s : State) (p code : Nat) : State :=
  if (s.part p).busy then
    actNow (pendSync (s.updPart p (fun y => if y.stopCode = 0 then { y with stopCode := code } else y)) p) p
  else s

/-- Whether a stage runs here and has not halted. -/
def spanUp (s : State) (p : Nat) : Bool :=
  (s.span p).running && s.rd (Reg.CHN_S_STATUS_CODE p) != Code.CHN_E_SPAN

/-- A span halts here (R349): its partition stops at its next boundary with ITN_E_CHAIN, and stage 0 ends every admitted
request with CHN_E_SPAN: one in the step in progress ends with it. -/
def spanStop (s : State) (p : Nat) : State :=
  if spanUp s p then
    let s := (s.wr (Reg.CHN_S_STATUS_CODE p) Code.CHN_E_SPAN).raiseChn Reg.CHN_IRQ_STATUS_SPAN_HALT
    let s := if spanHead s p then
        overList (admittedOps s (s.part p).ctx) (fun (o : Operation) t => match t.op o.id with
          | some y =>
            if y.inStep.isSome then
              t.updOp y.id (fun z => { z with stop := some (t.timeKc, Code.CHN_E_SPAN) })
            else endRequest t y Code.CHN_E_SPAN
          | none => t) (s.updSpan p (fun y => { y with awaited := [] }))
      else s
    keeperStop s p Code.ITN_E_CHAIN
  else s

/-- The unit that sees the cause of a halt tells every stage (R349). -/
def spanHalt (s : State) (p : Nat) : State :=
  if spanUp s p then
    spanStop (spanTell (s.report { errOf Code.CHN_E_SPAN 3 with partition := p }) p 0x24 0 []) p
  else s

/-- Queue an accepted activation of a running partition (R72, R73, R280); its save region is pinned from now on (R274). -/
def queueCtx (s : State) (p ctx : Nat) : State :=
  let x := s.part p
  if x.pendStop then partRefuse s p ctx Code.ITN_E_SUPERSEDED
  else
    let s := match x.pendCtx with
      | some c => supersede s p c
      | none => s
    let img := match boundSlot s ctx with | some k => ((s.image k).getD {}).parts.getD p {} | none => {}
    let s := s.updPart p (fun y => { y with pendCtx := some ctx })
    pendSync (pinSave s p ctx img.desc.role (maskTiles img.desc.tileMask).length) p

/-- An activation, urgent or not (R71, R72, R324). -/
def activate (s : State) (p ctx : Nat) (urgent : Bool) (beats : Nat) : State :=
  s.keeper (Reg.ITN_P_RESULT_CODE p) (fun s =>
    let x := s.part p
    if urgent && x.busy && x.ctx == ctx then partRefuse s p ctx Code.ITN_E_BIND
    else
      let code := activationCode s p ctx
      if code != 0 then partRefuse s p ctx code
      else if !x.busy then startIdle s p ctx
      else if x.pendStop then queueCtx s p ctx
      else if urgent then preempt (spanHalt (queueCtx s p ctx) p) p beats
      else actNow (queueCtx s p ctx) p)

/-- ACTIVATION (R71, R72). -/
def execActivation (p ctx : Nat) (s : State) : Answer :=
  .next (s.host (Reg.ITN_P_CTRL_CONTEXT p).off (fun s =>
    activate (s.wr (Reg.ITN_P_CTRL_CONTEXT p) ctx) p ctx false 0))

/-- A stop, urgent or not (R73, R324); a partition that is IDLE stays so. -/
def stopPart (s : State) (p : Nat) (urgent : Bool) (beats : Nat) : State :=
  s.keeper (Reg.ITN_P_RESULT_CODE p) (fun s =>
    let x := s.part p
    if x.busy then
      let s := match x.pendCtx with
        | some c => supersede s p c
        | none => s
      let s := pendSync (s.updPart p (fun y => { y with pendCtx := none, pendStop := true })) p
      let s := spanHalt s p
      if urgent then preempt s p beats else actNow s p
    else s)

/-- PARTITION_STOP (R73). -/
def execPartitionStop (p : Nat) (s : State) : Answer :=
  .next (s.host (Reg.ITN_P_CTRL_CONTEXT p).off (fun s => stopPart s p false 0))

/-- URGENT_PREEMPT (R278, R324). -/
def execUrgentPreempt (p ctx beats : Nat) (s : State) : Answer :=
  .next (s.host (Reg.SRV_P_URGENT_CONTEXT p).off (fun s =>
    activate (s.wr (Reg.SRV_P_URGENT_CONTEXT p) ctx) p ctx true beats))

/-- URGENT_STOP (R278, R324). -/
def execUrgentStop (p beats : Nat) (s : State) : Answer :=
  .next (s.host (Reg.SRV_P_URGENT_CONTEXT p).off (fun s => stopPart s p true beats))

/-- The stop of R171: every partition whose itinerary names a set. -/
def stopReaders (s : State) (set : Nat) : State :=
  overList [0, 1] (fun p t => if (namedSets t p false).contains set then keeperStop t p Code.ITN_E_WEIGHTS else t) s

/-- The stop of R74: a tile's maximum divider rose above the DIV_LIMIT of its running partition. -/
def stopSlow (s : State) (tile : Nat) : State :=
  overList [0, 1] (fun p t =>
    let x := t.part p
    if x.busy && x.tiles.contains tile && decide (x.divLimit < partFloor t p) && x.stopCode == 0 then
      keeperStop (t.report { errOf Code.ITN_E_TILE_SLOW 3 with cls := 7, partition := p, tile := tile }) p
        Code.ITN_E_TILE_SLOW
    else t) s

/-! Faults that end every slot of a step (R37, R42). -/

/-- Whether a partition's step can still be abandoned: its scatter has not begun. -/
def Part.beforeScatter (x : Part) : Bool := x.stage == .prologue || x.stage == .sealed || x.stage == .body

/-- End every request of a partition's step and abandon the step: a slot that had ended keeps its code, the others take
`code`. The fault governs where an urgent request is pending (R45); the save still runs (R280). -/
def endAllSlots (s : State) (p code : Nat) : State :=
  if (s.part p).beforeScatter then
    let ends := (s.part p).plan.map (fun x => (x.op, x.fault.getD code))
    let s := spanFree (spanSend s p (s.part p).ctx (s.part p).plan.length (ends.map (fun e => (0, e.2)))) p
    let s := abandon s p
    let s := overList ends (fun e t => match t.op e.1 with | some o => endRequest t o e.2 | none => t) s
    boundary s p
  else s

end Sys2Proof.Machine
end

