-- ==== Sys2Proof/Machine/Steps.lean ====
section
/-! DEFINITION. The prologue of a step: candidates and their tests (R129, R145, R146, R269, R292), backing, pins and
watches (R150, R231, R262, R268), the forming of the plan (R142, R303 to R305), the seal beat (R93), the start of
segment 1 with the thread binding (R89), and the arrival of work (R87, R252). A stream or a sequence serves one step
at a time and is read in the prologue only (R28, R134, R146); a bucket's segments are counted once per occupied row
group (R143). -/

namespace Sys2Proof.Machine

/-- The largest number of row groups of a bucket in a step (R142). -/
def bucketBound (s : State) (p b : Nat) : Nat :=
  if (s.part p).role = 1 then
    match ((s.partImage p).segs.filter (fun g => g.repeatSrc == 2 + b)).map (·.maxRepeat) with
    | [] => 0
    | m :: rest => rest.foldl minNat m
  else ((geo s (s.part p).ctx).entries.getD b {}).maxGroups

/-! What a request in a step needs. -/

/-- A stream entry (R128). -/
structure StreamRec where
  stateVa : Nat
  flags   : Nat
  tag     : Nat
  resetPos : Nat
  seed    : Nat
  anchorN : Nat
  step    : Nat
  zeros   : Bool
  deriving DecidableEq, Repr

/-- The fields of an entry's 32 bytes. -/
def parseStream (r : List Byte) : StreamRec :=
  { stateVa := recField r 0 8, flags := recField r 8 1, tag := recField r 10 2, resetPos := recField r 12 4
    seed := recField r 16 4, anchorN := recField r 20 4, step := recField r 24 4
    zeros := recZero r 9 1 && recZero r 28 4 && decide (recField r 8 1 < 32) }

/-- Whether a partition's states are FP32 (R129). -/
def streamsFp32 (x : PartImage) : Bool := x.streams.any (fun o => o.fmt == 1)

/-- Rows 1, 3 and 4 of R129. -/
def streamBad (x : PartImage) (r : StreamRec) : Option Nat :=
  if !r.zeros then some Code.TIL_E_FORMAT
  else if !bitOf r.flags 0 then some Code.TIL_E_STREAM
  else if !bitOf r.flags 1 && (r.tag != x.stateTag || bitOf r.flags 4 != streamsFp32 x) then some Code.TIL_E_STREAM
  else none

/-- The pin entries of pages, with the walks they take; a page that is pinned already needs none. The answer says how far
it came, with the entries made. -/
def pinPages (s : State) (p ctx : Nat) (kind : PinKind) (w : Bool) : List Nat → List Pin → Work × List Pin × State
  | [], got => (.done, got, s)
  | va :: rest, got =>
    if ((s.part p).pins ++ got).any (fun q => q.ctx == ctx && q.leaf.covers va) then pinPages s p ctx kind w rest got
    else
      let r := walk s ctx va w
      let t := countWalk s r
      match r with
      | .no c => (.fail c, got, t)
      | .ok l =>
        if (markedAt s l.tier l.room l.addr).isSome then (.wait, got, t)
        else
          pinPages t p ctx kind w rest (got ++ [⟨ctx, l, kind⟩])

/-- The pages of a range up to a position. -/
def rangePages (g : Buckets) (base last : Nat) : List Nat :=
  (List.range ((last / 64 + 1) * g.tokblkPages)).map (fun i => base + i * 65536)

/-- The 4 KiB pieces of a range of bytes, by their first address. -/
def piecesOf (va n : Nat) : List Nat := (List.range (ceilDiv (va % 4096 + n) 4096)).map (fun i => va / 4096 * 4096 + 4096 * i)

/-- Entries that a prologue uses again become the latest used. -/
def touchPins (ctx : Nat) (vas : List Nat) (l : List Pin) : List Pin :=
  let used (q : Pin) : Bool := q.ctx == ctx && vas.any (fun va => q.leaf.covers va)
  l.filter (fun q => !used q) ++ l.filter used

/-- The watch of a booking over bytes of one line. -/
def watchOf (owner : Nat) (l : BookLine) : Watch := { owner := owner, addr := l.addr, mask := l.mask }

/-- The write line of a scatter over a sequence record: every byte but SHARE_BLOCKS and BACKED_BLOCKS (R148, R156). -/
def recordLine (pa : Nat) (bs : List Byte) : BookLine :=
  { check := false, addr := pa, bytes := bs
    mask := (List.range 64).map (fun j => decide (j < 0x16) || decide (0x1C ≤ j)) }

/-- What a test of a candidate answers. -/
inductive Probe where
  /-- left out of the plan, waiting -/
  | out
  /-- ended; `own` says that the record is the request's own (R145) -/
  | ends (code : Nat) (own : Bool)
  /-- fit for the plan as far as tested: the record, and the stream entry where there is one -/
  | fit (recPa : Nat) (record : List Byte) (strPa : Nat) (stream : List Byte)
  deriving DecidableEq, Repr

/-- Whether another partition's step holds a request on a record (R146). -/
def otherStep (s : State) (p : Nat) (test : Operation → Bool) : Bool :=
  s.ops.any (fun (o : Operation) => o.inStep == some (1 - p) && test o)

/-- The tests of R129 on a candidate's stream entry, the record's being passed. -/
def probeStream (s : State) (p : Nat) (o : Operation) (recPa : Nat) (record : List Byte) (streams : List Nat) :
    Probe × State :=
  let x := s.partImage p
  if !x.hasStreams then (.fit recPa record 0 [], s)
  else
    match s.ctxRec o.ctx with
    | none => (.ends Code.TIL_E_STREAM true, s)
    | some r =>
      let i := o.desc.streamIndex
      if x.tableEntries ≤ i ∨ r.streamEntries ≤ i then (.ends Code.TIL_E_STREAM true, s)
      else
        match reach s o.ctx (r.streamVa + 32 * i) true with
        | (.no c, t) => (.ends c true, t.report (opErr o c 1))
        | (.wait, t) => (.out, t)
        | (.pa pa _, t) =>
          let bs := t.mread pa 32
          match streamBad x (parseStream bs) with
          | some c => (.ends c true, t)
          | none =>
            if streams.contains pa then (.ends Code.TIL_E_STREAM true, t)
            else if otherStep t p (fun y => y.ctx == o.ctx && y.desc.streamIndex == i) then (.out, t)
            else (.fit recPa record pa bs, t)

/-- The tests of R145 on a candidate's record, then those of R129. `recs` and `streams` are claimed by earlier
candidates; `rows` is the least number of positions the step would commit. The answer names the record claimed. -/
def probe (s : State) (p : Nat) (o : Operation) (rows : Nat) (recs streams : List Nat) : Probe × Option Nat × State :=
  if !seqIndexOk s o.ctx o.desc.seqIndex then (.ends Code.TIL_E_SEQ false, none, s)
  else
    match reach s o.ctx (seqVa s o.ctx o.desc.seqIndex) true with
    | (.no c, t) => (.ends c false, none, t.report (opErr o c 1))
    | (.wait, t) => (.out, none, t)
    | (.pa pa _, t) =>
      let bs := t.mread pa 64
      let r := parseSeq bs
      match seqBad (geo t o.ctx) r with
      | some c => (.ends c false, none, t)
      | none =>
        if recs.contains pa then (.ends Code.TIL_E_SEQ false, none, t)
        else if r.attaching then (.out, some pa, t)
        else if decide (r.limit < r.length + rows) then (.ends Code.TIL_E_SEQ_LIMIT true, some pa, t)
        else if otherStep t p (fun y => y.seqPa == some pa) then (.out, some pa, t)
        else
          let q := probeStream t p o pa bs streams
          (q.1, some pa, q.2)

/-! Forming the plan. -/

/-- What the kernels of a step read beside a request's own pages, by addresses in their pages (R269): the context's tables;
the tier-2 and tier-3 inputs and the token staging line; and the operations whose prologue meets an uncorrectable line, in
a walk or (`true`) in a booking (R271). -/
structure Needs where
  tables : List Nat := []
  inputs : List Nat := []
  bad    : List (Nat × Bool) := []
  deriving DecidableEq, Repr

/-- What the prologue has so far: the plan, the records and stream entries claimed, the chunk candidates, and the requests
whose records have been read. -/
structure Forming where
  s       : State
  need    : Needs := {}
  plan    : List Slot := []
  recs    : List Nat := []
  streams : List Nat := []
  chunks  : List Slot := []
  potential : Nat := 0
  seen    : List Nat := []
  deriving DecidableEq, Repr

/-- End a candidate that the prologue ends (R145, R160). -/
def endCandidate (s : State) (id code : Nat) (own : Bool) : State :=
  match s.op id with
  | some o => if own then endRequest s o code else endNoRecord s o code
  | none => s

/-- Enter pin entries, the new ones last; none where the partition's table has no room. -/
def enterPins (s : State) (p ctx : Nat) (vas : List Nat) (new : List Pin) : Option State :=
  match pinRoom { s.part p with pins := touchPins ctx vas (s.part p).pins } new with
  | none => none
  | some all => some ((s.updPart p (fun y => { y with pins := all })).add Reg.XLT_PINS new.length)

/-- Pin the pages of a list in each of its kinds; where a walk must wait, what has been made stays (R269). -/
def pinKinds (p ctx : Nat) : List (PinKind × Bool × List Nat) → State → List Pin → Work × List Pin × State
  | [], s, got => (.done, got, s)
  | (k, w, vas) :: rest, s, got =>
    match pinPages s p ctx k w vas got with
    | (.done, got, s) => pinKinds p ctx rest s got
    | x => x

/-- The pages a slot needs, by kind (R269): the range pages, the context's tables, and for this step alone the sequence
record, the stream entry with both halves of the state region, the inputs and the staging line. -/
def slotPages (s : State) (p : Nat) (o : Operation) (x : Slot) (last : Nat) (need : Needs) :
    List (PinKind × Bool × List Nat) :=
  let r := parseSeq x.record
  let stream := (match s.ctxRec o.ctx with | some c => c.streamVa | none => 0) + 32 * o.desc.streamIndex
  [(.range, false, rangePages (geo s o.ctx) r.base last), (.table, false, need.tables),
   (.step, true, piecesOf (seqVa s o.ctx o.desc.seqIndex) 64 ++
      (if x.stream.isEmpty then [] else
        piecesOf stream 32 ++ piecesOf (parseStream x.stream).stateVa (2 * (s.partImage p).halfBytes))),
   (.step, false, need.inputs)]

/-- Back, pin and watch what a slot of `rows` positions needs. Whether it enters the plan, its last position being
`last`. Entries made for a slot that must wait are kept, those for the step alone apart (R269, R270). -/
def prepareSlot (need : Needs) (s : State) (p : Nat) (o : Operation) (x : Slot) (rows : Nat) : Bool × State :=
  let r := parseSeq x.record
  let last := r.length + rows - 1
  match need.bad.find? (fun e => e.1 == o.id) with
  | some e =>
    let s := if e.2 then uncorrBook s else s.inc Reg.MEM_DRAM_UNCORR
    (false, endCandidate (s.report (opErr o Code.XLT_E_UNCORR 1)) o.id Code.XLT_E_UNCORR true)
  | none =>
    if r.length / 64 < r.share then
      let b := r.length / 64
      (false, s.updOp o.id (fun y => { y with copyBlock := some b, copied := if y.copyBlock = some b then y.copied else 0 }))
    else
      match backTo o.ctx x.recPa last (last / 64 + 2) 0 s with
      | (.fail c, got, t) =>
        let t := t.updOp o.id (fun y => { y with taken := y.taken + got })
        (false, endCandidate (t.report (opErr o c 1)) o.id c true)
      | (.wait, got, t) => (false, t.updOp o.id (fun y => { y with taken := y.taken + got }))
      | (.done, got, t) =>
        let t := t.updOp o.id (fun y => { y with taken := y.taken + got })
        let pages := slotPages t p o x last need
        let vas := (pages.map (fun q => q.2.2)).flatten
        match pinKinds p o.ctx pages t [] with
        | (.fail c, _, t) => (false, endCandidate (t.report (opErr o c 1)) o.id c true)
        | (.wait, pins, t) => (false, (enterPins t p o.ctx vas (pins.filter (fun q => q.kind != .step))).getD t)
        | (.done, pins, t) =>
          let ws := (recordLine x.recPa x.record :: (writeLines x.strPa x.stream)).map (watchOf o.id)
          if 2048 < watchLines ((t.part p).watches ++ ws) then
            (false, (enterPins t p o.ctx vas (pins.filter (fun q => q.kind != .step))).getD t)
          else
            match enterPins t p o.ctx vas pins with
            | none => (false, t)
            | some t => (true, t.updPart p (fun y => { y with watches := y.watches ++ ws }))

/-- Put a prepared slot into the plan; its request is in the step. -/
def enterPlan (f : Forming) (s : State) (p : Nat) (x : Slot) : Forming :=
  { f with
    s := s.updOp x.op (fun y => { y with inStep := some p }), plan := f.plan ++ [x] }

/-- Whether one more row of a bucket keeps within its row groups. -/
def bucketFits (s : State) (p : Nat) (plan : List Slot) (x : Slot) : Bool :=
  decide (bucketGroups (plan ++ [x]) x.bucket ≤ bucketBound s p x.bucket)

/-- One candidate, in serving order. Decode rows are placed at once, `limit` at most; chunk candidates are collected
until their positions could fill `cap` rows. -/
def considerOne (p limit cap : Nat) (f : Forming) (o0 : Operation) : Forming :=
  match f.s.op o0.id with
  | none => f
  | some o =>
    let dec := o.phase == .decode
    if (dec && decide (limit ≤ decodeRows f.plan)) || (!dec && decide (cap ≤ f.potential)) then f
    else
      let f := { f with seen := f.seen ++ [o.id] }
      let want := if dec then 1 else minNat o.unfilled cap
      let q := probe f.s p o (minNat want 64) f.recs f.streams
      let recs := match q.2.1 with | some pa => f.recs ++ [pa] | none => f.recs
      let s := match q.2.1 with
        | some pa => q.2.2.updOp o.id (fun y => { y with seqPa := some pa })
        | none => q.2.2
      match q.1 with
      | .out => { f with s := s, recs := recs }
      | .ends c own => { f with s := endCandidate s o.id c own, recs := recs }
      | .fit pa bs spa st =>
        let len := (parseSeq bs).length
        let streams := if st.isEmpty then f.streams else f.streams ++ [spa]
        let x : Slot :=
          { op := o.id, decode := dec, bucket := bucketOf (len + 1), record := bs, recPa := pa, stream := st, strPa := spa }
        let s := s.updOp o.id (fun y => { y with length := len })
        let f := { f with s := s, recs := recs, streams := streams }
        if dec then
          if ringFull o || !bucketFits s p f.plan x then f
          else
            let r := prepareSlot f.need s p o x 1
            if r.1 then enterPlan f r.2 p x else { f with s := r.2 }
        else { f with chunks := f.chunks ++ [{ x with chunk := want, chunkPos := len }], potential := f.potential + (want + 63) / 64 * 64 }

/-- A chunk as its bucket takes it (R142): in a combined partition the row groups that still fit, in a prefill partition all
of it or nothing. -/
def chunkFit (s : State) (p : Nat) (plan : List Slot) (x : Slot) : Option Slot :=
  let n := ceilDiv x.chunk 64
  let cut (k : Nat) : Slot :=
    let rows := minNat x.chunk (64 * (n - k))
    { x with chunk := rows, bucket := bucketOf (x.chunkPos + rows) }
  ((List.range (if (s.part p).role = 1 then 1 else n)).map cut).find? (bucketFits s p plan)

/-- Rows that the chunks of a plan leave of `cap`, in whole row groups. -/
def chunkLeft (cap : Nat) (plan : List Slot) : Nat :=
  (cap - 64 * sumNat (plan.map (fun x => ceilDiv x.chunk 64))) / 64 * 64

/-- One chunk candidate, after the decode rows: whole row groups of what is left of `cap` rows (R305). -/
def chunkOne (p cap : Nat) (f : Forming) (x0 : Slot) : Forming :=
  match f.s.op x0.op with
  | none => f
  | some o =>
    let rows := minNat x0.chunk (chunkLeft cap f.plan)
    let x := { x0 with chunk := rows, bucket := bucketOf (x0.chunkPos + rows) }
    if rows = 0 then f
    else if decide ((parseSeq x.record).limit < x.chunkPos + rows) then
      { f with s := endCandidate f.s o.id Code.TIL_E_SEQ_LIMIT true }
    else
      match chunkFit f.s p f.plan x with
      | none => f
      | some y =>
        let r := prepareSlot f.need f.s p o y y.chunk
        if r.1 then enterPlan f r.2 p y else { f with s := r.2 }

/-- A candidate in prefill whose record no earlier pass read: taken where an earlier one left row groups free (R305). -/
def laterChunk (p cap : Nat) (f : Forming) (o : Operation) : Forming :=
  if f.seen.contains o.id || chunkLeft cap f.plan == 0 then f
  else
    let g := considerOne p 0 cap { f with chunks := [], potential := 0 } o
    g.chunks.foldl (chunkOne p cap) g

/-- The requests that a partition serves: those in decode with ROLE 0 or 2, those in prefill with ROLE 0 or 1. -/
def serves (role : Nat) (o : Operation) : Bool :=
  o.inStep.isNone && o.spanStep.isNone && ((o.phase == .decode && role != 1) || (o.phase == .prefill && role != 2))

/-- The candidates of a partition's next step, in serving order (R303). -/
def candidates (s : State) (p : Nat) : List Operation :=
  (admittedOps s (s.part p).ctx).filter (serves (s.part p).role)

/-- Rows that decode may take (R304). -/
def decodeLimit (s : State) (p : Nat) : Nat :=
  let d := (s.partImage p).desc
  if (s.part p).role = 0 && (admittedOps s (s.part p).ctx).any (fun o => o.phase == .prefill || o.phase == .attaching) then
    d.maxRows - 64 * s.rd (Reg.SRV_P_CFG_CHUNK_RESERVE p)
  else d.maxRows

/-- Form the plan of a step (R269, R304, R305). Request slots are numbered with the decode rows first (R93). -/
def formPlan (need : Needs) (s : State) (p : Nat) : Forming :=
  let d := (s.partImage p).desc
  let cap0 := if (s.part p).role = 1 then d.chunkTokens else minNat d.chunkTokens d.maxRows
  let f := (candidates s p).foldl (considerOne p (decodeLimit s p) cap0) { s := s, need := need }
  let cap := if (s.part p).role = 1 then d.chunkTokens
    else minNat d.chunkTokens (d.maxRows - 64 * ceilDiv (decodeRows f.plan) 64)
  (candidates s p).foldl (laterChunk p cap) (f.chunks.foldl (chunkOne p cap) f)

/-! A later stage of a span (R347, R348). -/

/-- The operation that stands for a request at a later stage, by its sequence: it has no record of its own here. -/
def spanOp (s : State) (ctx : Nat) (r : SpanRow) : Operation × State :=
  let phase := if r.decode then OpPhase.decode else OpPhase.prefill
  match s.ops.find? (fun (o : Operation) => o.ctx == ctx && o.noRecord && o.desc.seqIndex == r.seq && o.phase != .ending) with
  | some o => ({ o with phase := phase }, s.updOp o.id (fun y => { y with phase := phase }))
  | none =>
    let o : Operation := { id := s.nextOp, rq := 0xFFFF, ctx := ctx, cq := 0xFFFF, ringKc := s.timeKc
                           desc := { opcode := 1, seqIndex := r.seq, streamIndex := r.stream, maxTokens := 0xFFFFFFFF }
                           phase := phase, order := s.nextAdmit, noRecord := true, standIn := true }
    (o, { s with ops := s.ops ++ [o], nextOp := s.nextOp + 1, nextAdmit := s.nextAdmit + 1 })

/-- What a later stage has of its plan: the plan so far, the message slots of its rows, and the codes of the slots. -/
structure Adopting where
  f     : Forming
  slots : List Nat := []
  codes : List Nat := []
  deriving DecidableEq, Repr

/-- One row of a STEP message: computed where it can be, else ended with CHN_E_SPAN_WAIT or the code of the refusal. -/
def adoptRow (p : Nat) (rows : List SpanRow) (a : Adopting) (i : Nat) : Adopting :=
  let r := rows.getD i {}
  if a.codes.getD i 0 != 0 then a
  else
    let q := spanOp a.f.s (a.f.s.part p).ctx r
    let o := q.1
    let n := if r.decode then 1 else r.chunk
    let b := probe q.2 p o (minNat n 64) a.f.recs a.f.streams
    let recs := match b.2.1 with | some pa => a.f.recs ++ [pa] | none => a.f.recs
    let s := match b.2.1 with
      | some pa => b.2.2.updOp o.id (fun y => { y with seqPa := some pa })
      | none => b.2.2
    match b.1 with
    | .out => { a with f := { a.f with s := s, recs := recs }, codes := a.codes.set i Code.CHN_E_SPAN_WAIT }
    | .ends c own => { a with
        f := { a.f with s := endCandidate s o.id c own, recs := recs }, codes := a.codes.set i c }
    | .fit pa bs spa st =>
      let len := (parseSeq bs).length
      let x : Slot :=
        { op := o.id, decode := r.decode, chunk := if r.decode then 0 else r.chunk, chunkPos := len
          bucket := bucketOf (len + n), record := bs, recPa := pa, stream := st, strPa := spa }
      let f := { a.f with s := s, recs := recs, streams := if st.isEmpty then a.f.streams else a.f.streams ++ [spa] }
      let w := prepareSlot f.need f.s p o x n
      if w.1 then { a with f := enterPlan f w.2 p x, slots := a.slots ++ [i] }
      else
        let c := match (w.2.op o.id) with
          | some y => (match y.endCode with | some c => c | none => Code.CHN_E_SPAN_WAIT)
          | none => Code.CHN_E_SPAN_WAIT
        { a with f := { f with s := w.2 }, codes := a.codes.set i c }

/-- A later stage adopts the plan of the oldest STEP message (R347). -/
def adoptPlan (need : Needs) (s : State) (p : Nat) : Forming :=
  match (s.span p).steps with
  | [] => { s := s, need := need }
  | m :: rest =>
    let codes := (List.range 256).map (fun i => m.codes.getD i 0)
    let a := (List.range m.rows.length).foldl (adoptRow p m.rows) { f := { s := s, need := need }, codes := codes }
    { a.f with
      s := a.f.s.updSpan p (fun y => { y with steps := rest, cur := some { m with codes := a.codes }, slots := a.slots }) }

/-- Whether every array of a partition is at full duty and no bank is in retention (R87, R252). -/
def ramped (s : State) (p : Nat) : Bool :=
  (s.part p).tiles.all (fun n =>
    let t := s.tile n
    t.arr0.duty == 16 && t.arr1.duty == 16 && !t.retention)

/-- Whether the start of the part has come through the steps that a first step waits for beside the partition's own
activation (R46, R47): every tile started, the Cellar ready, the installed sets checked. -/
def startDone (s : State) : Bool :=
  s.chip.tilesStarted == 32 && s.rd Reg.CEL_STATUS_PHASE == 4 && s.chip.setsChecked

/-- Whether segment 0 could begin but for a bank: at a boundary, at full duty, with nothing pending and a candidate, the
start of the part done (R47). -/
def stepDue (s : State) (p : Nat) : Bool :=
  let x := s.part p
  startDone s && x.stage == .waiting && !x.stall.on && ramped s p && x.pendCtx.isNone && !x.pendStop && x.stopCode == 0 &&
    (spanLater s p || !(candidates s p).isEmpty) && spanReady s p

/-- Whether a bank holds a step back: the first step of a context waits for a busy bank that it reads (R175), and every step
for the program of a forced relocation (R181). -/
def bankHolds (s : State) (p : Nat) : Bool :=
  let banks := banksRead (s.partImage p)
  ((s.part p).fresh && banks.any s.bankBusy) || banks.any (fun b => s.cel.forced.contains b)

/-- Whether segment 0 can begin. -/
def stepReady (s : State) (p : Nat) : Bool := stepDue s p && !bankHolds s p

/-- A wait for a bank ends: its microseconds are counted (R175, R181). -/
def countHold (s : State) (p : Nat) : State :=
  match (s.part p).heldKc with
  | none => s
  | some k => (s.add Reg.CEL_FORCED_WAIT ((s.timeKc - k) / 375)).updPart p (fun y => { y with heldKc := none })

/-- Segment 0 begins (R87, R269). Before a context's first step, its requests whose instant has passed end (R45). -/
def stepStart (need : Needs) (s : State) (p : Nat) : State :=
  if stepReady s p then
    let s := countHold (countWait (if (s.part p).fresh then deadlinePass s (s.part p).ctx else s) p) p
    let s := s.updPart p (fun y => { y with
      stage := .prologue, fresh := false, seg := 0, plan := []
      exempt := otherReason s, stepBeats := s.rd (Reg.ITN_P_STALL_TOTAL p)
      retryBeats := s.rd (Reg.ITN_P_STALL_RETRY p) })
    let s := overList (s.part p).tiles (fun n t => t.updTile n (fun u => { u with
      fillDone := [], arr0 := u.arr0.newGap, arr1 := u.arr1.newGap })) (setTileStates s p 5)
    let f := if spanLater s p then adoptPlan need s p else formPlan need s p
    f.s.updPart p (fun y => { y with plan := f.plan })
  else if stepDue s p then s.updPart p (fun y => { y with heldKc := some (y.heldKc.getD s.timeKc) })
  else s

/-- STEP_START (R269). -/
def execStepStart (p : Nat) (tables inputs : List Nat) (bad : List (Nat × Bool)) (s : State) : Answer :=
  .next (s.engine (fun s => stepStart { tables := tables, inputs := inputs, bad := bad } s p))

/-- The seal beat (R93): the plan closes; deadlines are checked and admission runs (R314, R318). -/
def sealBeat (s : State) (p : Nat) : State :=
  let x := s.part p
  if x.stage == .prologue && !x.stall.on then
    let s := admitWaiting (deadlineAll s) p
    s.updPart p (fun y => { y with stage := .sealed, beat := y.beat + (prologueBeats (s.partImage p) - 16) })
  else s

/-- SEAL_BEAT (R93). -/
def execSealBeat (p : Nat) (s : State) : Answer := .next (s.engine (fun s => sealBeat s p))

/-! The start of segment 1. -/

/-- Bind the thread slots of one kernel: slot `j` of a per-row kernel serves request slot `j` (R89). The arguments are
free values. -/
def bindKernel (free rows base i : Nat) (k : KernelEntry) (m : SMap Thread) : SMap Thread :=
  (List.range k.threads).foldl (fun u j =>
    let args := (List.range 3).map (fun a => Config.freeNat (free + 3 * (base + j) + a))
    let live := !bitOf k.flags 1 || decide (j < rows)
    SMap.set threadBlank u (base + j)
      { kernel := i, row := if bitOf k.flags 1 && live then j else 0xFF, state := if live then 1 else 4
        args := if live then args else [0, 0, 0] }) m

/-- Bind the thread slots of a tile's kernels from directory index `i` on. -/
def bindKernels (free rows : Nat) : Nat → Nat → List KernelEntry → SMap Thread → SMap Thread
  | _, _, [], m => m
  | i, base, k :: rest, m => bindKernels free rows (i + 1) (base + k.threads) rest (bindKernel free rows base i k m)

/-- Thread slots that serve a live row or all rows. -/
def boundThreads (rows : Nat) (l : List KernelEntry) : Nat :=
  sumNat (l.map (fun k => if bitOf k.flags 1 then minNat k.threads rows else k.threads))

/-- Every tile adopts the plan and binds its thread slots. -/
def bindThreads (s : State) (p : Nat) : State :=
  let x := s.partImage p
  let rows := (s.part p).plan.length
  let s := overList (s.part p).tiles (fun n t =>
    let k := (tileKernels x n).getD {}
    let t := t.updTile n (fun u => { u with threads := bindKernels (s.free + 98304 * n) rows 0 0 k.dir u.threads })
    t.wr (Reg.TIL_THREADS_BOUND n) (boundThreads rows k.dir)) s
  { s with free := s.free + 98304 * 32 }

/-- The end of segment 0 (R93, R272): FILLED is set on a tile whose fill entries have completed; a plan with no row ends
the step. -/
def segmentOne (s : State) (p : Nat) : State :=
  let x := s.part p
  if x.stage == .sealed && !x.stall.on then
    let img := s.partImage p
    let s := overList x.tiles (fun n t => t.updTile n (fun u => { u with
      filled := u.filled || (fillEntries img n).all (fun e => u.fillDone.contains e) })) s
    let s := s.updPart p (fun y => { y with beat := y.beat + 16, seg := 1 })
    if x.plan.isEmpty then
      let s := if spanLater s p then spanFree (spanSend s p x.ctx 0 []) p else s
      boundary ((dropWork s p).updPart p (fun y => { y.dropStep with stage := .waiting, seg := 0 })) p
    else bindThreads (s.updPart p (fun y => { y with stage := .body })) p
  else s

/-- SEGMENT_ONE_START (R89, R93). -/
def execSegmentOneStart (p : Nat) (s : State) : Answer := .next (s.engine (fun s => segmentOne s p))

/-! Work for a waiting partition. -/

/-- Work, or a request to stop or switch, reaches a waiting partition (R87): what is pending acts at once; requests that
wait for admission are looked at, and the arrays ramp back up. -/
def workArrives (s : State) (p : Nat) : State :=
  let x := s.part p
  if x.stage == .waiting then
    if x.pendCtx.isSome || x.pendStop || x.stopCode != 0 then boundary s p
    else wake (admitWaiting (deadlinePass s x.ctx) p) p
  else s

/-- WORK_ARRIVES (R87). -/
def execWorkArrives (p : Nat) (s : State) : Answer := .next (s.engine (fun s => workArrives s p))

end Sys2Proof.Machine
end

