-- ==== Sys2Proof/Machine/Scatter.lean ====
section
/-! DEFINITION. The scatter of a step (R38, R39, R133, R156, R160, R291, R318), the bookings it issues and Keeper's
fall-back (R263 to R267), its end, and the measure of a step (R319, R321, R323). A slot without a commit leaves its
record and its stream as they were (R157); ANCHOR_DUE changes nothing else (R137). -/

namespace Sys2Proof.Machine

/-! What a request's booking carries. -/

/-- The token of a decode row: drawn from its logits by R291. `pos` is the row's position. -/
def drawToken (expTab recTab : List Nat) (o : Operation) (pos : Nat) (logits : List Nat) : Nat :=
  sampleToken expTab recTab o.desc.temperature o.desc.topP o.desc.topK o.desc.sampleSeed pos logits

/-- Whether a token is one of a request's stop tokens. -/
def isStop (o : Operation) (token : Nat) : Bool := (o.desc.stopTokens.take o.desc.stopCount).contains token

/-- The positions a slot commits. -/
def Slot.rows (x : Slot) : Nat := if x.decode then 1 else x.chunk

/-- The record a slot writes: its prologue copy with LENGTH advanced, the KV_TAG and the bucket of the next decode row;
RELEASING and END_CODE where the request ends with it (R156, R160). -/
def recordAfter (g : Buckets) (x : Slot) (endCode : Option Nat) : List Byte :=
  let r := parseSeq x.record
  let len := r.length + x.rows
  let bs := recSet (recSet (recSet x.record 8 4 len) 0x14 2 g.kvLayoutTag) 0x12 1 (bucketOf (len + 1))
  match endCode with
  | none => bs
  | some c => recSet (recSet bs 0x10 2 (if bitOf r.flags 1 then r.flags else r.flags + 2)) 0x1C 2 c

/-- The write line of a booking that only ends a request: FLAGS and END_CODE (R160). -/
def endLine (x : Slot) (code : Nat) : BookLine :=
  let r := parseSeq x.record
  { check := false, addr := x.recPa
    bytes := recSet (recSet x.record 0x10 2 (if bitOf r.flags 1 then r.flags else r.flags + 2)) 0x1C 2 code
    mask := (List.range 64).map (fun j => j == 0x10 || j == 0x11 || j == 0x1C || j == 0x1D) }

/-- The stream entry a slot writes (R132, R133), and whether the commit sets ANCHOR_DUE. -/
def streamAfter (img : PartImage) (x : Slot) : List Byte × Bool :=
  let r := parseStream x.stream
  let p0 := (parseSeq x.record).length
  let p1 := p0 + x.rows - 1
  let mark := bitOf r.flags 1 && decide (r.resetPos ≤ p1)
  let step := if mark then p1 - r.resetPos + 1 else minNat (r.step + x.rows) 0xFFFFFFFF
  let due := r.anchorN != 0 && decide (r.anchorN ≤ step)
  let flags := b2n (bitOf r.flags 0) + 2 * b2n (bitOf r.flags 1 && !mark) + 4 * b2n (!bitOf r.flags 2) +
    8 * b2n (bitOf r.flags 3 || due) + 16 * b2n (streamsFp32 img)
  (recSet (recSet (recSet x.stream 8 1 flags) 10 2 img.stateTag) 24 4 step, due)

/-- What the scatter decides for a slot: the lines of its booking, the token, the code that ends the request. -/
structure Outcome where
  lines : List BookLine
  token : Option Nat := none
  ends  : Option Nat := none
  late  : Bool := false
  deriving DecidableEq, Repr

/-- The booking of a slot at a K-cycle (R38, R160, R318): a fault, a deadline or a stop leaves only the request's end. -/
def slotOutcome (s : State) (p : Nat) (o : Operation) (x : Slot) (token : Nat) : Outcome :=
  let early := match x.fault with
    | some c => some c
    | none =>
      if spanHead s p && x.decode then o.stop.bind (fun t => if t.2 == Code.CHN_E_SPAN then some t.2 else none)
      else stopCodeAt o s.timeKc
  match early with
  | some c => { lines := [endLine x c], ends := some c, late := c == Code.SRV_E_DEADLINE }
  | none =>
    let img := s.partImage p
    let ends := if x.decode && draws s p && !(s.span p).running && (isStop o token || decide (o.desc.maxTokens ≤ o.committed + 1)) then some 0 else none
    let str := if x.stream.isEmpty then [] else writeLines x.strPa (streamAfter img x).1
    { lines := recordLine x.recPa (recordAfter (geo s o.ctx) x ends) :: str
      token := if x.decode && draws s p then some token else none, ends := ends }

/-! The scatter begins. -/

/-- Issue the booking of one request slot; the operation remembers how it ends. -/
def scatterSlot (p : Nat) (logits : List (List Nat)) (expTab recTab : List Nat) (s : State) (i : Nat) : State :=
  match (s.part p).plan[i]? with
  | none => s
  | some x =>
    match s.op x.op with
    | none => s
    | some o =>
      let token := if x.decode then drawToken expTab recTab o (parseSeq x.record).length (logits.getD i []) else 0
      let r := slotOutcome s p o x token
      let b : Booking := { id := s.nextBooking, owner := o.id, lines := r.lines }
      let s := if r.late then countDeadline s o Code.SRV_E_DEADLINE else s
      let s := { s with nextBooking := s.nextBooking + 1 }
      let s := s.updOp o.id (fun y => { y with endCode := r.ends })
      s.updPart p (fun y => { y with
        bookings := y.bookings ++ [b]
        plan := y.plan.set i { x with token := r.token } })

/-- What a span's stage does once its slots are decided (R347, R348): it sends STEP or TOKENS; at stage 0 the decode rows
wait for the TOKENS of the step. -/
def spanScatter (s : State) (p : Nat) : State :=
  if !(s.span p).running then s
  else
    let plan := (s.part p).plan
    let out := plan.map (fun x =>
      let e := match s.op x.op with | some o => o.endCode.getD 0 | none => 0
      (x.token.getD 0, e))
    let n := spanStepNo s p
    let s := spanSend s p (s.part p).ctx plan.length out
    if spanHead s p then
      let ids := plan.map (fun x => x.op)
      let s := overList (plan.filter (·.decode)) (fun x t => t.updOp x.op (fun y => { y with spanStep := some n })) s
      s.updSpan p (fun y => { y with stepNo := y.stepNo + 1, awaited := y.awaited ++ [(n, ids)] })
    else s

/-- The scatter segment begins (R38, R39). -/
def scatterBegin (s : State) (p : Nat) (logits : List (List Nat)) (expTab recTab : List Nat) : State :=
  let x := s.part p
  if x.stage == .body && !x.stall.on then
    let img := s.partImage p
    let s := s.updPart p (fun y => { y with
      stage := .scatter, seg := img.segs.length - 1, beat := y.beat + bodyBeats img y.plan })
    spanScatter ((List.range x.plan.length).foldl (scatterSlot p logits expTab recTab) s) p
  else s

/-! Bookings. -/

/-- Drop an operation's watches of a partition. -/
def dropWatches (s : State) (p owner : Nat) : State :=
  s.updPart p (fun y => { y with watches := y.watches.filter (fun w => w.owner != owner) })

/-- Take a booking out of a partition's list. -/
def dropBooking (s : State) (p id : Nat) : State :=
  s.updPart p (fun y => { y with bookings := y.bookings.filter (fun b => b.id != id) })

/-- What a committed slot changes of its request (R38, R133, R156, R292): its length, its token, its phase, its end, and
ANCHOR_DUE as the commit leaves it (R137, R294). -/
def slotCommitted (s : State) (p : Nat) (x : Slot) : State :=
  match s.op x.op with
  | none => s
  | some o =>
    match x.token, o.endCode with
    | none, some c =>
      let o := { o with seqPa := some x.recPa }
      endOp (pushRelease s o x.recPa) o.id c
    | token, ends =>
      let us := (s.timeKc - o.ringKc) / 375
      let o := { o with
        length := (parseSeq x.record).length + x.rows
        committed := o.committed + (if x.token.isSome then 1 else 0)
        firstUs := if x.token.isSome && o.firstUs.isNone then some us else o.firstUs
        prefillPos := o.prefillPos + x.chunk
        anchorDue := if x.stream.isEmpty then o.anchorDue else bitOf (parseStream (streamAfter (s.partImage p) x).1).flags 3
        stopHit := o.stopHit || (x.token.map (isStop o)).getD false }
      let done := !x.decode && o.unfilled == 0
      let o := { o with
        phase := if done then .decode else o.phase, prefillKc := if done then s.timeKc else o.prefillKc }
      let s := s.updOp o.id (fun _ => o)
      let s := match token with
        | some t => if o.noRecord then s else stageToken s o.id t ((parseSeq x.record).length + 1)
        | none => s
      match ends with
      | some c => endOp (pushRelease s o x.recPa) o.id c
      | none => s

/-- The booking stall of a partition ends once no booking asks for it: none under fall-back, and none left of a scatter
that overran. -/
def settleBookingStall (s : State) (p : Nat) : State :=
  let x := s.part p
  if x.stall.booking && x.bookings.all (fun b => decide (b.aborts < 8)) && (x.bookings.isEmpty || !x.stall.seen.contains 4) then
    stallClear s p .booking
  else s

/-- A booking of a scatter commits (R263). -/
def commitBooking (s : State) (p : Nat) (b : Booking) : State :=
  let s := commitLines s b.owner b.lines b.refs
  let s := dropWatches (dropBooking s p b.id) p b.owner
  let s := match (s.part p).plan.find? (fun x => x.op == b.owner) with
    | some x => slotCommitted s p x
    | none => s
  settleBookingStall s p

/-- A booking that ends its slot instead of committing (R39, R263): on a refusal under R261 or an uncorrectable DRAM line,
which is counted (R234). -/
def faultBooking (s : State) (p : Nat) (b : Booking) (code : Nat) : State :=
  let s := if code = Code.XLT_E_UNCORR then s.inc Reg.MEM_DRAM_UNCORR else s
  let s := dropWatches (dropBooking (bookFault s) p b.id) p b.owner
  let s := match s.op b.owner with
    | some o => endRequest (s.report (opErr o code 1)) o code
    | none => s
  settleBookingStall s p

/-- Make an issuer's watches clean. -/
def cleanWatches (s : State) (p owner : Nat) : State :=
  s.updPart p (fun y => { y with
    watches := y.watches.map (fun w => if w.owner == owner then { w with dirty := false } else w) })

/-- The bytes of a line that a mask names. -/
def maskBytes (addr : Nat) (mask : List Bool) : List (Nat × Nat) :=
  ((List.range 64).filter (fun j => mask.getD j false)).map (fun j => (addr + j, 1))

/-- The byte ranges a booking holds under fall-back: its written bytes and its issuer's watched bytes (R265). -/
def holdOf (ws : List Watch) (b : Booking) : List (Nat × Nat) :=
  b.lines.flatMap (fun l => maskBytes l.addr l.mask) ++
  (ws.filter (fun w => w.owner == b.owner)).flatMap (fun w => maskBytes w.addr w.mask)

/-- Whether a booking meets a conflict: a watch of its issuer on its bytes is dirty (R263). -/
def conflicts (ws : List Watch) (b : Booking) : Bool :=
  ws.any (fun w => w.owner == b.owner && w.dirty && b.lines.any w.meets)

/-- A booking aborts on a conflict: its watches are made clean and it is issued again; the eighth abort passes it to
Keeper (R263, R265). The step is exempt (R323). -/
def abortBooking (s : State) (p : Nat) (b : Booking) : State :=
  let s := cleanWatches (s.inc Reg.MEM_BKG_AB_CONFLICT) p b.owner
  let s := s.updPart p (fun y => { y with
    exempt := true
    bookings := y.bookings.map (fun c => if c.id == b.id then { c with aborts := c.aborts + 1, issued := true } else c) })
  if b.aborts + 1 = 8 then
    let s := { s with holdRanges := s.holdRanges ++ holdOf (s.part p).watches b }
    let s := (s.inc Reg.MEM_BKG_FALLBACK).report { errOf Code.MEM_E_BOOK_FALLBACK 0 with partition := p }
    stallAssert s p .booking
  else s

/-- Whether a stall keeps a booking from its issue (R44): one of another cause, or a fall-back in progress. A scatter that
overran (R266) issues what it has left. -/
def issueHeld (x : Part) (b : Booking) : Bool :=
  !b.issued && (x.stall.retry || x.stall.droop || x.stall.clock || x.bookings.any (fun c => decide (8 ≤ c.aborts)))

/-- The memory hub takes up booking `i` of a partition's scatter, counted in slot order among those open; 96 are in
flight (R263, R264). A booking of more than 64 lines is refused (R261); one whose bytes are held waits (R265). One
with a check line that differs is returned to the control core, which has it open still; no scatter booking has one (R38). -/
def bookingIssue (s : State) (p i : Nat) (fault : Bool) : State :=
  let x := s.part p
  if x.stage == .scatter && decide (i < 96) then
    match x.bookings[i]? with
    | none => s
    | some b =>
      if 8 ≤ b.aborts ∨ issueHeld x b then s
      else if 64 < bookSize b.lines b.refs then faultBooking s p b Code.MEM_E_BOOK_SIZE
      else if fault then faultBooking s p b Code.XLT_E_UNCORR
      else if conflicts x.watches b then abortBooking s p b
      else if b.lines.any (lineHeld s) then s
      else if !checksOk s b.lines then s.inc Reg.MEM_BKG_AB_CHECK
      else commitBooking s p b
  else s

/-- BOOKING_ISSUE (R39, R263). -/
def execBookingIssue (p index : Nat) (fault : Bool) (s : State) : Answer :=
  .next (s.engine (fun s => bookingIssue s p index fault))

/-- Keeper commits the first booking under fall-back and releases its hold (R265). -/
def bookingFallback (s : State) (p : Nat) : State :=
  match (s.part p).bookings.find? (fun b => decide (8 ≤ b.aborts)) with
  | none => s
  | some b =>
    let s := { s with holdRanges := s.holdRanges.filter (fun r => !(holdOf (s.part p).watches b).contains r) }
    unhold (commitBooking s p b)

/-- BOOKING_FALLBACK (R265). -/
def execBookingFallback (p : Nat) (s : State) : Answer := .next (s.engine (fun s => bookingFallback s p))

/-- BOOKING_BUFFER_PARITY (R267). -/
def execBookingBufferParity (s : State) : Answer :=
  .next (s.engine (fun s => s.enterSafe (errOf Code.MEM_E_BOOK_PARITY 4)))

/-- The last beat of the scatter segment ends with bookings open (R266). -/
def scatterOverrun (s : State) (p : Nat) : State :=
  let x := s.part p
  if x.stage == .scatter && !x.bookings.isEmpty then
    let s := stallAssert s p .booking
    s.updPart p (fun y => { y with
      stall := { y.stall with seen := if y.stall.seen.contains 4 then y.stall.seen else y.stall.seen ++ [4] } })
  else s

/-- SCATTER_OVERRUN (R266). -/
def execScatterOverrun (p : Nat) (s : State) : Answer := .next (s.engine (fun s => scatterOverrun s p))

/-! Gaps (R84, R85). -/

/-- One run of a class-0 entry in a step: the entry's index, the repeat of its segment, its first beat counted from the
start of the step, its length. -/
structure PassSpan where
  entry : Nat
  rep   : Nat
  start : Nat
  len   : Nat
  deriving DecidableEq, Repr

/-- The class-0 entries of array `arr` in one run of segment `g`. -/
def spansIn (img : PartImage) (arr g rep base : Nat) : List PassSpan :=
  (List.range img.entries.length).filterMap (fun i =>
    match img.entries[i]? with
    | some e => if e.seg == g && e.cls == 0 && e.index == arr then some ⟨i, rep, base + e.start, e.len⟩ else none
    | none => none)

/-- The passes of an array in a step from segment `g` on, which begins at beat `base`; the beat at which the step ends. -/
def spansFrom (img : PartImage) (plan : List Slot) (arr : Nat) : Nat → Nat → List Segment → List PassSpan × Nat
  | _, base, [] => ([], base)
  | g, base, x :: rest =>
    let n := repeatOf plan x
    let here := ((List.range n).map (fun k => spansIn img arr g k (base + k * x.lenBeats))).flatten
    let r := spansFrom img plan arr (g + 1) (base + n * x.lenBeats) rest
    (here ++ r.1, r.2)

/-- The beats of the gap that follows the pass `last` of an array, or that opens the step (log entry 108). -/
def gapBeats (img : PartImage) (plan : List Slot) (arr : Nat) (last : Option (Nat × Nat)) : Nat :=
  let r := spansFrom img plan arr 0 0 img.segs
  let ends := match last with
    | none => 0
    | some q => match r.1.find? (fun x => x.entry == q.1 && x.rep == q.2) with
      | some x => x.start + x.len
      | none => 0
  let next := match r.1.find? (fun x => decide (ends ≤ x.start)) with
    | some x => x.start
    | none => r.2
  next - ends

/-- The ramp steps D of a gap of `t` T-cycles at a divider: min(16, ⌊(t − 3,000) × d / 12,000⌋), a T-cycle being d / 6 ns. -/
def gapSteps (d t : Nat) : Nat := minNat 16 ((t - 3000) * d / 12000)

/-- The gap of an array in the step in progress, in T-cycles. -/
def gapNow (s : State) (p n a : Nat) : Nat :=
  64 * gapBeats (s.partImage p) (s.part p).plan (2 * n + a) ((s.tile n).arr a).last

/-- A gap of an array ends: its ramps have made D steps down and D up, and its filler and gated time are counted (R85). -/
def closeGap (s : State) (p n a : Nat) (last : Option (Nat × Nat)) : State :=
  let d := s.rd (Reg.ITN_P_STATUS_DIVIDER p)
  let t := gapNow s p n a
  let k := gapSteps d t
  let x := (s.tile n).arr a
  let s := s.add (Reg.TIL_ARR_RAMP n a) (2 * k - (x.gapDown + x.gapUp))
  let s := countIdle s n a d t (if k = 0 then 0 else t - (3000 + 2 * k * rampT d))
  s.updTile n (fun u => u.updArr a (fun y => { y with duty := 16, last := last, gapDown := 0, gapUp := 0 }))

/-- The last gap of a step ends with the step in every array. -/
def closeGaps (s : State) (p : Nat) : State :=
  overList (s.part p).tiles (fun n t => closeGap (closeGap t p n 0 none) p n 1 none) s

/-! The measure of a step. -/

/-- Bytes of a block of a set as stored (R122, R189). -/
def storedBytes (r : SetRec) (j : Nat) : Nat :=
  if bitOf (r.index.getD j 0) 63 then 2240
  else if r.form = 0 then 2240 else if r.form = 1 then 4288 else if r.form = 2 then 640 else 1152

/-- Weights and stored bytes that a partition's arrays read in a step (R319): a delta set's blocks, and their base
blocks. -/
def stepWeights (s : State) (p : Nat) : Nat × Nat :=
  let x := s.part p
  match s.image x.slot with
  | none => (0, 0)
  | some im =>
    match im.layouts.find? (fun e => e.partition == p) with
    | none => (0, 0)
    | some e =>
      let r := match x.wset with | some n => s.set n | none => {}
      let base := if e.form < 2 then 0 else 2240
      e.arrays.foldl (fun q a =>
        (q.1 + 4096 * a.2, q.2 + sumNat ((List.range a.2).map (fun j => storedBytes r (a.1 + j) + base)))) (0, 0)

/-- KV_seq of a committed length (R155). -/
def kvSeq (g : Buckets) (bits len : Nat) : Nat :=
  let slabs := g.attLayers * g.kvHeads * 2 * g.headGroups
  let c := 8 * bits
  let r := len % 64
  len / 64 * 64 * (slabs * (c + 2)) + (if r = 0 then 0 else slabs * 64 * (ceilDiv (r * c) 64 + ceilDiv (2 * r) 64))

/-- KV_bytes of a plan (R155, R319). -/
def planKv (g : Buckets) (bits : Nat) (plan : List Slot) : Nat :=
  sumNat (plan.map (fun x => kvSeq g bits (parseSeq x.record).length * (if x.decode then 1 else ceilDiv x.chunk 64)))

/-- Four times k of R319, by the mode of the partition's first array pass. -/
def rate4 (x : PartImage) : Nat :=
  match x.entries.find? (fun e => e.cls == 0) with
  | none => 4
  | some e =>
    match kernelOf x (e.index / 2) e.opRef with
    | some k => if k.mode = 1 then 8 else if k.mode < 4 then 4 else 1
    | none => 4

/-- T_step in beats, rounded up (R319); it does not depend on the divider. -/
def stepFormula (s : State) (p : Nat) (plan : List Slot) : Nat :=
  let x := s.partImage p
  let d := x.desc
  let w := stepWeights s p
  let kv := planKv (geo s (s.part p).ctx) x.kvBits plan
  let mac := 2 * w.1 * 64 * rowGroups plan
  let arrays := 2 * (maskTiles d.tileMask).length
  d.tFix + maxNat (ceilDiv (w.2 * 1500) (64 * d.bCel))
    (maxNat (ceilDiv (kv * 1500) (64 * d.bDram)) (ceilDiv (mac * 4) (arrays * 8192 * 64 * rate4 x))) + d.tScatter

/-- Measure a step that has completed (R321, R323). -/
def measureStep (s : State) (p : Nat) : State :=
  let x := s.part p
  let img := s.partImage p
  if x.exempt then s.inc (Reg.SRV_P_EXEMPT p)
  else
    let sched := prologueBeats img + bodyBeats img x.plan + img.desc.tScatter
    let stall := s.rd (Reg.ITN_P_STALL_TOTAL p) - x.stepBeats
    let beats := sched + stall - (s.rd (Reg.ITN_P_STALL_RETRY p) - x.retryBeats)
    let f := stepFormula s p x.plan
    let s := s.wrs [(Reg.SRV_P_LAST_BEATS_BEATS p, beats), (Reg.SRV_P_LAST_FORMULA_BEATS p, f)]
    if 104 * f < 100 * beats then (s.inc (Reg.SRV_P_OVER p)).raiseSrv Reg.SRV_IRQ_STATUS_OVER else s

/-- The scatter ends: the step counts, what it held goes, and the boundary follows (R72, R270). -/
def scatterComplete (s : State) (p : Nat) : State :=
  let x := s.part p
  if x.stage == .scatter && x.bookings.isEmpty && !x.stall.on then
    let s := measureStep ((s.trace 0 0 [p, x.plan.length, 0, 0]).inc (Reg.ITN_P_STEPS p)) p
    let s := { s with
      ops := s.ops.map (fun (o : Operation) => if o.inStep == some p then { o with inStep := none } else o) }
    let s := (dropWork (spanFree (closeGaps s p) p) p).updPart p (fun y => { y.dropStep with
      stage := .waiting, seg := 0, beat := y.beat + (s.partImage p).desc.tScatter })
    boundary s p
  else s

/-- SCATTER_COMPLETE (R72, R323). -/
def execScatterComplete (p : Nat) (s : State) : Answer := .next (s.engine (fun s => scatterComplete s p))

end Sys2Proof.Machine
end

