-- ==== Sys2Proof/Machine/Element.lean ====
section
/-! DEFINITION. What the engines of a tile compute and move: pinned accesses of context memory (R231), the rows an
element-pipeline kernel forms (R106, R126, R130, R131, R154), where converted rows go (R107, R130, R139, R156) and what
the feeders read (R83, R107, R154). -/

namespace Sys2Proof.Machine

/-! Context memory (R151, R231). -/

/-- The pin entry of a partition's table that translates a range of bytes. -/
def pinOf (s : State) (p va len : Nat) : Option Pin :=
  let x := s.part p
  x.pins.find? (fun q => q.ctx == x.ctx && q.leaf.covers va && decide (va + len ≤ q.leaf.va + q.leaf.size))

/-- A range of bytes cut at line boundaries, `fuel` lines at most: address and length of each part. -/
def linePieces : Nat → Nat → Nat → List (Nat × Nat)
  | 0, _, _ => []
  | fuel + 1, va, len =>
    if len = 0 then []
    else
      let k := minNat len (64 - va % 64)
      (va, k) :: linePieces fuel (va + k) (len - k)

/-- The lines of a range. -/
def vaLines (va len : Nat) : List (Nat × Nat) := linePieces (len / 64 + 2) va len

/-- Where an address lies in the sequence range of a request slot (R139): block, byte in the block; none outside it. -/
def rangePlace (g : Buckets) (x : Slot) (va : Nat) : Option (Nat × Nat) :=
  let base := (parseSeq x.record).base
  let size := g.tokblkPages * 65536
  if base ≤ va ∧ va < base + g.maxLen / 64 * size then some ((va - base) / size, (va - base) % size) else none

/-- The position whose codes or scale a byte of a range holds (R139). -/
def rangePos (bits : Nat) (q : Nat × Nat) : Nat :=
  let c := 8 * bits
  let o := q.2 % (64 * (c + 2))
  64 * q.1 + (if o < 64 * c then o / c else (o - 64 * c) / 2)

/-- Whether attention reads a line (R153): outside a range always, in a range where it holds the codes or scale of a
position below the committed length. -/
def lineRead (s : State) (p slot va len : Nat) : Bool :=
  match (s.part p).plan[slot]? with
  | none => true
  | some x =>
    let g := geo s (s.part p).ctx
    match rangePlace g x va with
    | none => true
    | some _ =>
      (List.range len).any (fun i => match rangePlace g x (va + i) with
        | some q => decide (rangePos (s.partImage p).kvBits q < (parseSeq x.record).length)
        | none => false)

/-- The leaf through which a request slot's kernel reaches the bytes of a line, or the code of the refusal: a page of its
sequence range by the walk as it stands (R151, R152), every other page by the pin table (R231). In D3hot no access reaches
tier 2 (R284). -/
def slotLeaf (s : State) (p slot va len : Nat) (w : Bool) : Nat ⊕ Leaf :=
  let reach (l : Leaf) : Nat ⊕ Leaf := if s.chip.d3hot && l.tier == 2 then .inl Code.XLT_E_TIER2 else .inr l
  let byPin : Nat ⊕ Leaf := match pinOf s p va len with
    | some q => if w && (!q.leaf.w || q.leaf.tier == 1) then .inl Code.XLT_E_WRITE else reach q.leaf
    | none => .inl Code.XLT_E_UNPINNED
  match (s.part p).plan[slot]? with
  | none => byPin
  | some x =>
    match rangePlace (geo s (s.part p).ctx) x va with
    | none => byPin
    | some _ => match walk s (s.part p).ctx va w with
      | .ok l => reach l
      | .no c => .inl c

/-- Bytes of a leaf's page as the partition's own kernels see them (R257): their held writes apply. -/
def kernelView (s : State) (p : Nat) (l : Leaf) (off n : Nat) (ext : List Byte) : List Byte :=
  let bs := leafRead s l off n ext
  match markedAt s l.tier l.room (l.addr + off) with
  | some base => ownPage s (2 + p) (l.addr + off - base) bs
  | none => if l.tier = 0 then ownView s (2 + p) (l.addr + off) bs else bs

/-- The bytes of a range for a request slot's kernel; an access that is refused gets zeros (R29), and so does a line that
attention does not read (R153). `ext` holds the bytes where the pages lie in tier 2 or 3. -/
def pinnedRead (s : State) (p slot va len : Nat) (ext : List Byte) : List Byte :=
  ((vaLines va len).map (fun l =>
    if !lineRead s p slot l.1 l.2 then List.replicate l.2 0
    else match slotLeaf s p slot l.1 l.2 false with
      | .inr f => kernelView s p f (l.1 - f.va) l.2 (ext.drop (l.1 - va))
      | .inl _ => List.replicate l.2 0)).flatten

/-- The first refusal that a range meets. -/
def readRefusal (s : State) (p slot va len : Nat) : Option Nat :=
  ((vaLines va len).filter (fun l => lineRead s p slot l.1 l.2)).findSome? (fun l =>
    match slotLeaf s p slot l.1 l.2 false with
    | .inl c => some c
    | .inr _ => none)

/-- Whether no line of a range is refused. -/
def allPinned (s : State) (p slot va len : Nat) : Bool := (readRefusal s p slot va len).isNone

/-- A write cut at line boundaries. -/
def splitWrite (slot va : Nat) (bs : List Byte) : List MemWrite :=
  (vaLines va bs.length).map (fun l => { slot := slot, va := l.1, bytes := (bs.drop (l.1 - va)).take l.2 })

/-! Request slots and their streams. -/

/-- The first position a slot runs in a step. -/
def Slot.firstPos (x : Slot) : Nat := if x.decode then (parseSeq x.record).length else x.chunkPos

/-- The position of a slot's decode row, or of a row of its chunk (R113). -/
def Slot.rowPos (x : Slot) (chunkRow : Option Nat) : Nat :=
  match chunkRow with
  | some q => x.chunkPos + q
  | none => if x.decode then (parseSeq x.record).length else x.chunkPos + x.chunk - 1

/-- Where a reset mark applies in a slot's step, counted from its first position (R132). -/
def Slot.markIn (x : Slot) : Option Nat :=
  let r := parseStream x.stream
  if bitOf r.flags 1 && decide (r.resetPos ≤ x.firstPos + x.rows - 1) then some (r.resetPos - x.firstPos) else none

/-- The bytes of one state element of an operator (R127). -/
def stateWidth (o : StreamOp) : Nat := if o.fmt = 1 then 4 else 2

/-- The address of channel `first` of an operator in the active or the inactive half of a slot's state region (R128). -/
def statePlace (img : PartImage) (x : Slot) (o : StreamOp) (active : Bool) (first : Nat) : Nat :=
  let r := parseStream x.stream
  r.stateVa + b2n (bitOf r.flags 2 == active) * img.halfBytes + o.offset + stateWidth o * first

/-! Rows. -/

/-- A little-endian number of `k` bytes at element `i` of a list of bytes. -/
def elemAt (k : Nat) (bs : List Nat) (i : Nat) : Nat :=
  (List.range k).foldl (fun v j => v + nth bs (k * i + j) * 2 ^ (8 * j)) 0

/-- FP32 elements from bytes, and BF16 elements widened. -/
def f32Elems (len : Nat) (bs : List Nat) : List Nat := (List.range len).map (elemAt 4 bs)
def bf16Elems (len : Nat) (bs : List Nat) : List Nat := (List.range len).map (fun i => BF16.toF32 (elemAt 2 bs i))

/-- The coefficients of a table in a kernel bank, read as the images are (R125, R126): whoever owns the bank. -/
def tableAt (t : Tile) (r : ScrRef) : List Nat :=
  f32Elems 1024 ((List.range 4096).map (fun i => t.byte (refPlace r i).1 (refPlace r i).2))

/-- Elements of a table in a kernel bank (R126), in FP32 or BF16. -/
def imageElems (t : Tile) (wide : Bool) (r : ScrRef) (len : Nat) : List Nat :=
  let k := if wide then 4 else 2
  let bs := (List.range (k * len)).map (fun i => t.byte (refPlace r i).1 (refPlace r i).2)
  if wide then f32Elems len bs else bf16Elems len bs

/-- F of a row (R106): s_a × S_t, rounded once; s_a is 1.0 for BF16 activations, and S_t is 1.0 where no matrix entry
is named. -/
def releaseScale (t : Tile) (img : PartImage) (owner : Nat) (matrix : Option Nat) (scale : Option ScrRef) : Nat :=
  let sa := match scale with
    | some r => elemAt 4 (t.readRef owner r 4) 0
    | none => F32.one
  let st := match matrix with
    | some m => img.tensors.getD m F32.one
    | none => F32.one
  F32.mul sa st

/-- The previous state of a slot's operator, widened (R130): +0 where a mark applies at a decode row. -/
def stateRow (s : State) (p slot op first len : Nat) (ext : List Byte) : List Nat :=
  let img := s.partImage p
  match (s.part p).plan[slot]?, img.streams[op]? with
  | some x, some o =>
    if x.decode && x.markIn.isSome then List.replicate len 0
    else
      let bs := (pinnedRead s p slot (statePlace img x o true first) (stateWidth o * len) ext).map (fun b => b.toNat)
      if o.fmt = 1 then f32Elems len bs else bf16Elems len bs
  | _, _ => List.replicate len 0

/-- The scan of a channel of a slot's chunk (R131, R132): a reset mark zeroes the carry at its position, and positions
past the prompt leave the state. -/
def scanOf (s : State) (p slot : Nat) (carry a b : List Nat) : List Nat :=
  match (s.part p).plan[slot]? with
  | some x => scanRow (a.length / 64 + 1) (nth carry 0) (scanPairs a b x.markIn x.rows)
  | none => []

/-- The rotation of a conversion entry on a row (R114). -/
def hadamardOf (img : PartImage) (conv : Nat) (row : List Nat) : List Nat :=
  match img.convs[conv]? with
  | some c => if c.rotLog2 = 0 then row else rotateRow c.rotLog2 c.rotSigns row
  | none => row

/-- The positions of a block that are unmasked for a row (R153): those up to the row's own. -/
def unmasked (s : State) (p slot : Nat) (chunkRow : Option Nat) (block : Nat) : Nat :=
  match (s.part p).plan[slot]? with
  | some x => minNat 64 (x.rowPos chunkRow + 1 - 64 * block)
  | none => 0

/-- The row that an expression denotes on tile `n` of a partition, for an engine with an owner code. -/
def evalRow (s : State) (p n owner : Nat) : RowExpr → List Nat
  | .literal v => v
  | .f32 src len => f32Elems len ((s.tile n).readRef owner src (4 * len))
  | .bf16 src len => bf16Elems len ((s.tile n).readRef owner src (2 * len))
  | .image wide src len => imageElems (s.tile n) wide src len
  | .release arr half row first len matrix scale =>
    let f := releaseScale (s.tile n) (s.partImage p) owner matrix scale
    (List.range len).map (fun c =>
      F32.mul (SMap.get (fun _ => 0) ((s.tile n).arr arr).tally (half * 32768 + row % 256 * 128 + (first + c))) f)
  | .add x y => zipRow F32.add (evalRow s p n owner x) (evalRow s p n owner y)
  | .mul x y => zipRow F32.mul (evalRow s p n owner x) (evalRow s p n owner y)
  | .gated tab g u => zipRow (gatedProduct (tableAt (s.tile n) tab)) (evalRow s p n owner g) (evalRow s p n owner u)
  | .gelu tab x => (evalRow s p n owner x).map (geluOf (tableAt (s.tile n) tab))
  | .rms tab eps x g => rmsNorm (tableAt (s.tile n) tab) eps (evalRow s p n owner x) (evalRow s p n owner g)
  | .layer tab eps x g b =>
    layerNorm (tableAt (s.tile n) tab) eps (evalRow s p n owner x) (evalRow s p n owner g) (evalRow s p n owner b)
  | .position x c z => rotatePairs (evalRow s p n owner x) (evalRow s p n owner c) (evalRow s p n owner z)
  | .hadamard conv x => hadamardOf (s.partImage p) conv (evalRow s p n owner x)
  | .attMax slot row b m v => [attMax (unmasked s p slot row b) (nth (evalRow s p n owner m) 0) (evalRow s p n owner v)]
  | .attWeights tab k slot row b v m =>
    attWeights (tableAt (s.tile n) tab) k (unmasked s p slot row b) (nth (evalRow s p n owner m) 0) (evalRow s p n owner v)
  | .attSum tab k mo m l w =>
    [attSum (tableAt (s.tile n) tab) k (nth (evalRow s p n owner mo) 0) (nth (evalRow s p n owner m) 0)
      (nth (evalRow s p n owner l) 0) (evalRow s p n owner w)]
  | .attOut tab k mo m o b =>
    attOut (tableAt (s.tile n) tab) k (nth (evalRow s p n owner mo) 0) (nth (evalRow s p n owner m) 0)
      (evalRow s p n owner o) (evalRow s p n owner b)
  | .recip tab x => (evalRow s p n owner x).map (fnRecip (tableAt (s.tile n) tab))
  | .state slot op first len ext => stateRow s p slot op first len ext
  | .stateStep a h b =>
    let hs := evalRow s p n owner h
    let bs := evalRow s p n owner b
    let av := evalRow s p n owner a
    (List.range av.length).map (fun i => stateUpdate (nth av i) (nth hs i) (nth bs i))
  | .scan slot c a b => scanOf s p slot (evalRow s p n owner c) (evalRow s p n owner a) (evalRow s p n owner b)
  | .cut first len x => ((evalRow s p n owner x).drop first).take len
  | .join x y => evalRow s p n owner x ++ evalRow s p n owner y

/-- The banks that an expression reads, kernel images apart. -/
def rowBanks : RowExpr → List Nat
  | .f32 src len => refBanks src (4 * len)
  | .bf16 src len => refBanks src (2 * len)
  | .release _ _ _ _ _ _ scale => match scale with | some r => refBanks r 4 | none => []
  | .add x y | .mul x y | .gated _ x y | .rms _ _ x y | .attMax _ _ _ x y | .attWeights _ _ _ _ _ x y | .join x y => rowBanks x ++ rowBanks y
  | .gelu _ x | .hadamard _ x | .recip _ x | .cut _ _ x => rowBanks x
  | .layer _ _ x y z | .position x y z | .stateStep x y z | .scan _ x y z => rowBanks x ++ rowBanks y ++ rowBanks z
  | .attSum _ _ x y z w | .attOut _ _ x y z w => rowBanks x ++ rowBanks y ++ rowBanks z ++ rowBanks w
  | .literal _ | .state _ _ _ _ _ | .image _ _ _ => []

/-- The state reads of an expression: request slot, operator, first channel and count. -/
def rowStates : RowExpr → List (Nat × Nat × Nat × Nat)
  | .state slot op first len _ => [(slot, op, first, len)]
  | .add x y | .mul x y | .gated _ x y | .rms _ _ x y | .attMax _ _ _ x y | .attWeights _ _ _ _ _ x y | .join x y => rowStates x ++ rowStates y
  | .gelu _ x | .hadamard _ x | .recip _ x | .cut _ _ x => rowStates x
  | .layer _ _ x y z | .position x y z | .stateStep x y z | .scan _ x y z => rowStates x ++ rowStates y ++ rowStates z
  | .attSum _ _ x y z w | .attOut _ _ x y z w => rowStates x ++ rowStates y ++ rowStates z ++ rowStates w
  | .literal _ | .f32 _ _ | .bf16 _ _ | .image _ _ _ | .release _ _ _ _ _ _ _ => []

/-- The request slots whose state reads meet a page without a pin. -/
def unpinnedStates (s : State) (p : Nat) (r : RowExpr) : List Nat :=
  let img := s.partImage p
  ((rowStates r).filter (fun q =>
    match (s.part p).plan[q.1]?, img.streams[q.2.1]? with
    | some x, some o =>
      !(x.decode && x.markIn.isSome) && !allPinned s p q.1 (statePlace img x o true q.2.2.1) (stateWidth o * q.2.2.2)
    | _, _ => false)).map (fun q => q.1)

/-! Where a converted row goes. -/

/-- The little-endian bytes of codes of `k` bytes each. -/
def codeBytes (k : Nat) (codes : List Nat) : List Nat :=
  (codes.map (fun v => (List.range k).map (fun j => v / 2 ^ (8 * j) % 256))).flatten

/-- The bytes of one code of a target (R107, R111). -/
def targetWidth (target : Nat) : Nat := if target = 2 then 2 else if target = 3 then 4 else 1

/-- The conversion entry of a row: an operator's STATE_SITE for a state (R130). -/
def siteOf (img : PartImage) (w : ConvRow) : Option Site :=
  match w.dest with
  | .state op _ => match img.streams[op]? with
    | some o => img.convs[o.site]?
    | none => none
  | _ => img.convs[w.conv]?

/-- The number of that entry. -/
def siteIndex (img : PartImage) (w : ConvRow) : Nat :=
  match w.dest with
  | .state op _ => match img.streams[op]? with
    | some o => o.site
    | none => w.conv
  | _ => w.conv

/-- Where the parameter lines of a row group lie: after the codes of its 64 rows (R107). -/
def paramPlace (len width base : Nat) : Nat := base + 64 * len * width

/-- A row as a site converts it: LEN elements (R107). -/
def rowOf (site : Site) (row : List Nat) : List Nat := (List.range site.len).map (nth row)

/-- The bytes of a converted row and of its row parameters in a bank (R107). -/
def bankBytes (site : Site) (c : Converted) (b base off r : Nat) : List ScrWrite :=
  let paramOff := paramPlace site.len 1 base
  let params : List ScrWrite := if site.target < 2 then
      [{ bank := b, off := paramOff + 4 * r, bytes := codeBytes 4 [nth c.scales 0] },
       { bank := b, off := paramOff + 256 + r, bytes := [c.zero] }]
    else []
  { bank := b, off := off, bytes := codeBytes (targetWidth site.target) c.codes } :: params

/-- The codes of a KV group as they are stored (R109). -/
def kvPack (bits : Nat) (codes : List Nat) : List Nat :=
  if bits = 4 then (List.range (codes.length / 2)).map (fun j => nth codes (2 * j) % 16 + 16 * (nth codes (2 * j + 1) % 16))
  else codes.map (fun v => v % 256)

/-- The addresses of the codes and of the scale of a KV group (R139). -/
def kvPlace (g : Buckets) (bits base t layer head kind q : Nat) : Nat × Nat :=
  let c := 8 * bits
  let slab := ((layer * g.kvHeads + head) * 2 + kind) * g.headGroups + q
  let a := base + t / 64 * blockBytes g + slab * (64 * (c + 2))
  (a + t % 64 * c, a + 64 * c + 2 * (t % 64))

/-- What a converted key or value vector writes to its sequence's range, group by group (R156). -/
def kvWrites (g : Buckets) (bits slot base t layer head kind : Nat) (c : Converted) : List MemWrite :=
  ((List.range g.headGroups).map (fun q =>
    let a := kvPlace g bits base t layer head kind q
    splitWrite slot a.1 ((kvPack bits ((c.codes.drop (64 * q)).take 64)).map (BitVec.ofNat 8)) ++
      splitWrite slot a.2 ((codeBytes 2 [nth c.scales q]).map (BitVec.ofNat 8)))).flatten

/-- What a converted state writes: the inactive half of the slot's region (R130). -/
def stateWrites (img : PartImage) (slot : Nat) (x : Slot) (op first : Nat) (c : Converted) : List MemWrite :=
  match img.streams[op]? with
  | some o => splitWrite slot (statePlace img x o false first) ((codeBytes (stateWidth o) c.codes).map (BitVec.ofNat 8))
  | none => []

/-! The counters of a site. -/

/-- The counters of one site slot take a converted row (R120). -/
def countSite (s : State) (n i shift : Nat) (c : Converted) : State :=
  let s := s.add (Reg.TIL_MSE_SUM n i) (sumNat (c.errs.map (sqAddend shift)))
  let s := s.add (Reg.TIL_MSE_COUNT n i) c.errs.length
  (s.add (Reg.TIL_MSE_CLIP_CLIP n i) c.clips).add (Reg.TIL_MSE_NONFIN_NONFIN n i) c.nonfin

/-- The MSE entries of a tile of a partition's image. -/
def mseOf (x : PartImage) (n : Nat) : List MseEntry :=
  match ((maskTiles x.desc.tileMask).zip x.mse).find? (fun q => q.1 == n) with
  | some q => q.2
  | none => []

/-- Every site slot of a tile that counts a conversion entry takes a row. -/
def countRow (s : State) (n conv : Nat) (m : List MseEntry) (c : Converted) : State :=
  (List.range m.length).foldl (fun t i =>
    let y := m.getD i {}
    if y.enabled && y.conv == conv then countSite t n i y.shift c else t) s

/-- What the conversions of a run have done so far: the state with its counters, and the writes to come. -/
structure ConvWork where
  s   : State
  scr : List ScrWrite := []
  mem : List MemWrite := []
  deriving DecidableEq, Repr

/-- A row is formed on the state `s0` in which the run begins, and converted (R110). A row of a request slot takes its
stream's seed and its position (R112, R113) and is counted; a padding row is converted and not counted. -/
def convertOne (s0 : State) (p n owner : Nat) (f : ConvWork) (w : ConvRow) : ConvWork :=
  let img := s0.partImage p
  match siteOf img w with
  | none => f
  | some site =>
    let row := evalRow s0 p n owner w.row
    let slot := match w.slot with
      | some i => ((s0.part p).plan[i]?).map (fun x => (i, x))
      | none => none
    let seed := match slot with | some (_, x) => (parseStream x.stream).seed | none => 0
    let pos := match slot with | some (_, x) => x.rowPos w.chunkRow | none => 0
    let c := convertRow site img.kvBits seed pos (match w.dest with | .bank _ _ _ _ => rowOf site row | _ => row)
    let s := if slot.isSome then countRow f.s n (siteIndex img w) (mseOf img n) c else f.s
    match w.dest, slot with
    | .bank b base off r, _ => { f with s := s, scr := f.scr ++ bankBytes site c b base off r }
    | .state op first, some (i, x) => { f with s := s, mem := f.mem ++ stateWrites img i x op first c }
    | .kv layer head kind, some (i, x) =>
      { f with
        s := s
        mem := f.mem ++ kvWrites (geo s0 (s0.part p).ctx) img.kvBits i (parseSeq x.record).base pos layer head kind c }
    | _, none => { f with s := s }

/-! What the feeders read. -/

/-- Whether a row group's bank is the feeder's. -/
def feedOwned (t : Tile) (a : Nat) (g : FeedGroup) : Bool := SMap.get scrBlank t.owners g.bank == 1 + a

/-- The 64 codes of row `i` of a pass: A8 and FP8 codes of one byte, or BF16 values (R107); zeros past the groups. -/
def feedRow (t : Tile) (a mode : Nat) (groups : List FeedGroup) (i : Nat) : List Nat :=
  match groups[i / 64]? with
  | none => []
  | some g =>
    let k := if 4 ≤ mode then 2 else 1
    let bs := t.readRef (1 + a) (.bank g.bank (g.off + i % 64 * g.stride)) (64 * k)
    (List.range 64).map (elemAt k bs)

/-- The zero point of row `i` of a pass (R107). -/
def feedZero (t : Tile) (img : PartImage) (a : Nat) (groups : List FeedGroup) (i : Nat) : Nat :=
  match groups[i / 64]? with
  | none => 0
  | some g =>
    let len := (img.convs.getD g.conv {}).len
    nth (t.readRef (1 + a) (.bank g.bank (paramPlace len 1 g.base + 256 + i % 64)) 1) 0

end Sys2Proof.Machine
end

