-- ==== Sys2Proof/Machine/TileOps.lean ====
section
/-! DEFINITION. What the timetable runs on a tile: phase boundaries (R56), array passes (R77 to R83, R102 to R105),
weight loads (R79, R80, R204), element-pipeline and tile-DMA entries (R90, R107, R120, R245 to R249, R257, R258), faults
inside a tile (R91, R96) and of what it reads (R29, R233), accesses that collide (R30), ramps (R36, R85, R252), the end of
a stall (R34), the transparent test (R250, R251). Each array has its own stream channel and expander (R23). A scratch
access may begin at any byte and writes only the bytes it enables (R246): Tile.puts and Tile.putRef write byte by byte, and
Tile.freshLine zeroes the rest of a line written for the first time; the T-cycles it costs come with KernelRun.conflicts.
-/

namespace Sys2Proof.Machine

/-! Where a step stands. -/

/-- Whether run `rep` of a segment can take place in a partition's stage: segment 0 before segment 1 starts, the last in the
scatter, one of the others as often as the plan repeats it (R57, R143). -/
def segRuns (x : Part) (img : PartImage) (seg rep : Nat) : Bool :=
  (if seg = 0 then x.stage == .prologue || x.stage == .sealed
   else if seg + 1 = img.segs.length then x.stage == .scatter
   else x.stage == .body) && decide (rep < repeatOf x.plan (img.segs.getD seg {}))

/-- The timetable entry of a partition that runs now, of one class, in run `rep` of its segment. -/
def entryNow (s : State) (p e rep cls : Nat) : Option TimeEntry :=
  match (s.partImage p).entries[e]? with
  | some t => if t.cls == cls && segRuns (s.part p) (s.partImage p) t.seg rep && !(s.part p).stall.on then some t else none
  | none => none

/-- PHASE_BOUNDARY (R56): the owners of the phase of a tile that begins at a beat of a segment. -/
def phaseBoundary (s : State) (p tile seg start : Nat) : State :=
  if segRuns (s.part p) (s.partImage p) seg 0 && !(s.part p).stall.on then
    match (phasesOf (s.partImage p) tile seg).find? (fun e => e.start == start) with
    | some e => s.updTile tile (fun t => t.handover false (List.range 32) e.owners)
    | none => s
  else s

/-- PHASE_BOUNDARY (R56). -/
def execPhaseBoundary (p tile seg start : Nat) (s : State) : Answer :=
  .next (s.engine (fun s => phaseBoundary s p tile seg start))

/-! Faults that end slots. -/

/-- A report about a partition's tile. -/
def tileErr (code sev p tile : Nat) : ErrRec := { errOf code sev with partition := p, tile := tile }

/-- The error record of a fault of array `a` of a tile, its LOCATION the array of the chip (R409, log entry 110). -/
def arrErr (code sev p tile a : Nat) : ErrRec := { tileErr code sev p tile with location := 2 * tile + a }

/-- Whether a plan has slots and every one of them has ended. -/
def allEnded (plan : List Slot) : Bool := !plan.isEmpty && plan.all (fun x => x.fault.isSome)

/-- One request slot of a step ends with a code at its scatter (R29, R96); the first code stands. Where it was the last live
one, the step is abandoned (R42). -/
def slotFault (s : State) (p i : Nat) (r : ErrRec) : State :=
  match (s.part p).plan[i]? with
  | none => s
  | some x =>
    match s.op x.op with
    | none => s
    | some o =>
      let s := s.report { r with
        userTag := o.desc.userTag, rq := o.rq, context := o.ctx, fetchIdx := o.fetchIdx, sev := 1 }
      let s := s.updPart p (fun y => { y with
        plan := y.plan.set i { x with fault := if x.fault.isNone then some r.code else x.fault } })
      if allEnded (s.part p).plan then endAllSlots s p r.code else s

/-- Every slot of a step ends with a code, which is reported once; the step is abandoned (R37, R42). -/
def allFault (s : State) (p : Nat) (r : ErrRec) : State := endAllSlots (s.report { r with sev := 2, partition := p }) p r.code

/-- Some slots of a step end; where they are all of them, the step is abandoned. -/
def someFault (s : State) (p : Nat) (slots : List Nat) (r : ErrRec) : State :=
  let all := List.range (s.part p).plan.length
  if !slots.isEmpty && !all.isEmpty && all.all (fun i => slots.contains i) then allFault s p r
  else overList (all.filter (fun i => slots.contains i)) (fun i t => slotFault t p i r) s

/-- Whether no bit of TIL_ERR_STATUS is set. -/
def tileClean (s : State) (n : Nat) : Bool :=
  !(s.flag (Reg.TIL_ERR_STATUS_START n) || s.flag (Reg.TIL_ERR_STATUS_THREAD n) || s.flag (Reg.TIL_ERR_STATUS_TALLY n) ||
    s.flag (Reg.TIL_ERR_STATUS_WBUF n) || s.flag (Reg.TIL_ERR_STATUS_OVERRUN n))

/-- Record a tile fault in TIL_ERR_STATUS, and in TIL_ERR_INFO where it is the first (R96). -/
def tileNote (s : State) (n : Nat) (bit : Fld) (source row thread : Nat) : State :=
  let s := if tileClean s n then
      s.wrs [(Reg.TIL_ERR_INFO_SOURCE n, source), (Reg.TIL_ERR_INFO_ROW n, row), (Reg.TIL_ERR_INFO_THREAD n, thread)]
    else s
  s.wr bit 1

/-- A thread's slot ends, or every slot where the thread serves every row (R91, R96). -/
def threadFault (s : State) (p n i source : Nat) (bit : Fld) (code : Nat) : State :=
  let t := SMap.get threadBlank (s.tile n).threads i
  let s := s.updTile n (fun u => { u with threads := SMap.set threadBlank u.threads i { t with state := 3 } })
  let s := tileNote s n bit source t.row i
  if t.row = 0xFF then allFault s p (tileErr code 2 p n) else slotFault s p t.row (tileErr code 1 p n)

/-! Array passes. -/

/-- The request slot of each row of the row groups that the slots of a kind fill, decode rows first, each group filled up
with padding rows (R82, R83, R304, R305). -/
def rowSlotsOf (plan : List Slot) (kind : Slot → Bool) : List (Option Nat) :=
  let pad (l : List (Option Nat)) : List (Option Nat) := l ++ List.replicate ((64 - l.length % 64) % 64) none
  let idx := (List.range plan.length).filter (fun i => match plan[i]? with | some x => kind x | none => false)
  let dec := idx.filter (fun i => match plan[i]? with | some x => x.decode | none => false)
  pad (dec.map some) ++
    (idx.map (fun i => pad (List.replicate (match plan[i]? with | some x => x.chunk | none => 0) (some i)))).flatten

/-- The rows of a step's live row groups. -/
def rowSlots (plan : List Slot) : List (Option Nat) := rowSlotsOf plan (fun _ => true)

/-- The rows that an entry streams in run `rep` of its segment (log entry 109): those of every live row group in a segment
that runs once, else those of the run's own row group, of the step or of a length bucket (R57, R143). -/
def passSlots (plan : List Slot) (g : Segment) (rep : Nat) : List (Option Nat) :=
  let run (l : List (Option Nat)) : List (Option Nat) := (l.drop (64 * rep)).take 64
  if g.repeatSrc = 0 then rowSlots plan
  else if g.repeatSrc = 1 then run (rowSlots plan)
  else run (rowSlotsOf plan (fun x => x.bucket + 2 == g.repeatSrc))

/-- The key of a tally value: half, row and column. -/
def tallyKey (half row c : Nat) : Nat := half * 32768 + row % 256 * 128 + c

/-- What an empty tally reads as. -/
def tallyBlank : Nat → Nat := fun _ => 0

/-- Add or store one row's scaled partials (R81, R105). -/
def tallyRow (mode half : Nat) (clear slab : Bool) (buf trailer : List Nat) (act : List Nat) (zp row : Nat)
    (m : SMap Nat) : SMap Nat :=
  (List.range (modeColumns mode)).foldl (fun u c =>
    let k := tallyKey half row c
    let v := tallyAfter clear (SMap.get tallyBlank u k) (columnScale slab (nth trailer) c)
      (blockPartial mode (nth buf) (nth trailer) act zp c)
    SMap.set tallyBlank u k v) m

/-- A pass over an array: live rows of the row groups that fit, against one buffer. -/
def passRows (mode half buffer action : Nat) (rows : List (Option Nat)) (acts : List (List Nat)) (zps : List Nat)
    (a : Arr) : Arr :=
  let buf := if buffer = 0 then a.buf0 else a.buf1
  let trailer := if buffer = 0 then a.trail0 else a.trail1
  let slab := if buffer = 0 then a.slab0 else a.slab1
  let clear := action == 0 || a.released.contains half
  let live := (List.range rows.length).filter (fun i => match rows[i]? with | some (some _) => true | _ => false)
  { a with
    tally := live.foldl (fun m i => tallyRow mode half clear slab buf trailer (acts.getD i []) (nth zps i) i m) a.tally
    released := if action = 2 then (a.released.filter (fun h => h != half)) ++ [half]
      else a.released.filter (fun h => h != half) }

/-- The rows' codes and zero points that the feeder of array `a` delivers for a number of rows (R83, R107). -/
def feedRows (t : Tile) (img : PartImage) (a mode : Nat) (groups : List FeedGroup) (n : Nat) : List (List Nat) × List Nat :=
  ((List.range n).map (feedRow t a mode groups), (List.range n).map (feedZero t img a groups))

/-- The row groups of a pass whose bank belongs to another engine. -/
def feedForeign (t : Tile) (a : Nat) (groups : List FeedGroup) : List Nat :=
  ((groups.filter (fun g => !feedOwned t a g)).map (·.bank)).eraseDups

/-- An uncorrectable scratch line (R248): it is read as zeros and every slot of the step ends; in a kernel bank it takes the
part to the safe state. -/
def scratchFault (s : State) (p n bank line : Nat) : State :=
  let s := s.updTile n (fun u => u.loseLine bank line)
  if (s.tile n).owner bank = 5 then s.enterSafe { tileErr Code.MEM_E_SCR_ECC 4 p n with location := bank }
  else allFault s p { tileErr Code.MEM_E_SCR_ECC 2 p n with location := bank }

/-- What the pass of an entry meets: a bad buffer, a bank of another owner, a scratch line that cannot be corrected, rows
that do not fit. TIL_ERR_INFO names one slot or all of them; where several, not all, are lost it names all (log entry 110). -/
def passFaults (s : State) (p n a buffer : Nat) (foreign : List Nat) (lost : List Nat) (badLine : Option (Nat × Nat)) : State :=
  let x := (s.tile n).arr a
  let s := match badLine with
    | some q => scratchFault s p n q.1 q.2
    | none => s
  if (if buffer = 0 then x.badBuf0 else x.badBuf1) then
    allFault (tileNote s n (Reg.TIL_ERR_STATUS_WBUF n) a 0xFF 0) p (arrErr Code.TIL_E_WBUF 2 p n a)
  else if !foreign.isEmpty then allFault s p (arrErr Code.MEM_E_SCR_OWNER 2 p n a)
  else
    match lost.eraseDups with
    | [] => s
    | i :: rest =>
      someFault (tileNote s n (Reg.TIL_ERR_STATUS_OVERRUN n) a (if rest.isEmpty then i else 0xFF) 0) p (i :: rest)
        (arrErr Code.TIL_E_OVERRUN 1 p n a)

/-- ARRAY_PASS (R78, R81 to R83, R96, R105). `groups` says where the feeder reads the row groups; `half` is the tally half
of the kernel; `bad` says that the buffer shows a parity error. A row group in a bank of another owner reads as zeros,
and every slot ends (R245). The gap before the pass ends at full duty (R85). -/
def arrayPass (s : State) (p e rep half : Nat) (groups : List FeedGroup) (bad : Bool) (badLine : Option (Nat × Nat)) :
    State :=
  match entryNow s p e rep 0 with
  | none => s
  | some t =>
    let n := t.index / 2
    let a := t.index % 2
    let img := s.partImage p
    match kernelOf img n t.opRef with
    | none => s
    | some k =>
      let beats := if 4 ≤ k.mode then 4 else 1
      let all := passSlots (s.part p).plan (img.segs.getD t.seg {}) rep
      let fit := minNat (all.length / 64) (t.len / beats)
      let rows := all.take (64 * fit)
      let lost := (all.drop (64 * fit)).filterMap id
      let s := closeGap s p n a (some (e, rep))
      let u := match badLine with
        | some q => (s.tile n).loseLine q.1 q.2
        | none => s.tile n
      let feed := feedRows u img a k.mode groups rows.length
      let foreign := feedForeign u a (groups.take fit)
      let s := s.updTile n (fun u => u.updArr a (passRows k.mode half (t.flags % 2) (bitsOf k.flags 2 2) rows feed.1 feed.2))
      let s := s.add (Reg.TIL_ARR_LIVE n a) fit
      let s := s.add (Reg.TIL_ARR_PAD n a) (rows.filter (·.isNone)).length
      let s := s.add (Reg.TIL_ARR_FILLER n a) (t.len - fit * beats)
      let s := overList foreign (fun b t => t.inc (Reg.MEM_SCR_CONF n b)) s
      let s := if bad then s.updTile n (fun u => u.updArr a (fun x =>
          if t.flags % 2 = 0 then { x with badBuf0 := true } else { x with badBuf1 := true })) else s
      passFaults s p n a (t.flags % 2) foreign lost badLine

/-- ARRAY_PASS (R78). -/
def execArrayPass (p entry rep half : Nat) (groups : List FeedGroup) (bad : Bool) (badLine : Option (Nat × Nat))
    (s : State) : Answer :=
  .next (s.engine (fun s => arrayPass s p entry rep half groups bad badLine))

/-! Weight-buffer loads. -/

/-- A buffer takes a block and its trailer, or a slab and its column scales; a parity error of the buffer goes with what
it held. -/
def Arr.fill (x : Arr) (buffer : Nat) (bytes trailer : List Nat) (slab : Bool) : Arr :=
  if buffer = 0 then { x with buf0 := bytes, trail0 := trailer, slab0 := slab, badBuf0 := false }
  else { x with buf1 := bytes, trail1 := trailer, slab1 := slab, badBuf1 := false }

/-- A load completes. -/
def loadBuffer (s : State) (n a buffer : Nat) (bytes trailer : List Nat) (slab : Bool) : State :=
  (s.updTile n (fun u => u.updArr a (fun x => x.fill buffer bytes trailer slab))).inc (Reg.TIL_ARR_LOADS n a)

/-- A load finds its rack empty: the partition stalls until the expander delivers (R80, R204). -/
def rackEmpty (s : State) (p arr : Nat) : State :=
  if (s.part p).waitRacks.contains arr then s
  else stallAssert ((s.inc Reg.EXP_LATE).updPart p (fun y => { y with waitRacks := y.waitRacks ++ [arr] })) p .retry

/-- What a load from scratch brings, from the bytes at its first line: a block's 64 lines and 3 lines of trailer, or 6 for
a block pair (R104); the codes of a key slab transposed, with a scale for each token's column, or of a value slab as they
lie (R138, R154). -/
def scratchLoad (form bits : Nat) (rd : Nat → Nat) : List Nat × List Nat :=
  let run (first n : Nat) : List Nat := (List.range n).map (fun i => rd (first + i))
  match form with
  | 0 => (run 0 4096, run 4096 192)
  | 1 => (run 0 4096, run 4096 384)
  | 2 => (keySlab bits rd, run (512 * bits) 128)
  | _ => (run 0 (512 * bits), unitScales)

/-- WEIGHT_BUFFER_LOAD (R79, R80, R104, R154): from the rack, or from a scratch bank that the feeders own. `bank`, `line`
and `form` are the kernel's; a load from scratch of a bank with another owner reads zeros (R245), and so does a line that
cannot be corrected (R248). -/
def weightLoad (s : State) (p e rep bank line form : Nat) (badLine : Option Nat) : State :=
  match entryNow s p e rep 1 with
  | none => s
  | some t =>
    let n := t.index / 2
    let a := t.index % 2
    match kernelOf (s.partImage p) n t.opRef with
    | none => s
    | some k =>
      if k.mode = 0 then
        match ((s.tile n).arr a).rack with
        | [] => rackEmpty s p t.index
        | b :: rest =>
          let s := s.updTile n (fun u => u.updArr a (fun x => { x with rack := rest }))
          loadBuffer s n a (t.flags % 2) b.bytes b.trailer false
      else
        let u := match badLine with
          | some l => (s.tile n).loseLine bank l
          | none => s.tile n
        let x := scratchLoad form (s.partImage p).kvBits (fun i => u.byte bank (line * 64 + i))
        if u.owner bank = 1 + a then
          let s := loadBuffer s n a (t.flags % 2) x.1 x.2 (decide (2 ≤ form))
          match badLine with
          | some l => scratchFault s p n bank l
          | none => s
        else
          let s := s.inc (Reg.MEM_SCR_CONF n bank)
          allFault (loadBuffer s n a (t.flags % 2) [] [] false) p { tileErr Code.MEM_E_SCR_OWNER 2 p n with location := bank }

/-- WEIGHT_BUFFER_LOAD (R79, R80). -/
def execWeightBufferLoad (p entry rep bank line form : Nat) (badLine : Option Nat) (s : State) : Answer :=
  .next (s.engine (fun s => weightLoad s p entry rep bank line form badLine))

/-! Kernels of class 6 and 7. -/

/-- Whether a thread runs in this step: its slot is not skipped, and its row has not ended (R90). -/
def threadRuns (s : State) (p : Nat) (t : Thread) : Bool :=
  t.state != 4 && (t.row == 0xFF || (match (s.part p).plan[t.row]? with | some x => x.fault.isNone | none => false))

/-- The thread slots of an invocation run in ascending order (R90). -/
def runThreads (s : State) (p n first count : Nat) : State :=
  (List.range count).foldl (fun u j =>
    let t := SMap.get threadBlank (u.tile n).threads (first + j)
    if threadRuns u p t then
      u.updTile n (fun v => { v with threads := SMap.set threadBlank v.threads (first + j) { t with state := 3 } })
    else u) s

/-- One write of a kernel to a bank that its engine owns; a write to another bank is dropped and counted (R245). -/
def bankWrite (n owner : Nat) (s : State) (w : ScrWrite) : State :=
  if (s.tile n).owner w.bank = owner then s.updTile n (fun t => t.puts w.bank w.off w.bytes)
  else s.inc (Reg.MEM_SCR_CONF n w.bank)

/-- Count an access that an error of its tier or its time ends, before its slots end (R233, R234). -/
def countAccess (s : State) (code : Nat) : State :=
  if code = Code.XLT_E_LATE then s.inc Reg.XLT_LATE
  else if code = Code.XLT_E_UNCORR then s.inc Reg.MEM_DRAM_UNCORR
  else if code = Code.XLT_E_TIER2 ∨ code = Code.XLT_E_TIER3 then s
  else s.inc Reg.XLT_FAULTS

/-- An access of context memory that is refused ends its slot (R29, R231, R233). -/
def unpinnedFault (s : State) (p slot addr code : Nat) : State :=
  slotFault (countAccess s code) p slot { errOf code 1 with partition := p, addr := addr }

/-- A kernel's write to context memory (R151, R231): a refused one writes nothing, and its slot ends. -/
def pinnedWrite (p : Nat) (s : State) (w : MemWrite) : State :=
  match slotLeaf s p w.slot w.va w.bytes.length true with
  | .inl c => unpinnedFault s p w.slot w.va c
  | .inr f =>
    let s := leafWrite s (2 + p) f (w.va - f.va) w.bytes
    if f.tier = 3 ∧ s.chn.wrote.contains f.room = false then
      { s with chn := { s.chn with wrote := s.chn.wrote ++ [f.room] } }
    else s

/-- The direction of the mesh link from a tile to a neighbour (R22, R58): 0 north, 1 east, 2 south, 3 west. -/
def meshDir (src dst : Nat) : Option Nat :=
  if dst + 8 = src then some 0
  else if src + 8 = dst then some 2
  else if src / 8 != dst / 8 then none
  else if src + 1 = dst then some 1
  else if dst + 1 = src then some 3
  else none

/-- Whether the timetable opens the mesh link from a tile to a neighbour while an entry runs (R24). -/
def linkOpen (img : PartImage) (t : TimeEntry) (src dst : Nat) : Bool :=
  match meshDir src dst with
  | none => false
  | some d => img.entries.any (fun e =>
      e.cls == 2 && e.seg == t.seg && e.index == 4 * src + d && decide (e.start < t.start + t.len) &&
        decide (t.start < e.start + e.len))

/-- Whether a transfer belongs to an engine (R24, R253): the tile DMA moves data over the edge link and the mesh, and only
the element pipeline reaches the secure region. -/
def moveFits (owner : Nat) (y8 : Bool) : Move → Bool
  | .secure .. => owner == 3 && y8
  | _ => owner == 4

/-- One transfer of a kernel (R24, R29, R231, R253). A tile's scratch is reached from another tile only through that tile's
own DMA, over the mesh link between neighbours. An access that fails delivers zeros. -/
def runMove (p n owner : Nat) (t : TimeEntry) (s : State) (m : Move) : State :=
  match m with
  | .load slot va dst len ext fail =>
    if fail = 0 then
      let bs := (pinnedRead s p slot va len ext).map (fun b => b.toNat)
      let u := s.updTile n (fun u => u.putRef owner dst bs)
      match readRefusal s p slot va len with
      | some c => unpinnedFault u p slot va c
      | none => u
    else
      slotFault (countAccess (s.updTile n (fun u => u.putRef owner dst (List.replicate len 0))) fail) p slot
        { errOf fail 1 with partition := p, addr := va }
  | .store slot va src len =>
    (splitWrite slot va (((s.tile n).readRef owner src len).map (BitVec.ofNat 8))).foldl (pinnedWrite p) s
  | .mesh tile src dst len =>
    if (s.part p).tiles.contains tile && linkOpen (s.partImage p) t tile n then
      s.updTile n (fun u => u.putRef owner dst ((s.tile tile).readRef owner src len))
    else s
  | .secure off dst len =>
    s.updTile n (fun u => u.putRef owner dst ((List.range len).map (fun i => u.secureByte (off + i))))

/-- The tiles and banks that a transfer touches. -/
def moveBanks (n : Nat) : Move → List (Nat × Nat)
  | .load _ _ dst len _ _ => (refBanks dst len).map (fun b => (n, b))
  | .store _ _ src len => (refBanks src len).map (fun b => (n, b))
  | .mesh tile src dst len => (refBanks src len).map (fun b => (tile, b)) ++ (refBanks dst len).map (fun b => (n, b))
  | .secure _ dst len => (refBanks dst len).map (fun b => (n, b))

/-- The tiles and banks that a kernel's run touches beside its writes of constants. -/
def runBanks (n : Nat) (r : KernelRun) : List (Nat × Nat) :=
  (r.reads.map (fun b => (n, b)) ++ (r.convs.map (fun w => (rowBanks w.row).map (fun b => (n, b)))).flatten ++
    (r.moves.map (moveBanks n)).flatten).eraseDups

/-! Fences (R258). -/

/-- A chain fence (R344): T3_FENCE to every room written since the last one. -/
def chainFence (s : State) (who : Option (Nat × Nat)) : State :=
  let rooms := s.chn.wrote
  if rooms.isEmpty then s
  else
    let n := s.chn.nextFence
    let s := { s with chn := { s.chn with
      wrote := [], nextFence := n + 1, fences := s.chn.fences ++ [(n, rooms, who)] } }
    overList rooms (fun r t => sendMsg t { msgTo t 0x12 1 r 0 [] with id := n }) s

/-- Whether a fence of a scope (3 for the chain) by a slot's thread is still open: an earlier write of the partition's
kernels is held by the memory hub; for the host scope, a request to the host waits as well; for the chain scope, a peer has
still to answer. A write to the tile's own banks is visible at once. -/
def fenceOpen (s : State) (p : Nat) (f : Nat × Nat) : Bool :=
  (f.2 != 0 && s.heldWrites.any (fun w => w.src == 2 + p)) || (f.2 == 2 && !s.heldOut.isEmpty) ||
  (f.2 == 3 && s.chn.fences.any (fun e => e.2.2 == some (p, f.1)))

/-- The slots whose threads a fence holds. -/
def fencedSlots (s : State) (p : Nat) : List Nat := ((s.part p).fenced.filter (fenceOpen s p)).map (·.1)

/-- The fences that end a stage of a run are issued. -/
def issueFences (s : State) (p : Nat) (r : KernelRun) : State :=
  let s := match r.fence with
    | some i => chainFence s (some (p, i))
    | none => s
  let new := r.fences ++ (match r.fence with | some i => [(i, 3)] | none => [])
  s.updPart p (fun y => { y with fenced := y.fenced.filter (fenceOpen s p) ++ new })

/-! A stage of a run. -/

/-- What an entry runs: its timetable entry, the kernel of its invocation, the first thread slot and the count, the thread
slots' place in the tile's table, and the run of its segment. -/
structure EntryRun where
  t      : TimeEntry
  kernel : KernelEntry
  first  : Nat
  count  : Nat
  base   : Nat
  rep    : Nat
  deriving DecidableEq, Repr

/-- Whether the work for request slot `i` is done (R90, R258): a per-row kernel serves the slots of its invocation's range
that the plan has, whose threads are not skipped and whose rows have not ended; no thread goes past an open fence. -/
def slotRuns (s : State) (p n : Nat) (v : EntryRun) (held : List Nat) (i : Nat) : Bool :=
  let t := SMap.get threadBlank (s.tile n).threads (v.base + (i - v.first))
  !held.contains i &&
    (!bitOf v.kernel.flags 1 ||
      (decide (v.first ≤ i) && decide (i < v.first + v.count) && t.state != 4 &&
        (match (s.part p).plan[i]? with | some x => x.fault.isNone | none => false)))

/-- What a stage leaves out: the work of slots that do not run, transfers of another engine, and, in a per-row kernel, work
that serves no slot. -/
def liveRun (s : State) (p n owner : Nat) (v : EntryRun) (r : KernelRun) : KernelRun :=
  let on := slotRuns s p n v (fencedSlots s p)
  let any := !bitOf v.kernel.flags 1 || (List.range v.count).any (fun j => on (v.first + j))
  let opt (i : Option Nat) : Bool := match i with | some i => on i | none => !bitOf v.kernel.flags 1
  { r with
    convs := r.convs.filter (fun w => opt w.slot)
    writes := r.writes.filter (fun w => opt w.slot)
    secure := if owner = 3 ∧ bitOf v.kernel.flags 0 then r.secure.filter (fun w => opt w.slot) else []
    mem := if owner = 4 then r.mem.filter (fun w => on w.slot) else []
    moves := (r.moves.filter (moveFits owner (bitOf v.kernel.flags 0))).filter (fun m => match m with
      | .load slot _ _ _ _ _ => on slot
      | .store slot _ _ _ => on slot
      | .mesh .. => any
      | .secure .. => any) }

/-- Bytes that an access which collides leaves (R30): free values. -/
def freeBytes (free : Nat) (w : ScrWrite) : ScrWrite :=
  { w with bytes := (List.range w.bytes.length).map (fun i => Config.freeNat (free + i) % 256) }

/-- What a stage's run does to its tile and to memory: rows are formed on the state the stage begins in, then written;
transfers follow in order, then writes to memory. -/
def kernelEffect (s : State) (p n owner : Nat) (t : TimeEntry) (r : KernelRun) : State :=
  let touched := runBanks n r
  let foreign := touched.filter (fun q => (s.tile q.1).owner q.2 != owner)
  let lost := (r.convs.map (fun w => unpinnedStates s p w.row)).flatten.eraseDups
  let f := r.convs.foldl (convertOne s p n owner) { s := s }
  let formed := r.writes ++ f.scr
  let writes := if r.collide then
      (List.range formed.length).map (fun i => freeBytes (s.free + 4096 * i) (formed.getD i {})) else formed
  let s := writes.foldl (bankWrite n owner) f.s
  let s := if r.collide then { s with free := s.free + 4096 * formed.length }.report (tileErr Code.ERR_E_COLLIDE 0 p n) else s
  let s := r.moves.foldl (runMove p n owner t) s
  let s := overList r.conflicts (fun c t => t.add (Reg.MEM_SCR_CONF n c.1) c.2) s
  let s := overList foreign (fun q t => t.inc (Reg.MEM_SCR_CONF q.1 q.2)) s
  let s := overList lost (fun i t => unpinnedFault t p i 0 Code.XLT_E_UNPINNED) s
  let s := (r.mem ++ f.mem).foldl (pinnedWrite p) s
  let s := overList r.drains (fun d t =>
    t.updTile n (fun u => u.updArr d.1 (fun x => { x with released := x.released.filter (fun h => h != d.2) }))) s
  let s := r.secure.foldl (fun s w => s.updTile n (fun u => u.putSecure w.off w.bytes)) s
  let s := issueFences s p r
  let s := (s.addSat (Reg.TIL_ECC_CORR_COUNT n) r.eccThread).add Reg.MEM_SCR_ECC_CORR r.eccLine
  let s := countCorr s r.dramCorr
  if !foreign.isEmpty || writes.any (fun w => (s.tile n).owner w.bank != owner) then
    allFault s p (tileErr Code.MEM_E_SCR_OWNER 2 p n)
  else s

/-- What a kernel's run meets in the tile (R96): a bad thread slot, a bad tally row. A tally row of padding affects no slot,
and TIL_ERR_INFO.ROW reads 0 (log entry 110). -/
def kernelFaults (s : State) (p n source : Nat) (v : EntryRun) (r : KernelRun) : State :=
  let rows := passSlots (s.part p).plan ((s.partImage p).segs.getD v.t.seg {}) v.rep
  let s := match r.badThread with
    | some i => threadFault s p n i source (Reg.TIL_ERR_STATUS_THREAD n) Code.TIL_E_THREAD
    | none => s
  match r.tallyBad with
  | some (a, row) =>
    match rows[row]? with
    | some (some i) =>
      slotFault (tileNote s n (Reg.TIL_ERR_STATUS_TALLY n) a i 0) p i (arrErr Code.TIL_E_TALLY 1 p n a)
    | _ => tileNote s n (Reg.TIL_ERR_STATUS_TALLY n) a 0 0
  | none => s

/-- One stage of an entry: a scratch line that cannot be corrected reads as zeros in it, and what it meets follows it. -/
def runStage (p n owner source : Nat) (v : EntryRun) (s : State) (r0 : KernelRun) : State :=
  let r := liveRun s p n owner v r0
  let s := match r.badBank with
    | some b => s.updTile n (fun u => u.loseLine b r.badLine)
    | none => s
  let s := kernelEffect s p n owner v.t r
  let s := match r.badBank with
    | some b => scratchFault s p n b r.badLine
    | none => s
  kernelFaults s p n source v r

/-- An entry of class 6 or 7 runs, stage by stage, so that a thread reads what it wrote in an earlier one (R257). The fill
entries of a tile pass idle while its FILLED is 1 (R272). -/
def kernelEntry (s : State) (p e rep cls owner source : Nat) (runs : List KernelRun) : State :=
  match entryNow s p e rep cls with
  | none => s
  | some t =>
    match tileKernels (s.partImage p) t.index with
    | none => s
    | some k =>
      match k.invocations[t.opRef]? with
      | none => s
      | some v =>
        let n := t.index
        let fill := (fillEntries (s.partImage p) n).contains e
        if fill && (s.tile n).filled then s
        else
          let base := threadBase k v.1 + v.2.1
          let r : EntryRun := { t := t, kernel := k.dir.getD v.1 {}, first := v.2.1, count := v.2.2, base := base, rep := rep }
          let s := runThreads s p n base v.2.2
          let s := runs.foldl (runStage p n owner source r) s
          if fill then s.updTile n (fun u => { u with fillDone := u.fillDone ++ [e] }) else s

/-- ELEMENT_PIPELINE_ENTRY (R90). -/
def execElementPipelineEntry (p entry rep : Nat) (runs : List KernelRun) (s : State) : Answer :=
  .next (s.engine (fun s => kernelEntry s p entry rep 6 3 2 runs))

/-- TILE_DMA_ENTRY (R90). -/
def execTileDmaEntry (p entry rep : Nat) (runs : List KernelRun) (s : State) : Answer :=
  .next (s.engine (fun s => kernelEntry s p entry rep 7 4 3 runs))

/-- SCATTER_BEGIN (R38, R291, R318): the sampling kernel of a tile forms the logits of each request slot. -/
def execScatterBegin (p tile : Nat) (logits : List RowExpr) (expTab recTab : ScrRef) (s : State) : Answer :=
  .next (s.engine (fun s =>
    scatterBegin s p (logits.map (evalRow s p tile 3)) (tableAt (s.tile tile) expTab) (tableAt (s.tile tile) recTab)))

/-- Zeros take the place of data in runs of scratch, in banks that an engine owns (R29, R91). -/
def zeroRuns (s : State) (owner : Nat) (l : List ZeroRun) : State :=
  overList l (fun z t => t.updTile z.tile (fun u => u.putRef owner z.dst (List.replicate z.len 0))) s

/-- Whether a thread of a tile belongs to a tile-DMA kernel (R452). -/
def dmaThread (s : State) (p n thread : Nat) : Bool :=
  match tileKernels (s.partImage p) n with
  | some k => (k.dir.getD (SMap.get threadBlank (s.tile n).threads thread).kernel {}).cls == 1
  | none => false

/-- A thread reaches its cycle bound (R91): zeros replace its outputs, and its slot ends. -/
def threadOverrun (s : State) (p tile thread : Nat) (zeros : List ZeroRun) : State :=
  if (s.part p).inStep && (s.part p).tiles.contains tile then
    let dma := dmaThread s p tile thread
    let s := zeroRuns s (if dma then 4 else 3) (zeros.filter (fun z => z.tile == tile))
    threadFault s p tile thread (if dma then 3 else 2) (Reg.TIL_ERR_STATUS_OVERRUN tile) Code.TIL_E_OVERRUN
  else s

/-- THREAD_OVERRUN (R91). -/
def execThreadOverrun (p tile thread : Nat) (zeros : List ZeroRun) (s : State) : Answer :=
  .next (s.engine (fun s => threadOverrun s p tile thread zeros))

/-! Accesses that fail after the prologue. -/

/-- The codes with which a timetabled access can end the slots it carried (R233, R234). -/
def accessCodes : List Nat :=
  [Code.XLT_E_NOT_PRESENT, Code.XLT_E_WRITE, Code.XLT_E_FORMAT, Code.XLT_E_OWNER, Code.XLT_E_RANGE, Code.XLT_E_TIER1,
   Code.XLT_E_TIER2, Code.XLT_E_TIER3, Code.XLT_E_UNCORR, Code.XLT_E_UNPINNED]

/-- A timetabled access that is late or fails (R29): zeros are delivered where its data was to go, which the tile DMA writes,
and the slots whose data it carried end. -/
def accessFault (s : State) (p code : Nat) (slots : List Nat) (zeros : List ZeroRun) : State :=
  let s := zeroRuns s 4 (zeros.filter (fun z => (s.part p).tiles.contains z.tile))
  someFault (countAccess s code) p slots { errOf code 1 with partition := p }

/-- ALLOWANCE_EXPIRY (R29): data later than its allowance. -/
def execAllowanceExpiry (p : Nat) (slots : List Nat) (zeros : List ZeroRun) (s : State) : Answer :=
  .next (s.engine (fun s => if (s.part p).inStep then accessFault s p Code.XLT_E_LATE slots zeros else s))

/-- TIER_ACCESS_FAULT (R233): a refusal, an access error or an uncorrectable line. -/
def execTierAccessFault (p code : Nat) (slots : List Nat) (zeros : List ZeroRun) (s : State) : Answer :=
  .next (s.engine (fun s =>
    if (s.part p).inStep && accessCodes.contains code then accessFault s p code slots zeros else s))

/-! Ramps and the end of a stall. -/

/-- The partition of a running tile. -/
def partOfTile (s : State) (n : Nat) : Option Nat :=
  if s.part0.busy && s.part0.tiles.contains n then some 0
  else if s.part1.busy && s.part1.tiles.contains n then some 1
  else none

/-- Whether a ramp step of an array in a direction can occur: down in a stall whose cause holds and in a wait, up in a stall
whose causes have cleared; in a gap of a step as many down as R85 computes, then as many up (R36, R85, R87). -/
def rampAllowed (s : State) (p n a : Nat) (up : Bool) : Bool :=
  let x := s.part p
  if x.stall.any then !up
  else if x.stall.on then up
  else if x.stage == .waiting then !up
  else
    let y := (s.tile n).arr a
    let k := gapSteps (s.rd (Reg.ITN_P_STATUS_DIVIDER p)) (gapNow s p n a)
    x.inStep && (if up then y.gapDown == k && decide (y.gapUp < k) else decide (y.gapDown < k) && y.gapUp == 0)

/-- Whether a partition's step is in a gap of the timetable: no stall holds it and it does not wait. -/
def Part.inGap (x : Part) : Bool := x.inStep && !x.stall.on

/-- RAMP_STEP (R84, R85): an array's filler duty changes by one sixteenth. Where every array of a waiting partition has
completed 16 steps down, the banks enter retention (R252). -/
def rampStep (s : State) (tile arr : Nat) (up : Bool) : State :=
  match partOfTile s tile with
  | none => s
  | some p =>
    let d := ((s.tile tile).arr arr).duty
    if rampAllowed s p tile arr up && (if up then decide (d < 16) else decide (0 < d)) then
      let gap := b2n (s.part p).inGap
      let s := s.updTile tile (fun t => t.updArr arr (fun a => { a with
        duty := if up then d + 1 else d - 1
        gapDown := if up then a.gapDown else a.gapDown + gap, gapUp := if up then a.gapUp + gap else a.gapUp }))
      let s := s.inc (Reg.TIL_ARR_RAMP tile arr)
      if (s.part p).stage == .waiting && (s.part p).tiles.all (fun n => (s.tile n).arr0.duty == 0 && (s.tile n).arr1.duty == 0) then
        overList (s.part p).tiles (fun n t => t.updTile n (fun u => { u with retention := true })) s
      else s
    else s

/-- RAMP_STEP (R85). -/
def execRampStep (tile arr : Nat) (up : Bool) (s : State) : Answer := .next (s.engine (fun s => rampStep s tile arr up))

/-- The duty that an array has in the gap of the timetable where a stall found it. -/
def Arr.gapDuty (a : Arr) : Nat := 16 - (a.gapDown - a.gapUp)

/-- Count a stall of some beats in the arrays' idle time (R36, R98): an array ramps down where the stall lasts, and back. -/
def countStall (s : State) (p beats : Nat) : State :=
  let d := s.rd (Reg.ITN_P_STATUS_DIVIDER p)
  let one (n a : Nat) (t : State) : State :=
    let k := ((t.tile n).arr a).gapDuty - ((t.tile n).arr a).duty
    countIdle t n a d (64 * beats) (if k = 16 then 64 * beats - (3000 + 32 * rampT d) else 0)
  overList (s.part p).tiles (fun n t => one n 1 (one n 0 t)) s

/-- The arrays of a stalled partition are back at the duty that the stall found, each step counted (R36). -/
def stallBack (s : State) (p : Nat) : State :=
  let one (n a : Nat) (t : State) : State :=
    let x := (t.tile n).arr a
    (t.add (Reg.TIL_ARR_RAMP n a) (x.gapDuty - x.duty)).updTile n (fun u => u.updArr a (fun y => { y with duty := x.gapDuty }))
  overList (s.part p).tiles (fun n t => one n 1 (one n 0 t)) s

/-- The end of a stall (R34 to R36): its beats go to every cause asserted during it and once to the total. -/
def stallEnd (s : State) (p beats : Nat) : State :=
  let x := s.part p
  if x.stall.on && !x.stall.any then
    let s := chargeStall (stallBack (countStall s p beats) p) p beats (x.stall.seen.filter (fun c => decide (c < 4)))
    let s := s.updPart p (fun y => { y with stall := {} })
    if x.stage == .waiting then boundary s p
    else if x.inStep then setTileStates (s.wr (Reg.ITN_P_STATUS_STATE p) 2) p 5
    else s.wr (Reg.ITN_P_STATUS_STATE p) (if x.stage == .saving then 4 else 1)
  else s

/-- STALL_END (R34). -/
def execStallEnd (p beats : Nat) (s : State) : Answer := .next (s.engine (fun s => stallEnd s p beats))

/-- LOCKSTEP_ERROR (R92). -/
def execLockstepError (tile : Nat) (s : State) : Answer :=
  .next (s.engine (fun s =>
    match partOfTile s tile with
    | some p => s.enterSafe (tileErr Code.ERR_E_LOCKSTEP 4 p tile)
    | none => s))

/-! The transparent test. -/

/-- Whether a bank of a tile accepts no access (R252): in retention, which in a waiting partition spares the kernel banks. -/
def bankAsleep (s : State) (n b : Nat) : Bool :=
  (s.tile n).retention &&
    !(match partOfTile s n with | some p => (kernelBanksOf (s.partImage p) n).contains b | none => false)

/-- Whether the test can work on a bank: the tile DMA owns it, and it is not in retention (R250). -/
def testable (s : State) (n b : Nat) : Bool := (s.tile n).owner b == 4 && !bankAsleep s n b

/-- Whether a beat of a segment is a reserved window that no class-7 entry of the tile covers (R59, R250). -/
def testWindow (img : PartImage) (ratio n seg beat : Nat) : Bool :=
  beat % 2 ^ ratio == 2 ^ ratio - 1 &&
    !img.entries.any (fun e =>
      e.cls == 7 && e.index == n && e.seg == seg && decide (e.start ≤ beat) && decide (beat < e.start + e.len))

/-- The first of `n` numbers from `k` on, in a circle, that satisfies a test. -/
def nextFrom (n k : Nat) (ok : Nat → Bool) : Option Nat := ((List.range n).map (fun i => (k + i) % n)).find? ok

/-- Where the test goes on (R250): the tile in turn, among those with a bank it can work on, that tile's bank in turn, and
the line it has reached there. -/
def testPlace (s : State) : Option (Nat × Nat × Nat) :=
  match nextFrom 32 s.chip.testTile (fun n => (partOfTile s n).isSome && (List.range 32).any (testable s n)) with
  | none => none
  | some n =>
    let u := s.tile n
    match nextFrom 32 u.testBank (testable s n) with
    | none => none
    | some b => some (n, b, if b = u.testBank then u.testLine % 4096 else 0)

/-- A failed check of the test (R251): the first stays in MEM_SCR_TEST_STATUS until it is cleared. -/
def testFailed (s : State) (p tile bank region : Nat) : State :=
  let s := if s.flag Reg.MEM_SCR_TEST_STATUS_FAIL then s
    else s.wrs [(Reg.MEM_SCR_TEST_STATUS_FAIL, 1), (Reg.MEM_SCR_TEST_STATUS_TILE, tile),
      (Reg.MEM_SCR_TEST_STATUS_BANK, bank), (Reg.MEM_SCR_TEST_STATUS_REGION, region)]
  (s.report { tileErr Code.MEM_E_SCR_TEST 0 p tile with location := bank }).raiseMem Reg.MEM_IRQ_STATUS_SCR_TEST

/-- TRANSPARENT_TEST_BEAT (R250, R251): 8 lines of the bank in turn; what the bank holds is restored. After the last line of
a bank the tile's next bank is in turn, after the last bank the next tile; a region that failed is met again at its next
turn. `bad` and `lost` say that a check and that the restore check fails; a line that is lost reads as zeros. -/
def testBeat (s : State) (tile bank seg beat : Nat) (bad lost : Bool) : State :=
  match partOfTile s tile, testPlace s with
  | some p, some (n, b, line) =>
    let im := match s.image (s.part p).slot with | some im => im.windowLog2 | none => 0
    if s.flag Reg.MEM_SCR_TEST_CTRL_ENABLE && n == tile && b == bank && (s.part p).inStep && !(s.part p).stall.on &&
        segRuns (s.part p) (s.partImage p) seg 0 && testWindow (s.partImage p) im tile seg beat then
      let done := line % 64 == 56
      let last := decide (4088 ≤ line)
      let s := s.updTile tile (fun u => { u with
        testBank := if last then (bank + 1) % 32 else bank, testLine := if last then 0 else line + 8 })
      let s := if last && bank == 31 then { s with chip := { s.chip with testTile := (tile + 1) % 32 } } else s
      let s := if done then s.inc Reg.MEM_SCR_TESTED else s
      let s := if bad || lost then testFailed s p tile bank (line / 64) else s
      if lost then scratchFault s p tile bank line else s
    else s
  | _, _ => s

/-- TRANSPARENT_TEST_BEAT (R250). -/
def execTransparentTestBeat (tile bank seg beat : Nat) (bad lost : Bool) (s : State) : Answer :=
  .next (s.engine (fun s => testBeat s tile bank seg beat bad lost))

end Sys2Proof.Machine
end

