-- ==== Sys2Proof/Machine/Cellar.lean ====
section
/-! DEFINITION. The Cellar: page reads and their recovery (R168 to R171, R174, R176), programs and erases (R172, R173,
R182), relocation and read disturb (R180, R181), wear and retirement (R182, R183), the start (R184, R185), block
queries (R188) and the end of a set's blocks (R213, R218). Durations and their limits (R164) come with the commands;
events that meet (R186) come about in the order of the commands. -/

namespace Sys2Proof.Machine

/-! Counters of a block. -/

/-- A block's read-disturb counter in sweeps, with the margins added since its last erase (R180). -/
def sweepsOf (s : State) (x : PBlock) : Nat := x.sweeps + (s.cel.margin - x.base)

/-- One page read of a physical block: the counter advances by one for every 256 (R180). -/
def countRead (s : State) (plane b : Nat) : State :=
  (s.inc Reg.CEL_READS).updBlock plane b (fun x =>
    if x.reads = 255 then { x with reads := 0, sweeps := x.sweeps + 1, sinceRefresh := x.sinceRefresh + 1 }
    else { x with reads := x.reads + 1, sinceRefresh := x.sinceRefresh + 1 })

/-- An error record of the Cellar class (R409): LOCATION is the plane, ADDR the plane, the physical block and the page. -/
def celErr (code sev plane b page : Nat) : ErrRec :=
  { errOf code sev with cls := 4, location := plane, addr := plane * 2 ^ 48 + b * 2 ^ 32 + page }

/-- An error of the Cellar class without a code of its own (R182, stages 1 and 2). -/
def stageErr (plane b : Nat) : ErrRec := celErr 0 0 plane b 0

/-- A block enters a wear stage (R182); it leaves the count of the stage it was in. -/
def enterStage (s : State) (plane b stage : Nat) : State :=
  let x := s.pblock plane b
  if stage ≤ x.stage ∨ x.use = 5 then s
  else
    let s := if x.stage = 1 then s.wr Reg.CEL_WEAR_STAGE1_COUNT (s.rd Reg.CEL_WEAR_STAGE1_COUNT - 1) else s
    let s := s.inc (if stage = 1 then Reg.CEL_WEAR_STAGE1_COUNT else Reg.CEL_WEAR_STAGE2_COUNT)
    let s := s.updBlock plane b (fun y => { y with stage := stage })
    (s.report (stageErr plane b)).raiseCel Reg.CEL_IRQ_STATUS_STAGE

/-- A page read that needed retry or rebuild (R170): counted, its block queued for relocation, perhaps in stage 1. -/
def countRetry (s : State) (plane b : Nat) : State :=
  let s := (s.inc Reg.CEL_RETRIES).updBlock plane b (fun x => { x with retried := x.retried + 1, queued := 2 })
  let x := s.pblock plane b
  if x.sinceRefresh < 1000 * x.retried then enterStage s plane b 1 else s

/-- The planes that hold the other pages of a stripe: the data planes but one, and the parity plane (R167). -/
def stripePlanes (plane l : Nat) : List Nat :=
  ((List.range 16).map (fun i => plane / 16 * 16 + i)).filter (fun q =>
    q != plane && !(decide (112 ≤ l) && q % 16 == 0))

/-- The other pages of a stripe are read for a rebuild (R170), which succeeds or not. -/
def countRebuild (s : State) (plane l : Nat) (ok : Bool) : State :=
  overList (stripePlanes plane l) (fun q t => countRead t q (t.physOf q l)) (s.add Reg.CEL_REBUILDS (b2n ok))

/-- The outcome of a page read: 0 good, 1 to 7 the retry level that succeeds, 8 rebuilt, 9 uncorrectable. -/
def readOutcome (s : State) (plane l outcome : Nat) : State :=
  let b := s.physOf plane l
  let s := countRead s plane b
  if outcome = 0 then s
  else
    let s := countRetry s plane b
    if 8 ≤ outcome then countRebuild s plane l (outcome == 8) else s

/-! Sets. -/

/-- Replace a set's record. -/
def State.setSet (s : State) (n : Nat) (r : SetRec) : State :=
  { s with exp := { s.exp with sets := SMap.set (fun _ => {}) s.exp.sets n r } }

/-- A set becomes impaired (R171, R459): recorded, and every partition that reads it stops at its next boundary. -/
def impair (s : State) (n : Nat) : State :=
  let r := s.set n
  if r.state = 4 ∨ r.state = 0 then s
  else
    let s := s.setSet n { r with state := 4 }
    let s := (s.report (errOf Code.CEL_E_IMPAIRED 3)).raiseCel Reg.CEL_IRQ_STATUS_IMPAIRED
    stopReaders s n

/-- The set that owns a logical number of a bank. -/
def ownerSet (s : State) (b l : Nat) : Option Nat :=
  let v := s.alloc b l
  if v = 0 then none else if v ≤ 64 then some (v - 1) else some (v - 65)

/-! Retirement. -/

/-- The lowest free physical block of a plane. -/
def freeBlock (s : State) (plane : Nat) : Option Nat :=
  (List.range 128).find? (fun b => (s.pblock plane b).use == 0 &&
    !s.cel.relocs.any (fun r => r.plane == plane && r.dst == b) &&
    !s.cel.stale.any (fun x => x.plane == plane && x.block == b))

/-- Spare blocks left in a plane. -/
def spareOf (s : State) (plane : Nat) : Nat := SMap.get (fun _ => 5) s.cel.spare plane

/-- Whether a logical block has been withdrawn. -/
def isWithdrawn (s : State) (plane l : Nat) : Bool := SMap.get mapBlank s.cel.withdrawn (plane * 120 + l) != 0

/-- Withdraw a logical block: kind 1 an unallocated user block, which is user capacity, 2 one whose data was being
retired (R183). -/
def withdraw (s : State) (plane l kind : Nat) : State :=
  { s with cel := { s.cel with withdrawn := SMap.set mapBlank s.cel.withdrawn (plane * 120 + l) kind } }

/-- An unallocated user logical block of a plane: the highest (R183). -/
def idleLogical (s : State) (plane : Nat) : Option Nat :=
  if plane % 16 = 15 then none
  else
    let top := if plane % 16 = 0 then 112 else 120
    (List.range top).reverse.find? (fun l => s.alloc (plane / 16) l == 0 && !isWithdrawn s plane l)

/-- Take a spare block, or withdraw a logical block where the pool is empty (R183). `l` is the logical block of the
retired one, where it holds data. -/
def replaceBlock (s : State) (plane : Nat) (l : Option Nat) : State :=
  if 0 < spareOf s plane then
    { s with cel := { s.cel with spare := SMap.set (fun _ => 5) s.cel.spare plane (spareOf s plane - 1) } }
  else
    match idleLogical s plane with
    | some k =>
      let s := (withdraw s plane k 1).updBlock plane (s.physOf plane k) (fun x => { x with use := 0 })
      let s := s.wr Reg.CEL_CAPACITY_USER_BLOCKS (s.rd Reg.CEL_CAPACITY_USER_BLOCKS - 1)
      (s.report (celErr Code.CEL_E_CAPACITY 3 plane (s.physOf plane k) 0)).raiseCel Reg.CEL_IRQ_STATUS_CAPACITY
    | none =>
      match l with
      | none => s
      | some k =>
        let s := withdraw s plane k 2
        match ownerSet s (plane / 16) k with
        | some n => impair s n
        | none => s

/-- The logical block that a physical block holds. -/
def logicalOf (s : State) (plane b : Nat) : Option Nat :=
  let x := s.pblock plane b
  if (x.use = 1 ∨ x.use = 3) ∧ s.physOf plane x.logical = b then some x.logical else none

/-- A block enters stage 3 (R182): retired, its data relocated to a free block of its plane. It is reported with a code; with
code 0 another record reports it. -/
def retire (s : State) (plane b code : Nat) : State :=
  let x := s.pblock plane b
  if x.use = 5 ∨ x.use = 4 then s
  else
    let l := logicalOf s plane b
    let s := if x.stage = 1 then s.wr Reg.CEL_WEAR_STAGE1_COUNT (s.rd Reg.CEL_WEAR_STAGE1_COUNT - 1)
      else if x.stage = 2 then s.wr Reg.CEL_WEAR_STAGE2_COUNT (s.rd Reg.CEL_WEAR_STAGE2_COUNT - 1) else s
    let s := (s.inc Reg.CEL_WEAR_RETIRED_COUNT).updBlock plane b (fun y => { y with use := 5, stage := 0, queued := 0 })
    let s := (if code = 0 then s else s.report (celErr code 0 plane b 0)).raiseCel Reg.CEL_IRQ_STATUS_RETIRE
    let s := replaceBlock s plane l
    match l with
    | none => s
    | some k =>
      if isWithdrawn s plane k then s
      else { s with cel := { s.cel with
          relocs := (s.cel.relocs.filter (fun r => !(r.plane == plane && r.src == b))) ++
            [{ plane := plane, src := b, dst := 128, retire := true }] } }

/-- A page that neither retry nor rebuild recovers (R171, R182): counted, the set impaired, the block retired; the record of
what the page was read for reports it, one for a step (R186). -/
def uncorrectable (s : State) (plane l : Nat) : State :=
  let s := (s.inc Reg.CEL_UNCORR).raiseCel Reg.CEL_IRQ_STATUS_UNCORR
  let s := match ownerSet s (plane / 16) l with
    | some n => impair s n
    | none => s
  retire s plane (s.physOf plane l) 0

/-! Timetabled reads. -/

/-- What a plane counter that nothing has advanced reads as. -/
def countBlank : Nat → Nat := fun _ => 0

/-- The set of a partition whose layout holds a plane (R206, R208). -/
def setOnPlane (s : State) (p plane : Nat) : Option Nat :=
  (s.part p).sets.find? (fun n => (s.set n).planes.contains plane)

/-- The pages of a set's run on a plane. -/
def runLen (r : SetRec) (plane : Nat) : Nat :=
  match (r.planes.zip r.pages).find? (fun q => q.1 == plane) with
  | some q => q.2
  | none => 0

/-! The end of a set's blocks. -/

/-- A set whose last block is erased is FREE (R213, R218); what it stored is gone. -/
def setFreed (s : State) (n : Nat) : State :=
  let r := s.set n
  let s := s.wr Reg.CEL_CAPACITY_ALLOC_BLOCKS (s.rd Reg.CEL_CAPACITY_ALLOC_BLOCKS - r.lblocks)
  let s := (s.setSet n {})
  let mine (k : Nat) : Bool :=
    let v := s.alloc (k / 4194304 / 120 / 16) (k / 4194304 % 120)
    v == n + 1 || v == n + 65
  let s := { s with cel := { s.cel with
    data := SMap.keep (fun k => !mine k) s.cel.data
    alloc := s.cel.alloc.filter (fun e => e.2 != n + 1 && e.2 != n + 65) } }
  if s.exp.removing = some n then
    let s := { s with exp := { s.exp with removing := none } }
    if s.rd Reg.EXP_INST_STATUS_STATE = 3 then
      let s := s.wr Reg.EXP_INST_STATUS_STATE 4
      if r.state = 5 then s.raiseExp Reg.EXP_IRQ_STATUS_INST_DONE else s
    else s
  else s

/-- The set is freed once none of its blocks waits for an erase. -/
def settleStale (s : State) (n : Nat) : State :=
  if s.cel.stale.any (fun x => x.set == some n) then s else setFreed s n

/-- The physical blocks of a set's numbers, parity included. -/
def setBlocks (s : State) (n : Nat) : List Stale :=
  ((List.range 64).map (fun b =>
    (((List.range 120).filter (fun l => s.alloc b l == n + 1 || s.alloc b l == n + 65)).map (fun l =>
      ((List.range 16).filter (fun i => !(i == 0 && decide (112 ≤ l)))).map (fun i =>
        ({ plane := 16 * b + i, block := s.physOf (16 * b + i) l, set := some n } : Stale)))).flatten)).flatten

/-- Return a set's blocks: each is erased in slices (R213, R218). A set whose blocks were being erased goes on with those
that remain. -/
def returnBlocks (s : State) (n : Nat) : State :=
  let more := if s.cel.stale.any (fun x => x.set == some n) then [] else setBlocks s n
  let s := { s with
    cel := { s.cel with stale := s.cel.stale ++ more }, exp := { s.exp with removing := some n } }
  settleStale s n

/-! Operations that fail. -/

/-- Put a relocation in hand, or replace it. -/
def putReloc (s : State) (r : Reloc) : State :=
  { s with cel := { s.cel with
    relocs := (s.cel.relocs.filter (fun x => !(x.plane == r.plane && x.src == r.src))) ++ [r] } }

/-- Take a relocation out. -/
def dropReloc (s : State) (r : Reloc) : State :=
  { s with cel := { s.cel with relocs := s.cel.relocs.filter (fun x => !(x.plane == r.plane && x.src == r.src)) } }

/-- A block leaves the list of blocks to erase; the set whose last it was is freed. -/
def dropStale (s : State) (plane block : Nat) : State :=
  match s.cel.stale.find? (fun x => x.plane == plane && x.block == block) with
  | none => s
  | some x =>
    let s := { s with cel := { s.cel with
      stale := s.cel.stale.filter (fun y => !(y.plane == plane && y.block == block)) } }
    match x.set with
    | some n => settleStale s n
    | none => s

/-- A program that fails or overruns its limit retires its block (R182); a relocation goes on to another block. `op` is what
the bank holds from then on. -/
def programFail (s : State) (b : Nat) (o : BankOp) (op : Option BankOp) : State :=
  let s := { s.setBankOp b op with cel := { (s.setBankOp b op).cel with forced := s.cel.forced.filter (fun x => x != b) } }
  let s := retire s o.plane o.block Code.CEL_E_PROGRAM
  match s.cel.relocs.find? (fun r => r.plane == o.plane && r.dst == o.block) with
  | some r => putReloc s { r with dst := 128, page := 0 }
  | none => s

/-- An erase that fails or overruns its limit retires its block (R182). -/
def eraseFail (s : State) (b : Nat) (o : BankOp) (op : Option BankOp) : State :=
  dropStale (retire (s.setBankOp b op) o.plane o.block Code.CEL_E_ERASE) o.plane o.block

/-- A read of a busy bank, or one that reaches an interrupted block (R174): a bus fault. The block whose operation overran is
retired; its bank is busy until the die ends it. -/
def busFault (s : State) (p plane : Nat) : State :=
  let s := (s.inc Reg.CEL_BUSFAULTS).raiseCel Reg.CEL_IRQ_STATUS_BUS_FAULT
  let s := match s.bankOp (plane / 16) with
    | some o =>
      if o.suspended || o.dead then s
      else (if o.erase then eraseFail else programFail) s (plane / 16) o (some { o with dead := true })
    | none => s
  allFault s p (celErr Code.CEL_E_BANK_BUSY 2 plane 0 0)

/-- CELLAR_PAGE_READ (R168, R170, R174, R208): the next class-4 entry of a plane begins. -/
def pageRead (s : State) (p plane : Nat) : State :=
  let x := s.part p
  let n := SMap.get countBlank x.issued plane
  let entries := ((s.partImage p).entries.filter (fun e => e.cls == 4 && e.index == plane)).length
  if !x.inStep || x.stall.on || decide (entries ≤ n) then s
  else if s.bankBusy (plane / 16) then busFault s p plane
  else if s.cel.inFlight.any (fun r => r.plane == plane) then
    stallAssert (s.updPart p (fun y => { y with
      waitPlanes := if y.waitPlanes.contains plane then y.waitPlanes else y.waitPlanes ++ [plane] })) p .retry
  else
    let s := s.updPart p (fun y => { y with issued := SMap.set countBlank y.issued plane (n + 1) })
    match setOnPlane s p plane with
    | none => s
    | some k =>
      match runPage s k plane n with
      | none => s
      | some q =>
        if runLen (s.set k) plane ≤ n then s
        else if (s.pblock plane (s.physOf plane q.1)).use = 6 then busFault s p plane
        else { s with cel := { s.cel with
            inFlight := s.cel.inFlight ++ [{ plane := plane, part := p, set := k, n := n }] } }

/-- CELLAR_PAGE_READ (R168). -/
def execCellarPageRead (p plane : Nat) (s : State) : Answer := .next (s.engine (fun s => pageRead s p plane))

/-! Blocks that reach an expander. -/

/-- The plane and first line of a block, from its index entry (R196). -/
def blockPlace (r : SetRec) (j : Nat) : Nat × Nat :=
  let e := r.index.getD j 0
  (bitsOf e 48 10, bitsOf e 0 32)

/-- The pages of a block's lines: plane and page of the run. -/
def blockPages (r : SetRec) (j : Nat) : List (Nat × Nat) :=
  let q := blockPlace r j
  let last := (q.2 + storedBytes r j / 64 - 1) / 256
  (List.range (last + 1 - q.2 / 256)).map (fun i => (q.1, q.2 / 256 + i))

/-- Every page that a block of a set needs: its own, and its base block's (R202). -/
def neededPages (s : State) (set : Nat) (base : Option Nat) (j : Nat) : List (Nat × Nat) :=
  let r := s.set set
  blockPages r j ++ (if r.form < 2 then [] else match base with
    | some b => blockPages (s.set b) j
    | none => [])

/-- The lines that a block takes in its expander's input buffer, those of its base block included (R202). -/
def blockLines (s : State) (set : Nat) (base : Option Nat) (j : Nat) : Nat :=
  let r := s.set set
  storedBytes r j / 64 + (if r.form < 2 then 0 else match base with
    | some b => storedBytes (s.set b) j / 64
    | none => 0)

/-- A byte of a set's block as stored. -/
def storedByte (s : State) (set j i : Nat) : Nat :=
  let q := blockPlace (s.set set) j
  let off := q.2 * 64 + i
  runByte s set q.1 (off / 16384) (off % 16384)

/-- What a step takes from the Cellar through its arrays' sequences (R203): the step in progress, or a dropped one. -/
def liveFeed (s : State) (p : Nat) : Option LateStep :=
  let x := s.part p
  match layoutOf s p, x.wset with
  | some e, some n => some { set := n, base := x.wbase, arrays := e.arrays, tiles := x.tiles, arrived := x.arrived, seqNo := x.seqNo }
  | _, _ => none

/-- The blocks of an array's sequence, from the `k`-th on, whose lines have all arrived and find `room` lines free in the
input buffer of 256 lines (R202, R203); with the number of the next. One buffer takes at most 25 blocks. -/
def arriving (s : State) (f : LateStep) (arr : Nat) (live : Bool) : Nat → Nat → Nat → List BufBlock × Nat
  | 0, k, _ => ([], k)
  | fuel + 1, k, room =>
    let a := f.arrays.getD arr (0, 0)
    let j := a.1 + k
    let lines := blockLines s f.set f.base j
    if k < a.2 ∧ lines ≤ room ∧
        (neededPages s f.set f.base j).all (fun q => decide (q.2 < SMap.get countBlank f.arrived q.1)) then
      let r := s.set f.set
      let delta := !(decide (r.form < 2) || bitOf (r.index.getD j 0) 63)
      let b : BufBlock := { arr := arr, block := j, set := f.set, base := f.base, live := live
                            table := if delta then storedByte s f.set j 1 else 0
                            epoch := if delta then storedByte s f.set j 2 else 0 }
      let more := arriving s f arr live fuel (k + 1) (room - lines)
      (b :: more.1, more.2)
    else ([], k)

/-- The lines free in the input buffer of an array's expander. -/
def bufferRoom (s : State) (arr : Nat) : Nat :=
  256 - sumNat ((s.exp.buffered.filter (fun b => b.arr == arr)).map (fun b => blockLines s b.set b.base b.block))

/-- The arrays of a step look at what has arrived; the answer is how far each sequence has come. -/
def takeArrived (s : State) (f : LateStep) (live : Bool) : SMap Nat × State :=
  (f.tiles.flatMap (fun n => [2 * n, 2 * n + 1])).foldl (fun (q : SMap Nat × State) arr =>
    let r := arriving q.2 f arr live 32 (SMap.get countBlank q.1 arr) (bufferRoom q.2 arr)
    (SMap.set countBlank q.1 arr r.2, { q.2 with exp := { q.2.exp with buffered := q.2.exp.buffered ++ r.1 } })) (f.seqNo, s)

/-- Every array of a partition looks at what has arrived. -/
def bufferAll (s : State) (p : Nat) : State :=
  match liveFeed s p with
  | none => s
  | some f =>
    let r := takeArrived s f true
    r.2.updPart p (fun y => { y with seqNo := r.1 })

/-- The same for a dropped step, whose blocks are rebuilt and discarded (R200). -/
def bufferLate (s : State) (p : Nat) : State :=
  match (s.part p).late with
  | none => s
  | some f =>
    let r := takeArrived s f false
    r.2.updPart p (fun y => { y with late := some { f with seqNo := r.1 } })

/-- The cause read retry clears once nothing waits for it (R170, R204). -/
def settleRetry (s : State) (p : Nat) : State :=
  let x := s.part p
  if x.waitPlanes.isEmpty && x.waitRacks.isEmpty then stallClear s p .retry else s

/-- The page of a read in flight, by its logical block and page. -/
def pageOf (s : State) (r : ReadOp) : Option (Nat × Nat) := runPage s r.set r.plane r.n

/-- An uncorrectable page of a step (R171, R205): the set is impaired, every slot ends; a step that has been dropped already
has its record. -/
def readLost (s : State) (r : ReadOp) (l q : Nat) : State :=
  let b := s.physOf r.plane l
  let s := uncorrectable s r.plane l
  let s := (s.inc Reg.EXP_FAULTS).raiseExp Reg.EXP_IRQ_STATUS_FAULT
  if r.live then allFault s r.part (celErr Code.CEL_E_UNCORR 2 r.plane b q) else settleRetry s r.part

/-- A page of a step has arrived: its arrays' buffers take the blocks that are whole now. -/
def pageArrived (s : State) (r : ReadOp) (retried : Bool) : State :=
  if r.live then
    let s := s.updPart r.part (fun y => { y with
      arrived := SMap.set countBlank y.arrived r.plane (r.n + 1)
      retried := if retried then y.retried ++ [(r.plane, r.n)] else y.retried })
    settleRetry (bufferAll s r.part) r.part
  else
    let s := s.updPart r.part (fun y => { y with late := y.late.map (fun f => { f with
      arrived := SMap.set countBlank f.arrived r.plane (r.n + 1) }) })
    settleRetry (bufferLate s r.part) r.part

/-- CELLAR_READ_DONE (R170, R171): the read in flight on a plane ends. A rebuild has read the rest of the stripe while the
partition was held. -/
def readDone (s : State) (plane outcome : Nat) : State :=
  match s.cel.inFlight.find? (fun r => r.plane == plane) with
  | none => s
  | some r =>
    let s := { s with cel := { s.cel with inFlight := s.cel.inFlight.filter (fun x => x.plane != plane) } }
    match pageOf s r with
    | none => s
    | some q =>
      let s := readOutcome s plane q.1 outcome
      let s := if 8 ≤ outcome ∧ (s.part r.part).inStep = true then stallAssert s r.part .retry else s
      let s := s.updPart r.part (fun y => { y with waitPlanes := y.waitPlanes.filter (fun w => w != plane) })
      if 9 ≤ outcome then readLost s r q.1 q.2 else pageArrived s r (outcome != 0)

/-- CELLAR_READ_DONE (R170). -/
def execCellarReadDone (plane outcome : Nat) (s : State) : Answer :=
  .next (s.engine (fun s => readDone s plane outcome))

/-! The intervals of R172. -/

/-- The first beats of a partition's reads of a bank, counted from the start of a step with a plan, and the beats of the step.
A repeat count that no plan gives is 0. -/
def readBeats (img : PartImage) (plan : Option (List Slot)) (b : Nat) : Nat → Nat → List Segment → List Nat × Nat
  | _, base, [] => ([], base)
  | g, base, x :: rest =>
    let n := if x.repeatSrc = 0 then 1 else match plan with | some l => repeatOf l x | none => 0
    let here := if n = 0 then [] else
      (img.entries.filter (fun e => e.seg == g && e.cls == 4 && e.index / 16 == b)).map (fun e => base + e.start)
    let r := readBeats img plan b (g + 1) (base + n * x.lenBeats) rest
    (here ++ r.1, r.2)

/-- The beats of its step that a partition may have run, by what the step is doing. -/
def beatRange (x : Part) (img : PartImage) : Nat × Nat :=
  let pro := prologueBeats img
  let body := pro + bodyBeats img x.plan
  match x.stage with
  | .prologue => (0, pro - 16)
  | .sealed => (pro - 16, pro)
  | .body => (pro, body)
  | .scatter => (body, body + (img.segs.getLastD {}).lenBeats)
  | _ => (0, 0)

/-- The beats from now to a partition's next read of a bank (R172), `pos` being the beats that its step has run: within the
step, with the counts of a sealed plan, or in the next. None where it has none. -/
def nextRead (s : State) (p b pos : Nat) : Option Nat :=
  let x := s.part p
  let img := s.partImage p
  let r := beatRange x img
  let at' := clampNat r.1 r.2 pos
  let sealedPlan := x.stage == .sealed || x.stage == .body || x.stage == .scatter
  let cur := readBeats img (if sealedPlan then some x.plan else none) b 0 0 img.segs
  let nxt := readBeats img none b 0 0 img.segs
  let here := (cur.1.filter (fun k => decide (at' ≤ k))).map (fun k => k - at')
  let later := if x.inStep then nxt.1.map (fun k => k + (cur.2 - at')) else []
  match here ++ later with
  | [] => none
  | k :: rest => some (rest.foldl minNat k)

/-- Whether a page read of a bank is in flight. -/
def bankReading (s : State) (b : Nat) : Bool := s.cel.inFlight.any (fun r => r.plane / 16 == b)

/-- Whether an operation of `ns` nanoseconds may start on a bank (R172): no read of it is in flight, and no running partition
reads it sooner at its floor, where a beat lasts 32 × divider ÷ 3 ns. A partition that a forced relocation holds at a
boundary (R181) reads nothing. -/
def permits (s : State) (b : Nat) (pos : List Nat) (ns : Nat) : Bool :=
  !bankReading s b && [0, 1].all (fun p =>
    !(s.part p).busy || (!(s.part p).inStep && s.cel.forced.contains b) ||
    (match nextRead s p b (pos.getD p 0) with
     | none => true
     | some k => decide (3 * ns ≤ 32 * partFloor s p * k)))

/-- TIER1_READ (R176): bytes of one mapped tier-1 page, in an interval of R172; the answer is the stored bytes, zeros where they
are lost. -/
def tier1Read (s : State) (ctx va n outcome : Nat) (pos : List Nat) : State :=
  match access s ctx va false with
  | (.no _, t) => { t with resp := List.replicate n 0 }
  | (.ok l, t) =>
    if l.tier != 1 then t
    else
      let addr := l.addr + (va - l.va)
      let set := addr / 2 ^ 40
      match dataPage (t.set set).planes (t.set set).pages (addr % 2 ^ 40 / 16384) with
      | none => { t with resp := List.replicate n 0 }
      | some q =>
        if t.bankBusy (q.1 / 16) || !permits t (q.1 / 16) pos 8000 then t
        else
          match runPage t set q.1 q.2 with
          | none => { t with resp := List.replicate n 0 }
          | some r =>
            let t := readOutcome t q.1 r.1 outcome
            if 9 ≤ outcome then
              { (uncorrectable t q.1 r.1).report { celErr Code.CEL_E_UNCORR 1 q.1 (t.physOf q.1 r.1) r.2 with context := ctx } with
                resp := List.replicate n 0 }
            else { t with resp := (tier1Bytes t addr n).map (·.toNat) }

/-- TIER1_READ (R176). -/
def execTier1Read (ctx va n outcome : Nat) (pos : List Nat) (s : State) : Answer :=
  .next (s.engine (fun s => tier1Read s ctx va n outcome pos))

/-! Programs. -/

/-- The queued block of a bank that is relocated next (R181): retried pages first, then by counter, descending. -/
def nextQueued (s : State) (b : Nat) : Option (Nat × Nat) :=
  let best := s.cel.blocks.foldl (fun (m : Option (Nat × Nat × Nat)) e =>
    if e.1 / 2048 = b ∧ e.2.queued ≠ 0 ∧ (e.2.use = 1 ∨ e.2.use = 3) then
      let rank := (if e.2.queued = 2 then 2 ^ 64 else 0) + sweepsOf s e.2
      match m with
      | none => some (rank, e.1 / 128, e.1 % 128)
      | some o => if o.1 < rank then some (rank, e.1 / 128, e.1 % 128) else m
    else m) none
  best.map (fun o => (o.2.1, o.2.2))

/-- The relocation in hand in a bank, started where one is queued (R181). -/
def relocOf (s : State) (b : Nat) : Option Reloc :=
  match s.cel.relocs.find? (fun r => r.plane / 16 == b) with
  | some r => some r
  | none => match nextQueued s b with
    | some q => some { plane := q.1, src := q.2, dst := 128 }
    | none => none

/-- The stripe that a running install programs next in a bank: its logical number and page. -/
def installTarget (s : State) (b : Nat) : Option (Nat × Nat) := (s.exp.todo.find? (fun q => q.1 == b)).map (fun q => q.2)

/-- PROGRAM_START (R172, R176, R181): the next page of a relocation, whose source page is read first, or a stripe of the
running install, whose parity block stands for the stripe. `outcome` is that of the read. -/
def programStart (s : State) (b outcome : Nat) (pos : List Nat) : State :=
  if (s.bankOp b).isSome || !permits s b pos 900000 then s
  else
    match relocOf s b with
    | some r =>
      let l := (s.pblock r.plane r.src).logical
      match (if r.dst < 128 then some r.dst else freeBlock s r.plane) with
      | none => s
      | some d =>
        let s := (putReloc s { r with dst := d }).updBlock r.plane r.src (fun x => { x with queued := 0 })
        let s := readOutcome s r.plane l outcome
        if 9 ≤ outcome then
          (uncorrectable (dropReloc s r) r.plane l).report (celErr Code.CEL_E_UNCORR 0 r.plane r.src r.page)
        else s.setBankOp b (some { erase := false, plane := r.plane, block := d })
    | none =>
      match installTarget s b with
      | some q => s.setBankOp b (some { erase := false, plane := 16 * b + 15, block := s.physOf (16 * b + 15) q.1 })
      | none => s

/-- PROGRAM_START (R172). -/
def execProgramStart (b outcome : Nat) (pos : List Nat) (s : State) : Answer :=
  .next (s.engine (fun s => programStart s b outcome pos))

/-- A relocation whose last page is programmed: the map switches, and the old block is erased unless retired (R181). -/
def relocDone (s : State) (r : Reloc) : State :=
  let src := s.pblock r.plane r.src
  let kind := if r.plane % 16 = 15 then 3 else 1
  let s := s.updBlock r.plane r.dst (fun x => { x with
    use := kind, logical := src.logical, sweeps := 0, reads := 0, retried := 0, sinceRefresh := 0, queued := 0
    base := s.cel.margin, ckpt := 0, tag := src.tag, gen := src.gen })
  let s := (s.mapTo r.plane src.logical r.dst).inc Reg.CEL_RELOC
  let s := dropReloc s r
  if r.retire then s
  else { s with cel := { s.cel with stale := s.cel.stale ++ [{ plane := r.plane, block := r.src }] } }

/-! Stripes of an install (R167, R207, R213). -/

/-- The data planes of logical number `l` of bank `b`. -/
def stripeData (b l : Nat) : List Nat :=
  ((List.range 15).filter (fun i => !(i == 0 && decide (112 ≤ l)))).map (fun i => 16 * b + i)

/-- The page of DATA at which the run on a plane begins, where the set has one. -/
def runBase (r : SetRec) (plane : Nat) : Option Nat :=
  let before := r.planes.takeWhile (fun q => q != plane)
  if before.length < r.planes.length then some (sumNat (r.pages.take before.length)) else none

/-- Page `q` of logical number `l` of a plane within a set's DATA: its page there, none where the run is shorter or absent. -/
def pageInData (s : State) (set plane l q : Nat) : Option Nat :=
  let r := s.set set
  let n := 256 * ((dataNumbers s set (plane / 16)).takeWhile (fun k => k != l)).length + q
  if n < runLen r plane then (runBase r plane).map (fun k => k + n) else none

/-- Store a page: its bytes take the place of what stood there. -/
def putPage (m : SMap Nat) (at' : Nat) (bs : List Nat) : SMap Nat :=
  m.filter (fun e => decide (e.1 < at')) ++
  (((List.range 16384).map (fun i => (at' + i, bs.getD i 0))).filter (fun e => e.2 != 0)) ++
  m.filter (fun e => decide (at' + 16384 ≤ e.1))

/-- The stored bytes of a page. -/
def pageBytes (s : State) (plane l q : Nat) : List Nat :=
  (List.range 16384).map (fun i => SMap.get celBlank s.cel.data (celKey plane l q i))

/-- The generation of a block that is programmed for a logical number: above that of every block of the plane that carries
the number's tag (R185). -/
def nextGen (s : State) (plane l : Nat) : Nat :=
  1 + ((List.range 128).map (fun b => let x := s.pblock plane b; if x.tag = l + 1 then x.gen else 0)).foldl maxNat 0

/-- One data page of a stripe as the program leaves it: the bytes of the shard in hand, zeros beyond its run; a page of
another shard keeps what it holds (log entry 117). -/
def stripePage (s : State) (set k plane l q : Nat) : List Nat :=
  match pageInData s set plane l q with
  | none => []
  | some d => if d / 4096 = k then ((s.exp.shard.drop (d % 4096 * 16384)).take 16384).map (·.toNat) else pageBytes s plane l q

/-- The pages of the shard in hand among those of a stripe. -/
def shardPages (s : State) (set k b l q : Nat) : Nat :=
  ((stripeData b l).filter (fun plane => match pageInData s set plane l q with
    | some d => d / 4096 == k
    | none => false)).length

/-- A stripe is programmed with its parity page (R167): the exclusive-or of its data pages. Page 0 carries the tags. -/
def storeStripe (s : State) (set k b l q : Nat) : State :=
  let pages := (stripeData b l).map (fun plane => (plane, stripePage s set k plane l q))
  let parity := (List.range 16384).map (fun i => pages.foldl (fun v x => v ^^^ x.2.getD i 0) 0)
  let all := pages ++ [(16 * b + 15, parity)]
  let s := { s with cel := { s.cel with
    data := all.foldl (fun m x => putPage m (celKey x.1 l q 0) x.2) s.cel.data } }
  if q = 0 then
    overList (all.map (fun x => x.1)) (fun plane t =>
      let g := nextGen t plane l
      t.updBlock plane (t.physOf plane l) (fun x => { x with tag := l + 1, gen := g })) s
  else s

/-- Shards of a set's DATA, of 64 MiB. -/
def shardCount (r : SetRec) : Nat := ceilDiv r.dataBytes (2 ^ 26)

/-- The end of an operation that leaves nothing to erase. -/
def instEnd (s : State) (code : Nat) : State :=
  ((s.trace 32 code [0, 0, 0, 0]).wrs [(Reg.EXP_INST_STATUS_STATE, 4), (Reg.EXP_INST_STATUS_CODE, code)]).raiseExp Reg.EXP_IRQ_STATUS_INST_DONE

/-- An install that fails ends with its code, and its blocks are returned (R213, R214). -/
def instFail (s : State) (set code : Nat) : State :=
  let s := { s with exp := { s.exp with inst := none, instAbort := false, shard := [], todo := [] } }
  let s := (s.wrs [(Reg.EXP_INST_STATUS_STATE, 3), (Reg.EXP_INST_STATUS_CODE, code)]).raiseExp Reg.EXP_IRQ_STATUS_INST_DONE
  returnBlocks s set

/-- A shard is programmed: an abort acts here, the last shard makes the set READY, and otherwise the next one is due (R213,
R214). -/
def shardDone (s : State) (set k : Nat) : State :=
  let s := { s with exp := { s.exp with shard := [] } }
  if s.exp.instAbort then instFail s set Code.EXP_E_ABORTED
  else if shardCount (s.set set) ≤ k + 1 then
    let s := s.setSet set { s.set set with state := 3, passKc := s.timeKc }
    instEnd { s with exp := { s.exp with inst := none } } 0
  else { s with exp := { s.exp with inst := some (set, k + 1) } }

/-- The program of an install's stripe is done: every plane of the bank has taken its page. -/
def stripeDone (s : State) (b us10 : Nat) : State :=
  match s.exp.inst, installTarget s b with
  | some (set, k), some (l, q) =>
    let n := shardPages s set k b l q
    let s := overList (stripeData b l ++ [16 * b + 15]) (fun plane t =>
      let x := t.physOf plane l
      let t := t.updBlock plane x (fun y => { y with prog10us := us10 })
      if 60 < us10 then enterStage t plane x 2 else t) (storeStripe s set k b l q)
    let s := s.add Reg.EXP_INST_PROGRESS (16384 * n)
    let s := { s with exp := { s.exp with todo := s.exp.todo.filter (fun x => x != (b, l, q)) } }
    if s.exp.todo.isEmpty then shardDone s set k else s
  | _, _ => s

/-- The next page of a relocation is programmed. -/
def pageMoved (s : State) (o : BankOp) (r : Reloc) (us10 : Nat) : State :=
  let s := s.updBlock o.plane o.block (fun x => { x with prog10us := us10 })
  let s := if 60 < us10 then enterStage s o.plane o.block 2 else s
  if 255 ≤ r.page then relocDone s r else putReloc s { r with page := r.page + 1 }

/-- PROGRAM_DONE (R182). -/
def programDone (s : State) (b us10 : Nat) (ok : Bool) : State :=
  match s.bankOp b with
  | none => s
  | some o =>
    if o.erase then s
    else if o.dead then s.setBankOp b none
    else if !ok || decide (90 < us10) then programFail s b o none
    else
      let s := (s.trace 24 0 [o.plane, o.block, us10, 0]).setBankOp b none
      let s := { s with cel := { s.cel with forced := s.cel.forced.filter (fun x => x != b) } }
      match s.cel.relocs.find? (fun r => r.plane == o.plane && r.dst == o.block) with
      | some r => pageMoved s o r us10
      | none => stripeDone s b us10

/-- PROGRAM_DONE (R182). -/
def execProgramDone (b us10 : Nat) (ok : Bool) (s : State) : Answer :=
  .next (s.engine (fun s => programDone s b us10 ok))

/-- PROGRAM_OVERRUN (R182). -/
def execProgramOverrun (b : Nat) (s : State) : Answer :=
  .next (s.engine (fun s => match s.bankOp b with
    | some o => if o.erase then s else if o.dead then s.setBankOp b none else programFail s b o none
    | none => s))

/-! Erases. -/

/-- ERASE_START (R172, R173): a block waiting to be erased, or the suspended erase of the bank. The limit is that of a
suspension and 150 µs. -/
def eraseStart (s : State) (b : Nat) (pos : List Nat) : State :=
  if !permits s b pos 190000 then s
  else
    match s.bankOp b with
    | some o => if o.suspended then s.setBankOp b (some { o with suspended := false, suspending := false }) else s
    | none =>
      match s.cel.stale.find? (fun x => x.plane / 16 == b) with
      | some x => s.setBankOp b (some { erase := true, plane := x.plane, block := x.block })
      | none => s

/-- ERASE_START (R172). -/
def execEraseStart (b : Nat) (pos : List Nat) (s : State) : Answer := .next (s.engine (fun s => eraseStart s b pos))

/-- ERASE_SUSPEND (R173): the bank stays busy until the die has suspended. -/
def execEraseSuspend (b : Nat) (s : State) : Answer :=
  .next (s.engine (fun s => match s.bankOp b with
    | some o => if o.erase && !o.suspended && !o.dead then s.setBankOp b (some { o with suspending := true }) else s
    | none => s))

/-- ERASE_SUSPENDED (R173). -/
def execEraseSuspended (b : Nat) (s : State) : Answer :=
  .next (s.engine (fun s => match s.bankOp b with
    | some o =>
      if o.suspending && !o.dead then s.setBankOp b (some { o with suspending := false, suspended := true }) else s
    | none => s))

/-- What an erase leaves of a block: counters at 0, one more cycle, no tag; free unless the map names it or it is retired. -/
def eraseBlock (s : State) (plane b : Nat) : State :=
  let mapped := (logicalOf s plane b).isSome
  s.updBlock plane b (fun x => { x with
    use := if mapped || x.use == 5 then x.use else 0, tag := 0, gen := 0, sweeps := 0, reads := 0, retried := 0, sinceRefresh := 0, queued := 0
    pe := x.pe + 1, base := s.cel.margin, ckpt := 0 })

/-- ERASE_DONE (R182). -/
def eraseDone (s : State) (b : Nat) (ok : Bool) : State :=
  match s.bankOp b with
  | none => s
  | some o =>
    if !o.erase || o.suspended then s
    else if o.dead then s.setBankOp b none
    else if ok then
      dropStale (eraseBlock ((s.setBankOp b none).inc Reg.CEL_ERASES) o.plane o.block) o.plane o.block
    else eraseFail s b o none

/-- ERASE_DONE (R182). -/
def execEraseDone (b : Nat) (ok : Bool) (s : State) : Answer := .next (s.engine (fun s => eraseDone s b ok))

/-- ERASE_OVERRUN (R182). -/
def execEraseOverrun (b : Nat) (s : State) : Answer := .next (s.engine (fun s => eraseDone s b false))

/-! Read disturb. -/

/-- A checkpoint of every counter (R180). -/
def checkpoint (s : State) : State :=
  { s with cel := { s.cel with blocks := s.cel.blocks.map (fun e => (e.1, { e.2 with ckpt := e.2.sweeps })) } }

/-- DISTURB_CHECKPOINT (R180): the last checkpoint is then no shutdown checkpoint (R431). -/
def execDisturbCheckpoint (s : State) : Answer :=
  .next (s.engine (fun s => { checkpoint s with cel := { (checkpoint s).cel with orderly := false } }))

/-- SHUTDOWN_CHECKPOINT (R431): a final checkpoint, so that the next start follows an orderly shutdown. -/
def execShutdownCheckpoint (s : State) : Answer :=
  .next (s.engine (fun s => if s.pwr.brakeStuck then
    { checkpoint s with cel := { (checkpoint s).cel with orderly := true } } else s))

/-- Θ in sweeps. -/
def refreshAt (s : State) : Nat := 1000 * s.rd Reg.CEL_DISTURB_CFG_THRESH_K

/-- REFRESH_THRESHOLD (R181, R182): a block whose counter has reached Θ, or Θ ÷ 2 in stages 1 and 2. -/
def refreshThreshold (s : State) (plane b : Nat) : State :=
  let x := s.pblock plane b
  let bound := if x.stage = 0 then refreshAt s else refreshAt s / 2
  if (x.use = 1 ∨ x.use = 3) ∧ bound ≤ sweepsOf s x ∧ x.queued = 0 then
    s.updBlock plane b (fun y => { y with queued := 1 })
  else s

/-- REFRESH_THRESHOLD (R181). -/
def execRefreshThreshold (plane block : Nat) (s : State) : Answer :=
  .next (s.engine (fun s => refreshThreshold s plane block))

/-- FORCED_RELOCATION (R181): at 1.5 × Θ; each partition that reads the bank is held at its next boundary until one program
has run. -/
def forcedRelocation (s : State) (plane b : Nat) : State :=
  let x := s.pblock plane b
  if (x.use = 1 ∨ x.use = 3) ∧ 3 * refreshAt s ≤ 2 * sweepsOf s x then
    let s := s.updBlock plane b (fun y => { y with queued := if y.queued = 0 then 1 else y.queued })
    { s with cel := { s.cel with
      forced := if s.cel.forced.contains (plane / 16) then s.cel.forced else s.cel.forced ++ [plane / 16] } }
  else s

/-- FORCED_RELOCATION (R181). -/
def execForcedRelocation (plane block : Nat) (s : State) : Answer :=
  .next (s.engine (fun s => forcedRelocation s plane block))

/-- The value that THRESH_K stores (R187). -/
def clampThresh (v : Nat) : Nat := if v < 1000 then 1000 else if 6000 < v then 6000 else v

/-- THRESH_K_WRITE (R187). -/
def execThreshKWrite (value : Nat) (s : State) : Answer :=
  .next (s.host Reg.CEL_DISTURB_CFG_THRESH_K.off (fun s => s.wr Reg.CEL_DISTURB_CFG_THRESH_K (clampThresh value)))

/-! Calibration rows (R177). -/

/-- Byte `i` of a die's calibration row as the factory measured it: open (log entry 12). -/
def calRaw (d i : Nat) : Nat := (Config.calibration d (i / 4)).toNat / 2 ^ (8 * (i % 4)) % 256

/-- The factory's BAD_LIST entry: a physical plane of 66 and a block. -/
def calBad (d k : Nat) : Nat :=
  let v := calRaw d (0x200 + 4 * k) + 256 * calRaw d (0x201 + 4 * k)
  v % 128 % 66 + v / 128 % 128 * 128

/-- Byte `i` of a calibration row but its CRC: what R177 states, and within its ranges what the factory measured. -/
def calBody (d i : Nat) : Nat :=
  if i < 0x10 then calRaw d i
  else if i < 0x14 then [1, 0, d, calRaw d 0x13 % 129].getD (i - 0x10) 0
  else if i < 0x20 then 0
  else if i < 0x60 then calRaw d i % 66
  else if i < 0x1D0 then calRaw d i
  else if i < 0x200 then 0
  else if i < 0x400 then calBad d ((i - 0x200) / 4) / 256 ^ (i % 4) % 256
  else 0

/-- Word `w` of the calibration row of a die: the last is the CRC32C of the rest. -/
def calWord (d w : Nat) : Nat :=
  if w = 0x3FF then crc32c ((List.range 0xFFC).map (fun i => BitVec.ofNat 8 (calBody d i)))
  else calBody d (4 * w) + 256 * calBody d (4 * w + 1) + 65536 * calBody d (4 * w + 2) + 16777216 * calBody d (4 * w + 3)

/-! Block queries. -/

/-- The answer of a query (R188): the selected block's words. -/
def queryWords (s : State) (plane b : Nat) : State :=
  let x := s.pblock plane b
  s.wrs [(Reg.CEL_BQ_DATA0_SWEEPS_K, minNat (sweepsOf s x / 1000) 65535), (Reg.CEL_BQ_DATA0_PE, minNat x.pe 65535),
    (Reg.CEL_BQ_DATA1_STATE, x.use), (Reg.CEL_BQ_DATA1_STAGE, x.stage), (Reg.CEL_BQ_DATA1_PROG_10US, x.prog10us),
    (Reg.CEL_BQ_DATA1_RETRY, if x.sinceRefresh = 0 then 0 else minNat (100000 * x.retried / x.sinceRefresh) 255),
    (Reg.CEL_BQ_DATA1_PBLOCK, b)]

/-- A block query (R188). A logical number above 119 names no block: the answer is open (log entry 30). -/
def blockQuery (s : State) (plane : Nat) (phys : Bool) (block : Nat) : State :=
  let s := s.wrs [(Reg.CEL_BQ_SEL_PLANE, plane), (Reg.CEL_BQ_SEL_PHYS, b2n phys), (Reg.CEL_BQ_SEL_BLOCK, block)]
  if s.ready then
    if phys then queryWords s plane block
    else if block < 120 then queryWords s plane (s.physOf plane block)
    else
      let a := s.freshNat
      let b := a.2.freshNat
      b.2.wrs [(Reg.CEL_BQ_DATA0_SWEEPS_K, a.1 / 65536), (Reg.CEL_BQ_DATA0_PE, a.1), (Reg.CEL_BQ_DATA1_STATE, b.1 / 2 ^ 28),
        (Reg.CEL_BQ_DATA1_STAGE, b.1 / 2 ^ 26), (Reg.CEL_BQ_DATA1_PROG_10US, b.1 / 65536), (Reg.CEL_BQ_DATA1_RETRY, b.1 / 256),
        (Reg.CEL_BQ_DATA1_PBLOCK, b.1)]
  else s

/-- BLOCK_QUERY (R188). -/
def execBlockQuery (plane : Nat) (phys : Bool) (block : Nat) (s : State) : Answer :=
  .next (s.host Reg.CEL_BQ_SEL_PLANE.off (fun s => blockQuery s plane phys block))

/-! The start. -/

/-- The counters after a start (R180): those of the last checkpoint, with the margin where the shutdown was not
orderly. -/
def startCounters (s : State) : State :=
  { s with cel := { s.cel with
    blocks := s.cel.blocks.map (fun e => (e.1, { e.2 with sweeps := e.2.ckpt, reads := 0 }))
    margin := s.cel.margin + (if s.cel.orderly then 0 else 30000) } }

/-- The operation that a reset finds in a bank leaves its block interrupted (R184); a retired block stays retired. -/
def interruptBank (b : Nat) (s : State) : State :=
  match s.bankOp b with
  | none => s
  | some o => s.updBlock o.plane o.block (fun x => { x with use := if x.use = 5 then 5 else 6 })

/-- The logical block that the map names an interrupted block for: one of an install, or of a set that was being returned. -/
def interruptedAt (s : State) (plane b : Nat) : Option Nat :=
  let l := (s.pblock plane b).logical
  if s.physOf plane l = b then some l else none

/-- Point a logical block at a free block of its plane (R183, R184). -/
def remap (s : State) (plane l : Nat) : State :=
  match freeBlock s plane with
  | none => s
  | some d => (s.mapTo plane l d).updBlock plane d (fun x => { x with use := if plane % 16 = 15 then 3 else 1, logical := l })

/-- The 256 reads that verify an erased block (R184): one sweep. -/
def verifyReads (s : State) (plane b : Nat) : State :=
  (s.add Reg.CEL_READS 256).updBlock plane b (fun x => { x with sweeps := x.sweeps + 1, sinceRefresh := x.sinceRefresh + 256 })

/-- An operation that the reset interrupted (R184): its block is erased and verified; the map names it no longer. -/
def recoverBank (bad : List Nat) (b : Nat) (s : State) : State :=
  match s.bankOp b with
  | none => s
  | some o =>
    let s := s.setBankOp b none
    if (s.pblock o.plane o.block).use = 5 then s
    else
      let s := match s.cel.relocs.find? (fun r => !o.erase && r.plane == o.plane && r.dst == o.block) with
        | some r => putReloc s { r with dst := 128, page := 0 }
        | none => match interruptedAt s o.plane o.block with
          | some l => remap s o.plane l
          | none => s
      let s := verifyReads (eraseBlock (s.inc Reg.CEL_ERASES) o.plane o.block) o.plane o.block
      dropStale (if bad.contains b then retire s o.plane o.block Code.CEL_E_ERASE else s) o.plane o.block

/-- A relocation that the reset caught between two pages: its destination is erased, and it begins again. -/
def restartRelocs (s : State) : State :=
  let half := s.cel.relocs.filter (fun r => decide (r.dst < 128))
  { s with cel := { s.cel with
    relocs := s.cel.relocs.map (fun r => { r with dst := 128, page := 0 })
    stale := s.cel.stale ++ half.map (fun r => ({ plane := r.plane, block := r.dst } : Stale)) } }

/-- Whether a block's tag governs its logical number: the highest generation of its plane does, and of equal ones that which
the map named (R185, log entry 118). -/
def governs (s : State) (plane b : Nat) : Bool :=
  let x := s.pblock plane b
  let m := s.physOf plane (x.tag - 1)
  x.tag != 0 && (List.range 128).all (fun c =>
    let y := s.pblock plane c
    c == b || y.tag != x.tag || decide (y.gen < x.gen) || (y.gen == x.gen && (m == b || (m != c && decide (b < c)))))

/-- Erase a block that the scan finds without use. -/
def scanErase (s : State) (plane b : Nat) : State :=
  dropStale (eraseBlock (s.inc Reg.CEL_ERASES) plane b) plane b

/-- The map rebuilt by scanning block tags (R185): the highest generation governs each logical number, other tagged blocks
and half-written destinations are erased, and every block in use is refreshed promptly. Blocks that were being retired
are still relocated. -/
def scanRebuild (s : State) (lost : List (Nat × Nat)) : State :=
  let tagged := ((s.cel.blocks.filter (fun e => e.2.tag != 0)).map (fun e => (e.1 / 128, e.1 % 128)))
  let half := (s.cel.relocs.filter (fun r => decide (r.dst < 128))).map (fun r => (r.plane, r.dst))
  let keep := tagged.filter (fun q => governs s q.1 q.2)
  let drop := tagged.filter (fun q => !governs s q.1 q.2)
  let s := overList keep (fun q t => t.mapTo q.1 ((t.pblock q.1 q.2).tag - 1) q.2) s
  let s := overList (drop ++ half) (fun q t => scanErase t q.1 q.2) s
  let s := overList (s.cel.stale.filter (fun x => x.set.isNone)) (fun x t => scanErase t x.plane x.block) s
  let t := refreshAt s
  let s := { s with cel := { s.cel with
    margin := t
    blocks := s.cel.blocks.map (fun e => (e.1, { e.2 with sweeps := 0, ckpt := 0, reads := 0, base := 0 }))
    relocs := (s.cel.relocs.filter (fun r => r.retire)).map (fun r => { r with dst := 128, page := 0 }) } }
  let s := overList lost (fun q t => t.updBlock q.1 q.2 (fun x => { x with pe := 1500, stage := 0 })) s
  let count (k : Nat) : Nat := (s.cel.blocks.filter (fun e => e.2.stage == k && e.2.use != 5)).length
  (s.wrs [(Reg.CEL_STATUS_REBUILT, 1), (Reg.CEL_WEAR_STAGE1_COUNT, count 1), (Reg.CEL_WEAR_STAGE2_COUNT, count 2)]).report
    (errOf Code.CEL_E_JOURNAL 0)

/-- A factory bad block (R178): drawn from the plane's spare pool before anything is stored in it. -/
def factoryBad (q : Nat × Nat) (s : State) : State :=
  let x := s.pblock q.1 q.2
  if x.use = 4 ∨ x.use = 5 ∨ 1024 ≤ q.1 ∨ 128 ≤ q.2 then s
  else
    let l := logicalOf s q.1 q.2
    let s := s.updBlock q.1 q.2 (fun y => { y with use := 4 })
    let s := { s with cel := { s.cel with spare := SMap.set (fun _ => 5) s.cel.spare q.1 (spareOf s q.1 - 1) } }
    match l with
    | some k => remap s q.1 k
    | none => s

/-- What the start leaves in the capacity registers. -/
def capacityRegs (s : State) : State :=
  let used := (List.range 64).foldl (fun n k => n + (s.set k).lblocks) 0
  s.wrs [(Reg.CEL_CAPACITY_USER_BLOCKS, 0x1C000 - (s.cel.withdrawn.filter (fun e => e.2 == 1)).length), (Reg.CEL_CAPACITY_ALLOC_BLOCKS, used)]

/-- CELLAR_START (R178, R184, R185): step 4 of the start. -/
def cellarStart (s : State) (badCal bad : List Nat) (scan : Bool) (lost factory : List (Nat × Nat)) : State :=
  if s.rd Reg.CEL_STATUS_PHASE != 0 then s
  else if !badCal.isEmpty then
    ((s.wr Reg.CEL_STATUS_PHASE 5).report (errOf Code.CEL_E_CALIB 0)).raiseCel Reg.CEL_IRQ_STATUS_READY
  else
    let s := startCounters (overList factory factoryBad s)
    let s := if scan then scanRebuild s lost else s
    let s := restartRelocs ((List.range 64).foldl (fun t b => recoverBank bad b t) s)
    let s := { s with cel := { s.cel with orderly := false } }
    ((capacityRegs s).wrs [(Reg.CEL_STATUS_INT_BLOCKS, 0), (Reg.CEL_STATUS_PHASE, 4),
      (Reg.CEL_WEAR_RETIRED_FACTORY, (s.cel.blocks.filter (fun e => e.2.use == 4)).length)]).raiseCel Reg.CEL_IRQ_STATUS_READY

/-- CELLAR_START (R184), after step 3 of the start (R46). -/
def execCellarStart (badCal bad : List Nat) (scan : Bool) (lost factory : List (Nat × Nat)) (s : State) : Answer :=
  .next (s.engine (fun s => if s.ready && s.chip.tilesStarted == 32 then cellarStart s badCal bad scan lost factory else s))

end Sys2Proof.Machine
end

