-- ==== Sys2Proof/Machine/Expander.lean ====
section
/-! DEFINITION. The expanders and the life of a weight set: rebuilding a block (R190 to R195, R201 to R205), decode tables
(R198 to R200), installation and removal (R206, R207, R212 to R214, R218), the checks at start and the re-checks (R215,
R216, R459), and the model slots (R217, R219). -/

namespace Sys2Proof.Machine

/-! Decode tables. -/

/-- What a table slot that nothing has loaded holds. -/
def tableBlank : Nat → List Nat := fun _ => []

/-- A table image by its identifier and slot. -/
def State.table (s : State) (id slot : Nat) : List Nat := SMap.get tableBlank s.exp.tables (id * 2 + slot)

/-- The tag field of a slot. -/
def tagFld (id slot : Nat) : Fld := if slot = 0 then Reg.EXP_TBL_TAG_A id else Reg.EXP_TBL_TAG_B id

/-- The slot whose tag equals an epoch (R201). -/
def tableSlot (s : State) (id epoch : Nat) : Option Nat :=
  if epoch = 0 ∨ 32 ≤ id then none
  else if s.rd (tagFld id 0) = epoch then some 0
  else if s.rd (tagFld id 1) = epoch then some 1
  else none

/-- The sets that a context to come would use in a partition. -/
def contextSets (s : State) (p : Nat) (ctx : Option Nat) : List Nat :=
  match ctx with
  | none => []
  | some c => match boundSlot s c with
    | none => []
    | some k => match s.image k with
      | none => []
      | some im => match im.layouts.find? (fun e => e.partition == p) with
        | none => []
        | some e => (slotNext s (effectiveSlot s im e (some c))).toList ++ (slotNext s e.baseSlot).toList

/-- The sets that a partition's running context, accepted activation or pending swap uses (R200). -/
def usedSets (s : State) (p : Nat) : List Nat :=
  let x := s.part p
  let swaps := if x.busy then (slotNext s x.mslot).toList ++ (slotNext s x.bslot).toList else []
  x.sets ++ swaps ++ contextSets s p x.pendCtx ++ contextSets s p x.incoming

/-- The reference count of a table slot (R200). -/
def tableRefs (s : State) (id slot : Nat) : Nat :=
  let tag := s.rd (tagFld id slot)
  if tag = 0 then 0
  else
    ([0, 1].filter (fun p => (usedSets s p).any (fun n => (s.set n).tables.contains (id, tag)))).length +
    (s.exp.buffered.filter (fun b => b.epoch == tag && b.table == id)).length

/-! Rebuilding a block. -/

/-- What an expander makes of a block: its codes and trailer, the clamps and side entries, and a fault. -/
structure Rebuilt where
  bytes   : List Nat := []
  trailer : List Nat := []
  clamps  : Nat := 0
  sides   : Nat := 0
  exc     : Bool := false
  fault   : Option Nat := none
  deriving DecidableEq, Repr

/-- A block of zeros. -/
def zeroBlock (code : Nat) : Rebuilt :=
  { bytes := List.replicate 2048 0, trailer := List.replicate 192 0, fault := some code }

/-- A raw block: its codes and its trailer (R191). -/
def rawBlock (bs : List Nat) (codes : Nat) : Rebuilt := { bytes := bs.take codes, trailer := (bs.drop codes).take 192 }

/-- Entry `i` of a side list: position and code nibble, and whether its reserved bits are 0 (R194). -/
def sideEntry (bs : List Nat) (i : Nat) : Nat := nth bs (0x20 + 3 * i) + 256 * nth bs (0x21 + 3 * i) + 65536 * nth bs (0x22 + 3 * i)

/-- The code word that covers a weight, by FORM (R193). -/
def wordOf (form pos : Nat) : Nat := if form = 2 then pos / 8 else pos / 4

/-- Whether a list of positions is strictly ascending. -/
def ascending : List Nat → Bool
  | a :: b :: rest => decide (a < b) && ascending (b :: rest)
  | _ => true

/-- The conditions of R194 under which a delta block is malformed. -/
def malformed (form j : Nat) (bs : List Nat) : Bool :=
  let n := nth bs 3
  let sides := (List.range n).map (sideEntry bs)
  let rest := (bs.drop 8).take 24
  nth bs 0 != form || decide (32 < n) || (nth bs 4 + 256 * nth bs 5 + 65536 * nth bs 6 + 16777216 * nth bs 7) != j ||
  rest.any (fun b => b != 0) || (List.range (32 - n)).any (fun i => sideEntry bs (n + i) != 0) ||
  sides.any (fun e => e / 65536 != 0) || !ascending (sides.map (fun e => e % 4096)) ||
  sides.any (fun e => nth bs (0x80 + wordOf form (e % 4096)) != 0xFF) || sides.any (fun e => e / 4096 % 16 == 8)

/-- One weight of a rebuilt delta block: its code, and whether it was clamped (R193 to R195). -/
def deltaCode (form : Nat) (table base bs sides : List Nat) (pos : Nat) : Int × Bool :=
  let e := nth bs (0x80 + wordOf form pos)
  match (if e = 0xFF then sides.find? (fun x => x % 4096 == pos) else none) with
  | some x => (signedCode 4 (x / 4096), false)
  | none =>
    let width := if form = 2 then 8 else 4
    let d := if e = 0xFF then 0 else signedCode 8 (nth table (width * e + pos % width))
    clampInt (-7) 7 (weightCode 3 (nth base) (pos / 64) (pos % 64) + d)

/-- A delta block rebuilt on its base block (R190, R195). -/
def deltaBlock (form : Nat) (table base bs : List Nat) : Rebuilt :=
  let sides := (List.range (nth bs 3)).map (sideEntry bs)
  let codes := (List.range 4096).map (deltaCode form table base bs sides)
  let code (pos : Nat) : Int := (codes.getD pos (0, false)).1
  let bytes := (List.range 2048).map (fun i => codeField 4 (code (2 * i)) + 16 * codeField 4 (code (2 * i + 1)))
  let sums := (List.range 64).map (fun c => codeField 16 ((List.range 64).foldl (fun (n : Int) k => n + code (64 * k + c)) 0))
  { bytes := bytes
    trailer := (base.drop 2048).take 64 ++ (sums.map (fun v => [v % 256, v / 256])).flatten
    clamps := (codes.filter (fun q => q.2)).length
    sides := sides.length }

/-- The stored bytes of a block. -/
def blockOf (s : State) (set j : Nat) : List Nat := (List.range (storedBytes (s.set set) j)).map (storedByte s set j)

/-- A block as its expander rebuilds it (R191, R195, R196, R201, R205). -/
def rebuild (s : State) (set : Nat) (base : Option Nat) (j : Nat) : Rebuilt :=
  let r := s.set set
  let bs := blockOf s set j
  if bitOf (r.index.getD j 0) 63 then { rawBlock bs 2048 with exc := true }
  else if r.form = 0 then rawBlock bs 2048
  else if r.form = 1 then rawBlock bs 4096
  else if malformed r.form j bs then zeroBlock Code.EXP_E_DECODE
  else
    match tableSlot s (nth bs 1) (nth bs 2) with
    | none => zeroBlock Code.EXP_E_EPOCH
    | some k => deltaBlock r.form (s.table (nth bs 1) k) (match base with | some b => blockOf s b j | none => []) bs

/-- Two W4 blocks packed into the pair layout, their trailers in order (R103, R191). -/
def packPair (a b : Rebuilt) : List Nat × List Nat :=
  ((List.range 4096).map (fun i =>
      codeField 4 (weightCode 3 (nth a.bytes) (i / 64) (i % 64)) + 16 * codeField 4 (weightCode 3 (nth b.bytes) (i / 64) (i % 64))),
    a.trailer ++ b.trailer)

/-- The counters of a rebuilt block. -/
def countRebuilt (s : State) (r : Rebuilt) : State :=
  ((((s.inc Reg.EXP_BLOCKS).add Reg.EXP_EXC (b2n r.exc)).add Reg.EXP_ESCAPES r.sides).add Reg.EXP_CLAMPS r.clamps)

/-- The error record of a block's fault: its array (R409). -/
def blockErr (code sev arr : Nat) : ErrRec := { errOf code sev with tile := arr / 2, location := arr }

/-- A fault of R205: counted, recorded; the set is impaired where the block is malformed, and every slot ends. -/
def expFault (s : State) (p set code arr : Nat) (impairs : Bool) : State :=
  let s := (s.inc Reg.EXP_FAULTS).raiseExp Reg.EXP_IRQ_STATUS_FAULT
  let s := if impairs then impair s set else s
  allFault s p (blockErr code 2 arr)

/-- The second fault of a pair: its step has ended with the first, and it is counted and recorded (R205, R219). -/
def expFaultMore (s : State) (set code arr : Nat) (impairs : Bool) : State :=
  let s := ((s.inc Reg.EXP_FAULTS).raiseExp Reg.EXP_IRQ_STATUS_FAULT).report (blockErr code 2 arr)
  if impairs then impair s set else s

/-- A late block (R204): counted, and recorded where none of its pages was retried. -/
def lateBlock (p : Nat) (b : BufBlock) (s : State) : State :=
  let s := s.inc Reg.EXP_LATE
  if (neededPages s b.set b.base b.block).any (fun q => (s.part p).retried.contains q) then s
  else ((s.inc Reg.EXP_LATE_CLEAN).report { blockErr Code.EXP_E_LATE 0 b.arr with partition := p }).raiseExp Reg.EXP_IRQ_STATUS_LATE_CLEAN

/-- Take the first `n` blocks of an array out of the buffers. -/
def dropBuffered : Nat → Nat → List BufBlock → List BufBlock
  | 0, _, l => l
  | _ + 1, _, [] => []
  | n + 1, arr, b :: rest => if b.arr = arr then dropBuffered n arr rest else b :: dropBuffered (n + 1) arr rest

/-- A rebuilt block, or pair, goes into the rack; a load that waits for it goes on, each of its blocks late (R202 to R204). -/
def rackPush (s : State) (p arr : Nat) (bs : List BufBlock) (bytes trailer : List Nat) : State :=
  let s := s.updTile (arr / 2) (fun t => t.updArr (arr % 2) (fun a => { a with
    rack := a.rack ++ [{ block := (bs.map (fun b => b.block)).headD 0, bytes := bytes, trailer := trailer }] }))
  if (s.part p).waitRacks.contains arr then
    let s := overList bs (lateBlock p) s
    settleRetry (s.updPart p (fun y => { y with waitRacks := y.waitRacks.filter (fun w => w != arr) })) p
  else s

/-- A block of an abandoned step is rebuilt and discarded (R200); a fault of it ends no request. -/
def discardBlock (s : State) (b : BufBlock) (bad : Bool) : State :=
  let x := if bad then zeroBlock Code.EXP_E_DECODE else rebuild s b.set b.base b.block
  let s := countRebuilt s x
  match x.fault with
  | none => s
  | some e =>
    let s := ((s.inc Reg.EXP_FAULTS).raiseExp Reg.EXP_IRQ_STATUS_FAULT).report (blockErr e 0 b.arr)
    if e == Code.EXP_E_DECODE && !bad then impair s b.set else s

/-- The next block of an array, or pair in mode IW4, is rebuilt. Blocks of an abandoned step are rebuilt and discarded. -/
def rebuildNext (s : State) (arr : Nat) (pair bad : Bool) : State :=
  match s.exp.buffered.filter (fun b => b.arr == arr) with
  | [] => s
  | b :: more =>
    let take (n : Nat) (t : State) : State :=
      { t with exp := { t.exp with buffered := dropBuffered n arr t.exp.buffered } }
    match partOfTile s (arr / 2) with
    | none => discardBlock (take 1 s) b bad
    | some p =>
      if !b.live then discardBlock (take 1 s) b bad
      else if 2 ≤ ((s.tile (arr / 2)).arr (arr % 2)).rack.length then s
      else
        let x := if bad then zeroBlock Code.EXP_E_DECODE else rebuild s b.set b.base b.block
        if pair && (s.set b.set).form != 1 then
          match more with
          | c :: _ =>
            if c.live then
              let y := rebuild s c.set c.base c.block
              let q := packPair x y
              let s := rackPush (countRebuilt (countRebuilt (take 2 s) x) y) p arr [b, c] q.1 q.2
              match x.fault, y.fault with
              | some e, some g =>
                expFaultMore (expFault s p b.set e arr (e == Code.EXP_E_DECODE && !bad)) c.set g arr (g == Code.EXP_E_DECODE)
              | some e, none => expFault s p b.set e arr (e == Code.EXP_E_DECODE && !bad)
              | none, some e => expFault s p c.set e arr (e == Code.EXP_E_DECODE)
              | none, none => s
            else s
          | [] => s
        else
          let s := rackPush (countRebuilt (take 1 s) x) p arr [b] x.bytes x.trailer
          match x.fault with
          | some e => expFault s p b.set e arr (e == Code.EXP_E_DECODE && !bad)
          | none => s

/-- BLOCK_REBUILD (R200 to R205): the buffer then takes the blocks that waited for room. -/
def blockRebuild (s : State) (arr : Nat) (pair bad : Bool) : State :=
  let s := rebuildNext s arr pair bad
  overList [0, 1] (fun p t => bufferAll (bufferLate t p) p) s

/-- BLOCK_REBUILD (R202). -/
def execBlockRebuild (arr : Nat) (pair bad : Bool) (s : State) : Answer :=
  .next (s.engine (fun s => blockRebuild s arr pair bad))

/-! Table loads. -/

/-- The end of a table load. -/
def tableEnd (s : State) (code : Nat) : State :=
  let s := { s with exp := { s.exp with tblBusy := false } }
  (s.wrs [(Reg.EXP_TBL_STATUS_BUSY, 0), (Reg.EXP_TBL_STATUS_CODE, code)]).raiseExp Reg.EXP_IRQ_STATUS_TBL_DONE

/-- TABLE_LOAD (R199): the checks that need no image. -/
def tableLoad (s : State) (fromSet : Bool) (set id slot epoch : Nat) : State :=
  let s := s.wrs [(Reg.EXP_TBL_CMD_FROM_SET, b2n fromSet), (Reg.EXP_TBL_CMD_SET, set), (Reg.EXP_TBL_CMD_TABLE_ID, id),
    (Reg.EXP_TBL_CMD_SLOT, slot), (Reg.EXP_TBL_CMD_EPOCH, epoch)]
  s.keeper Reg.EXP_TBL_STATUS_CODE (fun s =>
    if s.exp.tblBusy then s
    else
      let r := s.set set
      if tableRefs s id slot ≠ 0 then tableEnd s Code.EXP_E_SLOT_BUSY
      else if epoch = 0 ∨ s.rd (tagFld id (1 - slot)) = epoch ∨
          (fromSet = true ∧ (r.state ≠ 3 ∨ r.tables.contains (id, epoch) = false)) then tableEnd s Code.EXP_E_TABLE
      else
        let s := s.wrs [(Reg.EXP_TBL_STATUS_BUSY, 1), (Reg.EXP_TBL_STATUS_CODE, 0)]
        { s with exp := { s.exp with
          tblBusy := true, tblSet := if fromSet then some set else none, tblId := id, tblSlot := slot, tblEpoch := epoch } })

/-- TABLE_LOAD (R199). -/
def execTableLoad (fromSet : Bool) (set id slot epoch : Nat) (s : State) : Answer :=
  .next (s.host Reg.EXP_TBL_CMD_SET.off (fun s => tableLoad s fromSet set id slot epoch))

/-- The image of a table in a set's TABLES section. -/
def tableInSet (r : SetRec) (id epoch : Nat) : List Nat :=
  match (r.tables.zip r.tableImages).find? (fun q => q.1 == (id, epoch)) with
  | some q => q.2
  | none => []

/-- TABLE_LOAD_DONE (R199): the image is written to every expander's slot, with its tag. -/
def tableLoadDone (s : State) (image : List Byte) (fault : Bool) : State :=
  if !s.exp.tblBusy then s
  else
    let x := s.exp
    let store (t : State) (img : List Nat) : State :=
      let t := { t with exp := { t.exp with tables := SMap.set tableBlank t.exp.tables (x.tblId * 2 + x.tblSlot) img } }
      tableEnd (t.wr (tagFld x.tblId x.tblSlot) x.tblEpoch) 0
    match x.tblSet with
    | some n => store s (tableInSet (s.set n) x.tblId x.tblEpoch)
    | none =>
      if fault then tableEnd s Code.EXP_E_DMA
      else if image.length = 2048 ∧ crc32c image = s.rd Reg.EXP_TBL_CRC_CRC then store s (image.map (·.toNat))
      else tableEnd s Code.EXP_E_TABLE

/-- TABLE_LOAD_DONE (R199). -/
def execTableLoadDone (image : List Byte) (fault : Bool) (s : State) : Answer :=
  .next (s.engine (fun s => tableLoadDone s image fault))

/-! Installation. -/

/-- The metadata of a set image: header, TABLES, INDEX and RUN_DIR (R212). -/
structure SetMeta where
  core    : SetRec
  indexOff : Nat
  runOff   : Nat
  planeCount : Nat
  tableCount : Nat
  deriving DecidableEq, Repr

/-- The TABLE_LIST of a header. -/
def tableList (h : List Byte) (n : Nat) : List (Nat × Nat) :=
  (List.range n).map (fun i => (recField h (0x40 + 2 * i) 1, recField h (0x41 + 2 * i) 1))

/-- What META_DIGEST covers: the header up to it, TABLES, INDEX and RUN_DIR (R212). -/
def coveredBytes (h : List Byte) (tables indexOff blocks runOff planes : Nat) : List Byte :=
  h.take 0x70 ++ (h.drop 0x100).take (2048 * tables) ++ (h.drop indexOff).take (8 * blocks) ++
  (h.drop runOff).take (8 * planes)

/-- Read the metadata. -/
def readMeta (h : List Byte) : SetMeta :=
  let tc := recField h 7 1
  let blocks := recField h 0x30 4
  let pc := recField h 0x34 2
  let io := recField h 0x50 8
  let ro := recField h 0x58 8
  let runs := (List.range pc).map (fun i => ro + 8 * i)
  { core := {
             state := 1, form := recField h 6 1, layoutTag := recField h 8 4, baseLayoutTag := recField h 0xC 4
             setUid := recField h 0x10 16, baseUid := recField h 0x20 16, blocks := blocks
             planes := runs.map (fun o => recField h o 2), pages := runs.map (fun o => recField h (o + 4) 4)
             dataBytes := recField h 0x38 8, tables := tableList h tc
             tableImages := (List.range tc).map (fun i => ((h.drop (0x100 + 2048 * i)).take 2048).map (·.toNat))
             index := (List.range blocks).map (fun j => recField h (io + 8 * j) 8)
             metaDigest := (h.drop 0x70).take 32, covered := coveredBytes h tc io blocks ro pc }
    indexOff := io, runOff := ro, planeCount := pc, tableCount := tc }

/-- The ranges and reserved fields of the header (R212). -/
def headerGood (h : List Byte) (m : SetMeta) : Bool :=
  let r := m.core
  let delta := decide (2 ≤ r.form)
  recField h 0 4 == 0x57534C48 && recField h 4 2 == 1 && decide (r.form < 4) &&
  (if delta then decide (1 ≤ m.tableCount) && decide (m.tableCount ≤ 8) else m.tableCount == 0) &&
  r.layoutTag != 0 && (delta || (r.baseLayoutTag == 0 && r.baseUid == 0)) &&
  decide (1 ≤ m.planeCount) && decide (m.planeCount ≤ 960) && recZero h 0x36 2 && recZero h 0x90 108 &&
  r.tables.all (fun t => decide (t.1 < 32) && t.2 != 0) && recZero h (0x40 + 2 * m.tableCount) (16 - 2 * m.tableCount) &&
  recField h 0x60 8 % 2 ^ 21 == 0 && recField h 0xFC 4 == crc32c (h.take 0xFC)

/-- The run directory: planes ascending and no parity plane, pages in range, DATA_BYTES their sum (R207, R212). -/
def runsGood (h : List Byte) (m : SetMeta) : Bool :=
  let r := m.core
  ascending r.planes && r.planes.all (fun q => decide (q < 1024) && q % 16 != 15) &&
  r.pages.all (fun n => decide (1 ≤ n) && decide (n ≤ 30720)) && r.dataBytes == 16384 * sumNat r.pages &&
  (List.range m.planeCount).all (fun i => recZero h (m.runOff + 8 * i + 2) 2)

/-- Whether every index entry names a plane with a run and lies within it; EXC only in a delta set (R196, R213). -/
def indexGood (m : SetMeta) : Bool :=
  let r := m.core
  (List.range r.blocks).all (fun j =>
    let e := r.index.getD j 0
    let q := blockPlace r j
    bitsOf e 58 5 == 0 && bitsOf e 32 16 == 0 && (decide (2 ≤ r.form) || !bitOf e 63) &&
    decide (q.2 + storedBytes r j / 64 ≤ 256 * runLen r q.1))

/-- Bytes of a set's metadata. -/
def metaBytes (r : SetRec) : Nat := 256 + 2048 * r.tables.length + 8 * r.blocks + 8 * r.planes.length

/-- Whether the image passes R212 and R213. -/
def metaGood (h : List Byte) (m : SetMeta) : Bool :=
  headerGood h m && runsGood h m && indexGood m &&
  decide (0x100 + 2048 * m.tableCount ≤ m.indexOff) && decide (m.indexOff + 8 * m.core.blocks ≤ m.runOff) &&
  decide (m.runOff + 8 * m.planeCount ≤ recField h 0x60 8) && decide (m.runOff + 8 * m.planeCount ≤ h.length) &&
  m.core.metaDigest == shake256 m.core.covered

/-- Whether a logical number of a bank is free for a set: no set holds it, and none of its data planes has withdrawn it
(R183, R207). -/
def numberFree (s : State) (b l : Nat) : Bool :=
  s.alloc b l == 0 && (List.range 16).all (fun i => !isWithdrawn s (16 * b + i) l)

/-- The data planes of a logical number (R207). -/
def numberPlanes (l : Nat) : Nat := if 112 ≤ l then 14 else 15

/-- The first `n` of a list of numbers that pass a test; none where fewer pass. -/
def takeFree (ok : Nat → Bool) : List Nat → Nat → Option (List Nat)
  | _, 0 => some []
  | [], _ + 1 => none
  | l :: rest, n + 1 => if ok l then (takeFree ok rest n).map (fun r => l :: r) else takeFree ok rest (n + 1)

/-- The numbers a set takes in a bank for its runs; none where the bank lacks them (R207). -/
def bankNumbers (s : State) (r : SetRec) (b : Nat) : Option (List (Nat × Nat)) :=
  let runs := (r.planes.zip r.pages).filter (fun q => q.1 / 16 == b)
  let need := ceilDiv (runs.foldl (fun m q => maxNat m q.2) 0) 256
  let ok (l : Nat) : Bool := numberFree s b l && (decide (l < 112) || !(runs.any (fun q => q.1 % 16 == 0)))
  (takeFree ok (List.range 120) need).map (fun ls => ls.map (fun l => (b, l)))

/-- The numbers of every bank. -/
def dataAlloc (s : State) (r : SetRec) : Option (List (Nat × Nat)) :=
  (List.range 64).foldl (fun acc b => match acc, bankNumbers s r b with
    | some l, some m => some (l ++ m)
    | _, _ => none) (some [])

/-- The first numbers of a list that pass a test, as few as hold a number of bytes; none where all of them do not. -/
def takeBytes (ok : Nat × Nat → Bool) (bytes : Nat) : List (Nat × Nat) → Nat → Option (List (Nat × Nat))
  | [], got => if got < bytes then none else some []
  | q :: rest, got =>
    if bytes ≤ got then some []
    else if ok q then (takeBytes ok bytes rest (got + numberPlanes q.2 * 2 ^ 22)).map (fun r => q :: r)
    else takeBytes ok bytes rest got

/-- The logical numbers `lo` to `lo` + `n` − 1 of every bank, bank by bank. -/
def numbersFrom (lo n : Nat) : List (Nat × Nat) :=
  (List.range 64).flatMap (fun b => (List.range n).map (fun i => (b, lo + i)))

/-- The numbers for metadata: as few as hold its bytes, numbers below 112 first; from 112 on only where the set has no run on
the bank's plane 0 (R207). -/
def metaAlloc (s : State) (r : SetRec) (taken : List (Nat × Nat)) (bytes : Nat) : Option (List (Nat × Nat)) :=
  takeBytes (fun q => numberFree s q.1 q.2 && !taken.contains q && (decide (q.2 < 112) || !r.planes.contains (16 * q.1))) bytes (numbersFrom 0 112 ++ numbersFrom 112 8) 0

/-- Give numbers to a set. -/
def allocate (s : State) (v : Nat) (l : List (Nat × Nat)) : State :=
  overList l (fun q t => { t with cel := { t.cel with alloc := SMap.set allocBlank t.cel.alloc (q.1 * 120 + q.2) v } }) s

/-- Whether an install or a removal runs. -/
def instRuns (s : State) : Bool := s.exp.inst.isSome || s.exp.removing.isSome

/-- The fields of EXP_INST_CMD. -/
def instCmd (s : State) (op : Nat) (list : Bool) (set : Nat) : State :=
  s.wrs [(Reg.EXP_INST_CMD_OP, op), (Reg.EXP_INST_CMD_SRC_LIST, b2n list), (Reg.EXP_INST_CMD_SET, set)]

/-- The metadata phase (R213). -/
def installHead (s : State) (set : Nat) (h : List Byte) : State :=
  let m := readMeta h
  if !metaGood h m then instEnd s Code.EXP_E_IMAGE
  else if indexRoom (s.rd Reg.MEM_CFG_SETREC_GIB) < indexBytes s + 8 * m.core.blocks then instEnd s Code.EXP_E_SPACE
  else
    match dataAlloc s m.core with
    | none => instEnd s Code.EXP_E_SPACE
    | some d =>
      match metaAlloc s m.core d (metaBytes m.core) with
      | none => instEnd s Code.EXP_E_SPACE
      | some k =>
        let n := sumNat ((d ++ k).map (fun q => numberPlanes q.2))
        let s := allocate (allocate s (set + 1) d) (set + 65) k
        let s := s.setSet set { m.core with lblocks := n }
        let s := s.wr Reg.CEL_CAPACITY_ALLOC_BLOCKS (s.rd Reg.CEL_CAPACITY_ALLOC_BLOCKS + n)
        { s.wr Reg.EXP_INST_STATUS_STATE 2 with exp := { s.exp with inst := some (set, 0), instAbort := false, shard := [], todo := [] } }

/-- INSTALL (R213). -/
def install (s : State) (set : Nat) (h : List Byte) (fault : Bool) : State :=
  s.keeper Reg.EXP_INST_STATUS_CODE (fun s =>
    if instRuns s then s
    else
      let s := s.wrs [(Reg.EXP_INST_STATUS_STATE, 1), (Reg.EXP_INST_STATUS_SET, set), (Reg.EXP_INST_STATUS_CODE, 0),
        (Reg.EXP_INST_PROGRESS, 0)]
      if (s.set set).state != 0 then instEnd s Code.EXP_E_SET_BUSY
      else if fault then instEnd s Code.EXP_E_DMA
      else installHead s set h)

def instOff : Nat := Reg.EXP_INST_CMD_OP.off

/-- INSTALL (R213). -/
def execInstall (set : Nat) (list : Bool) (head : List Byte) (fault : Bool) (s : State) : Answer :=
  .next (s.host instOff (fun s => install (instCmd s 0 list set) set head fault))

/-- The stripes that hold the pages of shard `k` of a set (R208, R213). -/
def shardStripes (s : State) (set k n : Nat) : List (Nat × Nat × Nat) :=
  ((List.range n).filterMap (fun i => match dataPage (s.set set).planes (s.set set).pages (4096 * k + i) with
    | none => none
    | some q => (runPage s set q.1 q.2).map (fun r => (q.1 / 16, r.1, r.2)))).eraseDups

/-- INSTALL_SHARD (R213, R214): the shard's bytes are staged and hashed; where the digest matches, its stripes are due. A shard
in the staging area is programmed before the next is read. -/
def installShard (s : State) (data digest : List Byte) (fault : Bool) : State :=
  match s.exp.inst with
  | none => s
  | some (set, k) =>
    let r := s.set set
    if !s.exp.todo.isEmpty then s
    else if fault then instFail s set Code.EXP_E_DMA
    else if data.length != minNat (2 ^ 26) (r.dataBytes - k * 2 ^ 26) || shake256 data != digest then
      instFail (s.raiseExp Reg.EXP_IRQ_STATUS_DIGEST_FAIL) set Code.EXP_E_DIGEST
    else
      let todo := shardStripes s set k (ceilDiv data.length 16384)
      let s := s.setSet set { r with digests := r.digests ++ [digest] }
      let s := { s with exp := { s.exp with shard := data, todo := todo } }
      if todo.isEmpty then shardDone s set k else s

/-- INSTALL_SHARD (R213). -/
def execInstallShard (data digest : List Byte) (fault : Bool) (s : State) : Answer :=
  .next (s.engine (fun s => installShard s data digest fault))

/-- A running install is to end at the next shard boundary (R214). -/
def installAbort (s : State) : State :=
  if s.exp.inst.isSome then { s with exp := { s.exp with instAbort := true } } else s

/-- INSTALL_ABORT (R214). -/
def execInstallAbort (s : State) : Answer := .next (s.host instOff installAbort)

/-! Removal and re-checks. -/

/-- Whether a model slot points to a set as SET or NEXT_SET (R218). -/
def setPointed (s : State) (n : Nat) : Bool :=
  (List.range 64).any (fun m => s.flag (Reg.EXP_MSLOT_VALID m) && (s.rd (Reg.EXP_MSLOT_SET m) == n ||
    (s.flag (Reg.EXP_MSLOT_PENDING m) && s.rd (Reg.EXP_MSLOT_NEXT_SET m) == n)))

/-- Whether a set is the base of an installed delta set: of one SET_UID and as many BLOCKS (R190, R218). -/
def isBase (s : State) (n : Nat) : Bool :=
  (s.set n).form == 0 && (s.set n).state != 0 &&
  (List.range 64).any (fun k => let r := s.set k; r.state != 0 && decide (2 ≤ r.form) && r.baseUid == (s.set n).setUid &&
    r.blocks == (s.set n).blocks)

/-- SET_REMOVE (R218). While an operation runs, the refusal shows in CODE alone. -/
def setRemove (s : State) (set : Nat) : State :=
  s.keeper Reg.EXP_INST_STATUS_CODE (fun s =>
    if instRuns s then s.wr Reg.EXP_INST_STATUS_CODE Code.EXP_E_SET_BUSY
    else
      let s := s.wrs [(Reg.EXP_INST_STATUS_SET, set), (Reg.EXP_INST_STATUS_CODE, 0)]
      if setPointed s set || isBase s set then instEnd s Code.EXP_E_SET_BUSY
      else if (s.set set).state = 0 then instEnd s 0
      else returnBlocks ((s.setSet set { s.set set with state := 5 }).wr Reg.EXP_INST_STATUS_STATE 3) set)

/-- SET_REMOVE (R218). -/
def execSetRemove (set : Nat) (s : State) : Answer := .next (s.host instOff (fun s => setRemove (instCmd s 1 false set) set))

/-- `n` pages of a block are read (R180). -/
def countPages (s : State) (plane l n : Nat) : State :=
  (s.add Reg.CEL_READS n).updBlock plane (s.physOf plane l) (fun x => { x with
    reads := (x.reads + n) % 256, sweeps := x.sweeps + (x.reads + n) / 256, sinceRefresh := x.sinceRefresh + n })

/-- The reads of every shard of a set: a sweep of each block of its runs (R180, R215, R216). -/
def sweepData (s : State) (n : Nat) : State :=
  let r := s.set n
  overList ((List.range 64).map (fun b => (dataNumbers s n b).map (fun l => (b, l)))).flatten (fun q t =>
    (List.range 15).foldl (fun u i =>
      let plane := 16 * q.1 + i
      let k := ((dataNumbers u n q.1).takeWhile (fun l => l != q.2)).length
      let pages := minNat 256 (runLen r plane - 256 * k)
      if pages = 0 then u else countPages u plane q.2 pages) t) s

/-- The blocks that hold a set's metadata, in the order in which it fills them (log entry 119). -/
def metaBlocks (s : State) (n : Nat) : List (Nat × Nat) :=
  (List.range 64).flatMap (fun b => ((List.range 120).filter (fun l => s.alloc b l == n + 65)).flatMap (fun l =>
    (stripeData b l).map (fun plane => (plane, l))))

/-- The reads of a set's metadata pages (R180, R215, R216). -/
def sweepMeta (s : State) (n : Nat) : State :=
  let pages := ceilDiv (metaBytes (s.set n)) 16384
  let l := metaBlocks s n
  (List.range l.length).foldl (fun t i =>
    let q := l.getD i (0, 0)
    let k := minNat 256 (pages - 256 * i)
    if k = 0 then t else countPages t q.1 q.2 k) s

/-- Whether the metadata of a set does not match META_DIGEST: as stored, or (`bad`) as the pages read. -/
def metaWrong (s : State) (n : Nat) (bad : Bool) : Bool :=
  bad || shake256 (s.set n).covered != (s.set n).metaDigest

/-- The stored bytes of a shard. -/
def shardBytes (s : State) (n k : Nat) : List Byte :=
  (List.range (minNat (2 ^ 26) ((s.set n).dataBytes - k * 2 ^ 26))).map (fun i => dataByte s n (k * 2 ^ 26 + i))

/-- Whether a shard of a set does not match its digest, as stored or as the pages read. -/
def shardsWrong (s : State) (n : Nat) (bad : Bool) : Bool :=
  bad || (List.range (shardCount (s.set n))).any (fun k => shake256 (shardBytes s n k) != (s.set n).digests.getD k [])

/-- A re-check's pass over a set: its reads, and the bytes it hashes (R216). -/
def passSet (s : State) (n : Nat) : State :=
  let s := (sweepMeta (sweepData s n) n).add Reg.EXP_RECHECK_BYTES ((s.set n).dataBytes + metaBytes (s.set n))
  s.setSet n { s.set n with passKc := s.timeKc }

/-- A digest mismatch (R216, R459). -/
def digestFail (s : State) (n : Nat) : State :=
  impair ((s.report (errOf Code.EXP_E_DIGEST 3)).raiseExp Reg.EXP_IRQ_STATUS_DIGEST_FAIL) n

/-- A pass over a set and what it finds. -/
def recheckSet (s : State) (n : Nat) (bad : Bool) : Bool × State :=
  let wrong := metaWrong s n bad || shardsWrong s n false
  (wrong, if wrong then digestFail (passSet s n) n else passSet s n)

/-- RECHECK_NOW (R216). -/
def recheckNow (s : State) (set : Nat) (bad : Bool) : State :=
  s.keeper Reg.EXP_INST_STATUS_CODE (fun s =>
    if instRuns s then s
    else
      let s := s.wr Reg.EXP_INST_STATUS_SET set
      if (s.set set).state != 3 then instEnd s 0
      else
        let r := recheckSet s set bad
        instEnd r.2 (if r.1 then Code.EXP_E_DIGEST else 0))

/-- RECHECK_NOW (R216). -/
def execRecheckNow (set : Nat) (bad : Bool) (s : State) : Answer :=
  .next (s.host instOff (fun s => recheckNow (instCmd s 2 false set) set bad))

/-- INST_OP_REFUSED (R212). -/
def execInstOpRefused (set : Nat) (s : State) : Answer :=
  .next (s.host instOff (fun s =>
    let s := instCmd s 3 false set
    s.keeper Reg.EXP_INST_STATUS_CODE (fun s =>
      if instRuns s then s else instEnd (s.wr Reg.EXP_INST_STATUS_SET set) Code.EXP_E_IMAGE)))

/-- An error of the expander class without a code of its own: a pass that outlasts its period (R216). -/
def passErr : ErrRec := { cls := 5 }

/-- The sets that are READY. -/
def readySets (s : State) : List Nat := (List.range 64).filter (fun n => (s.set n).state == 3)

/-- Hours since the oldest READY set's last complete pass (R216): AGE_H. An hour has 1,350,000,000,000 K-cycles. -/
def ageHours (s : State) : Nat :=
  match (readySets s).map (fun n => (s.set n).passKc) with
  | [] => 0
  | k :: rest => (s.timeKc - rest.foldl minNat k) / 1350000000000

/-- PERIODIC_RECHECK (R216): a complete pass over every READY set ends; one that outlasted its period is recorded. -/
def periodicRecheck (s : State) (bad : List Nat) : State :=
  if !s.ready || (readySets s).isEmpty then s
  else
    let s := if s.rd Reg.EXP_RECHECK_CFG_HOURS < ageHours s then s.report passErr else s
    (overList (readySets s) (fun n t => (recheckSet t n (bad.contains n)).2) s).raiseExp Reg.EXP_IRQ_STATUS_RECHECK_DONE

/-- PERIODIC_RECHECK (R216). -/
def execPeriodicRecheck (bad : List Nat) (s : State) : Answer :=
  .next (s.engine (fun s => periodicRecheck s bad))

/-- SET_CHECK (R214, R215, R459): step 5 of the start. -/
def setCheck (s : State) (bad badShards : List Nat) : State :=
  if s.rd Reg.CEL_STATUS_PHASE != 4 || !s.ready then s
  else
    let s := iter 64 (fun n t =>
      let st := (t.set n).state
      if st = 0 then t
      else if st = 1 then returnBlocks (t.report (errOf Code.EXP_E_INSTALL_LOST 0)) n
      else if st = 5 then returnBlocks t n
      else
        let u := sweepMeta t n
        if metaWrong t n (bad.contains n) then digestFail u n
        else if st = 2 then
          let u := sweepData u n
          if shardsWrong t n (badShards.contains n) then digestFail u n
          else u.setSet n { u.set n with state := 3, passKc := u.timeKc }
        else u) s
    { s with chip := { s.chip with setsChecked := true } }

/-- SET_CHECK (R215). -/
def execSetCheck (bad badShards : List Nat) (s : State) : Answer :=
  .next (s.engine (fun s => setCheck s bad badShards))

/-! Model slots. -/

/-- The partitions that use a model slot (R217). -/
def slotUsers (s : State) (m : Nat) : List Nat :=
  [0, 1].filter (fun p => (s.part p).busy && ((s.part p).mslot == m || (s.part p).bslot == m))

/-- Whether a set can follow the one in use through a slot (R217). -/
def swapFits (s : State) (m n : Nat) : Bool :=
  let a := s.set (s.rd (Reg.EXP_MSLOT_SET m))
  let b := s.set n
  b.form == a.form && b.layoutTag == a.layoutTag && (decide (b.form < 2) || b.baseUid == a.baseUid) &&
  b.tables.all (fun t => tableLoaded s t.1 t.2)

/-- The fields of EXP_MSLOT_CMD. -/
def mslotCmd (s : State) (clear : Bool) (m set : Nat) : State :=
  s.wrs [(Reg.EXP_MSLOT_CMD_CLEAR, b2n clear), (Reg.EXP_MSLOT_CMD_MODEL_SLOT, m), (Reg.EXP_MSLOT_CMD_SET, set)]

/-- MODEL_SLOT_SET (R217): at once where nobody uses the slot, else as a swap that a waiting partition takes at once. -/
def modelSlotSet (s : State) (m n : Nat) : State :=
  s.keeper Reg.EXP_MSLOT_STATUS_CODE (fun s =>
    let users := slotUsers s m
    if (s.set n).state != 3 then s.wr Reg.EXP_MSLOT_STATUS_CODE Code.EXP_E_SWAP
    else if users.isEmpty then
      s.wrs [(Reg.EXP_MSLOT_STATUS_CODE, 0), (Reg.EXP_MSLOT_VALID m, 1), (Reg.EXP_MSLOT_SET m, n)]
    else if !swapFits s m n then s.wr Reg.EXP_MSLOT_STATUS_CODE Code.EXP_E_SWAP
    else
      let s := s.wrs [(Reg.EXP_MSLOT_STATUS_CODE, 0), (Reg.EXP_MSLOT_PENDING m, 1), (Reg.EXP_MSLOT_NEXT_SET m, n)]
      overList users (fun p t => if (t.part p).stage == .waiting && !(t.part p).stall.on then takeSwaps t p else t) s)

/-- MODEL_SLOT_SET (R217). -/
def execModelSlotSet (m set : Nat) (s : State) : Answer :=
  .next (s.host Reg.EXP_MSLOT_CMD_SET.off (fun s => modelSlotSet (mslotCmd s false m set) m set))

/-- MODEL_SLOT_CLEAR (R217). -/
def modelSlotClear (s : State) (m : Nat) : State :=
  s.keeper Reg.EXP_MSLOT_STATUS_CODE (fun s =>
    if (slotUsers s m).isEmpty then
      s.wrs [(Reg.EXP_MSLOT_STATUS_CODE, 0), (Reg.EXP_MSLOT_VALID m, 0), (Reg.EXP_MSLOT_SET m, 0),
        (Reg.EXP_MSLOT_PENDING m, 0), (Reg.EXP_MSLOT_NEXT_SET m, 0)]
    else s.wr Reg.EXP_MSLOT_STATUS_CODE Code.EXP_E_SET_BUSY)

/-- MODEL_SLOT_CLEAR (R217). -/
def execModelSlotClear (m : Nat) (s : State) : Answer :=
  .next (s.host Reg.EXP_MSLOT_CMD_SET.off (fun s => modelSlotClear (mslotCmd s true m 0) m))

end Sys2Proof.Machine
end

