-- ==== Sys2Proof/Machine/Links.lean ====
section
/-! DEFINITION. The Tendi ports: training and version (R327, R328, R338), flits, replay and credits (R329 to R332), the
block-exponent codec and its measure (R350, R351), and what a lost link changes (R336, R349). -/

namespace Sys2Proof.Machine

/-! The codec. -/

/-- Whether |x| ≤ 127 × 2^(E − 134). -/
def fitsExp (amax e : Nat) : Bool :=
  let d := F32.toDy amax
  decide (Dy.floor ⟨d.man, d.exp + 134 - e⟩ < 127) ||
    (decide (Dy.floor ⟨d.man, d.exp + 134 - e⟩ = 127) && decide (Dy.floor ⟨-d.man, d.exp + 134 - e⟩ = -127))

/-- The shared exponent of a block (R350). -/
def blockExp (amax : Nat) : Nat :=
  if amax < 0x00800000 then 0
  else match (List.range 254).find? (fun i => fitsExp amax (i + 1)) with
    | some i => i + 1
    | none => 254

/-- One block: exponent, mantissas, clips, and the values the mantissas stand for. -/
structure BlockCode where
  exp   : Nat
  mant  : List Int
  clips : Nat
  vals  : List Nat
  deriving DecidableEq, Repr

/-- Encode a block of FP32 elements (R350). -/
def encodeBlock (xs : List Nat) : BlockCode :=
  let row := xs.map (fun x => if F32.isFinite x then x else 0)
  let amax := row.foldl (fun m x => F32.max m (F32.abs x)) 0
  let e := blockExp amax
  if e = 0 then { exp := 0, mant := row.map (fun _ => 0), clips := 0, vals := row.map (fun _ => 0) }
  else
    let q := row.map (fun x =>
      let d := F32.toDy x
      clampInt (-127) 127 (F32.rneInt ⟨d.man, d.exp + 134 - e⟩))
    { exp := e, mant := q.map (·.1), clips := (q.filter (·.2)).length
      vals := q.map (fun m => F32.ofDy 0 ⟨m.1, (e : Int) - 134⟩) }

/-- The counters of a port's encoder take a block (R351). -/
def measureBlock (p : Nat) (s : State) (xs : List Nat) : State :=
  let b := encodeBlock xs
  let shift := s.rd Reg.CHN_CFG_SQ_SHIFT
  let errs := (List.range xs.length).map (fun i =>
    let x := nth xs i
    F32.sub (if F32.isFinite x then x else 0) (nth b.vals i))
  ((s.add (Reg.CHN_P_MSE_SUM p) (sumNat (errs.map (sqAddend shift)))).add (Reg.CHN_P_MSE_COUNT p) xs.length).add
    (Reg.CHN_P_MSE_CLIP p) b.clips

/-! A port's state. -/

/-- Record a code of a port: its last code, an error of the chain class. -/
def portCode (s : State) (p code : Nat) : State :=
  (s.wr (Reg.CHN_P_STATUS_CODE p) code).report { errOf code (if code = Code.CHN_E_LINK_LOST then 3 else 0) with location := p }

/-- Set a port's state; a change is an event. -/
def portState (s : State) (p v : Nat) : State :=
  if s.rd (Reg.CHN_P_STATUS_STATE p) = v then s
  else (s.wr (Reg.CHN_P_STATUS_STATE p) v).raiseChn Reg.CHN_IRQ_STATUS_PORT

/-- A link goes down (R336, R349): flits in flight are lost, waiting messages take the other way, a ring is broken, and a
span whose neighbour is lost halts. -/
def portDown (s : State) (p : Nat) : State :=
  let waiting := (s.port p).queue
  let up := portUp s p
  let s := s.updPort p (fun x => { announce := x.announce })
  let s := s.wrs [(Reg.CHN_P_STATUS_NEG_VER p, 0), (Reg.CHN_P_PEER_LINK_VER p, 0), (Reg.CHN_P_PEER_LINK_MIN p, 0),
    (Reg.CHN_P_PEER_ROOM p, 0)]
  let s := portState s p 0
  let s := if up then s.wr Reg.CHN_STATUS_RING 0 else s
  let s := overList (waiting.filter (fun m => m.dst != 0)) (fun m t => sendMsg t m) s
  if up then
    overList [0, 1] (fun q t =>
      if (t.span q).running && ((t.span q).inPort == p || (t.span q).outPort == p) then spanHalt t q else t) s
  else s

/-- Training begins on an enabled port. -/
def portTrain (s : State) (p : Nat) : State :=
  if s.flag (Reg.CHN_P_CTRL_ENABLE p) then portState s p 1 else s

/-- ENABLE is set (R328). -/
def portEnable (s : State) (p : Nat) : State :=
  let s := s.wr (Reg.CHN_P_CTRL_ENABLE p) 1
  if s.rd (Reg.CHN_P_STATUS_STATE p) = 0 then portTrain s p else s

/-- ENABLE is cleared: the port is disabled (R333). -/
def portDisable (s : State) (p : Nat) : State := portDown (s.wr (Reg.CHN_P_CTRL_ENABLE p) 0) p

/-- PORT_ENABLE (R328). -/
def execPortEnable (p : Nat) (s : State) : Answer :=
  .next (s.host (Reg.CHN_P_CTRL_ENABLE p).off (fun s => portEnable s p))

/-- The port goes DOWN and trains again (R328). -/
def portRetrain (s : State) (p : Nat) : State := portTrain (portDown s p) p

/-- PORT_RETRAIN (R328). -/
def execPortRetrain (p : Nat) (s : State) : Answer :=
  .next (s.host (Reg.CHN_P_CTRL_ENABLE p).off (fun s => portRetrain s p))

/-- The four words of this unit's roster record (R334). -/
def ownWords (s : State) (room : Nat) : List Nat :=
  [room + 256 * (s.rd Reg.CHN_STATUS_HEAD_STRAP + 2 * b2n (portUp s 0) + 4 * b2n (portUp s 1)) +
      65536 * s.rd Reg.CHN_LEVEL_COMPAT_LEVEL,
    s.rd Reg.KPR_FW_VERSION_VERSION, s.rd Reg.CHN_LEVEL_LINK_VER + 256 * s.rd Reg.CHN_LEVEL_LINK_MIN, s.rd (Reg.SRM_UID_UID 0)]

/-- A record's 16 bytes. -/
def recordBytes (words : List Nat) : List Byte := ((List.range 4).map (fun i => leBytes 4 (words.getD i 0))).flatten

/-- The words of a record. -/
def recordWords (bs : List Byte) : List Nat := (List.range 4).map (fun i => recField bs (4 * i) 4)

/-- PORT_TRAINED (R327, R338, R339): the ports' wiring and the link version decide. -/
def portTrained (s : State) (p peerPort ver least room : Nat) : State :=
  if s.rd (Reg.CHN_P_STATUS_STATE p) != 1 then s
  else
    let s := s.wrs [(Reg.CHN_P_PEER_LINK_VER p, ver), (Reg.CHN_P_PEER_LINK_MIN p, least), (Reg.CHN_P_PEER_ROOM p, room)]
    let v := minNat (s.rd Reg.CHN_LEVEL_LINK_VER) ver
    if peerPort = p then portCode s p Code.CHN_E_WIRING
    else if v < maxNat (s.rd Reg.CHN_LEVEL_LINK_MIN) least then portState (portCode s p Code.CHN_E_LINK_VER) p 3
    else
      let due := (s.port p).announce
      let s := portState (s.wrs [(Reg.CHN_P_STATUS_NEG_VER p, v), (Reg.CHN_P_STATUS_CODE p, 0)]) p 2
      let s := s.updPort p (fun _ => {})
      if due then enqueue s p (msgTo s 0x04 3 0 0 (recordBytes (ownWords s s.chn.room))) else s

/-- PORT_TRAINED (R338). -/
def execPortTrained (p peerPort ver least room : Nat) (s : State) : Answer :=
  .next (s.engine (fun s => portTrained s p peerPort ver least room))

/-- TRAINING_RETRY (R328). -/
def execTrainingRetry (p : Nat) (s : State) : Answer :=
  .next (s.engine (fun s => if s.rd (Reg.CHN_P_STATUS_STATE p) = 0 then portTrain s p else s))

/-! Flits. -/

/-- Add one to an element of a list of four. -/
def bump (l : List Nat) (i : Nat) : List Nat := l.set i (l.getD i 0 + 1)

/-- The acknowledgement and credits that the next flit of a port carries (R329). -/
def stampFlit (x : Port) (f : Flit) : Flit := { f with ack := x.rxSeq, credits := x.freed }

/-- Send a flit; the credits it returns are counted from 0 again. -/
def sendFlit (s : State) (p : Nat) (f : Flit) : State :=
  let f := stampFlit (s.port p) f
  (s.updPort p (fun x => { x with freed := [0, 0, 0, 0] })).emit (.flit p f)

/-- Flits of a message: 39 lines each, at least one. -/
def flitCount (m : ChainMsg) : Nat := maxNat 1 (ceilDiv m.payload.length 2496)

/-- Flit `k` of a message. -/
def flitOf (m : ChainMsg) (k : Nat) : Flit :=
  let part := (m.payload.drop (2496 * k)).take 2496
  { kind := 1, vc := m.vc, lines := ceilDiv part.length 64, first := k == 0, last := k + 1 == flitCount m, dst := m.dst
    src := m.src, msgType := m.msgType, msgId := m.id, msgAddr := m.addr
    msgBytes := if m.payload.isEmpty then m.bytes else m.payload.length, payload := part }

/-- How far a sequence number lies at or after another; numbers run modulo 2^32. -/
def seqFrom (a b : Nat) : Nat := (b + 2 ^ 32 - a % 2 ^ 32) % 2 ^ 32

/-- Replay from a SEQ (R329). -/
def replayFrom (s : State) (p seq : Nat) : State :=
  let again := (s.port p).unacked.filter (fun f => decide (seqFrom seq f.seq < 2 ^ 31))
  let s := s.add (Reg.CHN_P_REPLAYS p) again.length
  overList again (fun f t => sendFlit t p f) (s.updPort p (fun x => { x with replays := x.replays + 1 }))

/-- What a flit's header says of the flits sent: those up to ACK have arrived, and buffers are free (R329). -/
def takeAck (s : State) (p : Nat) (f : Flit) : State :=
  let x := s.port p
  let left := x.unacked.filter (fun g => f.ack != g.seq && decide (seqFrom f.ack g.seq < 2 ^ 31))
  s.updPort p (fun y => { y with
    unacked := left
    replays := if left.length < x.unacked.length then 0 else y.replays
    credits := (List.range 4).map (fun v => nth y.credits v + nth f.credits v) })

/-- A message whose room cannot be reached is answered by the last unit it reaches (R341). -/
def routeFail (s : State) (m : ChainMsg) : State :=
  let s := s.rep Code.CHN_E_ROUTE 0
  let reply (type : Nat) : State :=
    sendMsg s { msgTo s type 2 m.src Code.CHN_E_ROUTE [] with id := m.id }
  if m.msgType = 0x10 then reply 0x18 else if m.msgType = 0x12 then reply 0x1A else s

/-- A whole message has arrived: for this unit or the neighbour only, or on its way to another room (R341). -/
def arrive (s : State) (p : Nat) (m : ChainMsg) : State :=
  if m.dst = 0 ∨ m.dst = s.rd Reg.CHN_STATUS_ROOM then s.updPort p (fun x => { x with inbox := x.inbox ++ [m] })
  else
    match routePort s m.dst with
    | some q => if q = p then routeFail s m else enqueue s q m
    | none => routeFail s m

/-- A message flit in order joins its message (R329, R330). -/
def joinFlit (s : State) (p : Nat) (f : Flit) : State :=
  let x := s.port p
  let same (m : ChainMsg) : Bool := m.src == f.src && m.vc == f.vc && m.id == f.msgId
  let m0 : ChainMsg := { msgType := f.msgType, vc := f.vc, src := f.src, dst := f.dst, id := f.msgId, addr := f.msgAddr
                         bytes := f.msgBytes }
  let m := if f.first then m0 else (x.parts.find? same).getD m0
  let m := { m with payload := m.payload ++ f.payload }
  let rest := x.parts.filter (fun q => !same q)
  let s := s.updPort p (fun y => { y with parts := if f.last then rest else rest ++ [m], freed := bump y.freed f.vc })
  if f.last then arrive s p m else s

/-- FLIT_RECEIVE (R329): discarded with a NAK where its CRC, a codeword or its SEQ is wrong. -/
def flitReceive (s : State) (p : Nat) (f : Flit) (ok : Bool) (corr uncorr : Nat) : State :=
  if !portUp s p then s
  else
    let s := (s.add (Reg.CHN_P_FEC_CORR p) corr).add (Reg.CHN_P_FEC_UNCORR p) uncorr
    let next := ((s.port p).rxSeq + 1) % 2 ^ 32
    let nak (t : State) : State := sendFlit t p { kind := 2, seq := (t.port p).txSeq, src := t.rd Reg.CHN_STATUS_ROOM, msgType := 0x100, msgAddr := next }
    if !ok || uncorr != 0 || decide (2 < f.kind) then nak s
    else
      let s := takeAck s p f
      if f.kind = 2 then (if f.msgType = 0x100 then replayFrom s p f.msgAddr else s)
      else if f.kind = 0 then s
      else if f.seq != next then nak s
      else joinFlit ((s.updPort p (fun x => { x with rxSeq := next })).inc (Reg.CHN_P_RX_FLITS p)) p f

/-- FLIT_RECEIVE (R329). -/
def execFlitReceive (p : Nat) (f : Flit) (ok : Bool) (corr uncorr : Nat) (s : State) : Answer :=
  .next (s.engine (fun s => flitReceive s p f ok corr uncorr))

/-- NAK (R329). -/
def execNak (p seq : Nat) (s : State) : Answer :=
  .next (s.engine (fun s => if portUp s p then replayFrom s p seq else s))

/-- REPLAY_TIMEOUT (R329). -/
def execReplayTimeout (p : Nat) (s : State) : Answer :=
  .next (s.engine (fun s => match (s.port p).unacked with
    | f :: _ => if portUp s p then replayFrom s p f.seq else s
    | [] => s))

/-- LINK_LOST (R328): 16 consecutive replays without progress. -/
def execLinkLost (p : Nat) (s : State) : Answer :=
  .next (s.engine (fun s =>
    if portUp s p && decide (16 ≤ (s.port p).replays) then portCode (portRetrain s p) p Code.CHN_E_LINK_LOST else s))

/-- LANE_FAILURE (R328). -/
def execLaneFailure (p : Nat) (s : State) : Answer := .next (s.engine (fun s => portDown s p))

/-- Whether a partition's timetable has class-8 entries on a port. -/
def portTimed (s : State) (p : Nat) : Bool :=
  [0, 1].any (fun q => (s.part q).busy && (s.partImage q).entries.any (fun e => e.cls == 8 && e.index == p))

/-- Whether this unit's VC 0 may use a slot of a port: in a class-8 beat, and in every slot once the sending step's scatter
is over (R332, R347). -/
def stepSlot (s : State) (p : Nat) (step : Bool) : Bool :=
  step || [0, 1].any (fun q => (s.span q).running && (s.span q).outPort == p && (s.part q).stage == .waiting)

/-- The first message that may leave in a slot: of a channel the slot carries, with a credit. A slot outside the class-8
beats also carries what is forwarded for other units (R332). -/
def pickMsg (s : State) (p : Nat) (step : Bool) : Option ChainMsg :=
  let x := s.port p
  let timed := step && portTimed s p
  x.queue.find? (fun m => decide (0 < nth x.credits m.vc) &&
    (if m.vc = 0 then stepSlot s p timed || m.src != s.rd Reg.CHN_STATUS_ROOM else !timed))

/-- Whether a port sends rows under CODEC 1 (R350). -/
def portCodes (s : State) (p : Nat) : Bool :=
  [0, 1].any (fun q => (s.span q).running && (s.span q).outPort == p && (s.span q).codec == 1)

/-- Take the first message equal to one out of a list. -/
def dropFirst (m : ChainMsg) : List ChainMsg → List ChainMsg
  | [] => []
  | x :: rest => if x = m then rest else x :: dropFirst m rest

/-- FLIT_SLOT (R329, R332, R351): one flit leaves; the sender keeps its last 256 message flits. -/
def flitSlot (s : State) (p : Nat) (step : Bool) (elems : List Nat) : State :=
  if !portUp s p then s
  else
    let s := if portCodes s p then (blocksOf 32 (elems.length / 32) elems).foldl (measureBlock p) s else s
    let x := s.port p
    match (if x.unacked.length < 256 then pickMsg s p step else none) with
    | none => sendFlit s p { seq := x.txSeq, src := s.rd Reg.CHN_STATUS_ROOM }
    | some m =>
      let k := nth x.sent m.vc
      let seq := (x.txSeq + 1) % 2 ^ 32
      let f := { flitOf m k with seq := seq }
      let done := decide (flitCount m ≤ k + 1)
      let s := s.updPort p (fun y => { y with
        txSeq := seq, unacked := y.unacked ++ [f], credits := y.credits.set m.vc (nth y.credits m.vc - 1)
        sent := y.sent.set m.vc (if done then 0 else k + 1), queue := if done then dropFirst m y.queue else y.queue })
      sendFlit (s.inc (Reg.CHN_P_TX_FLITS p)) p f

/-- FLIT_SLOT (R332). -/
def execFlitSlot (p : Nat) (step : Bool) (elems : List Nat) (s : State) : Answer :=
  .next (s.engine (fun s => flitSlot s p step elems))

end Sys2Proof.Machine
end

