-- ==== Sys2Proof/Machine/Chain.lean ====
section
/-! DEFINITION. What a unit does with the messages of the chain: unknown types (R330), roll call (R333 to R336),
ANNOUNCE (R339), tier-3 access and chain fences (R342 to R344), the messages of a span (R347 to R349), and the export
table. Version levels never stop this work (R340); events that meet (R352) come about in the order of the commands. -/

namespace Sys2Proof.Machine

/-- Take the first message of a type out of a port's inbox. -/
def takeMsg (s : State) (p type : Nat) (k : ChainMsg → State → State) : State :=
  match (s.port p).inbox.find? (fun m => m.msgType == type) with
  | none => s
  | some m => k m (s.updPort p (fun x => { x with inbox := dropFirst m x.inbox }))

/-- The message types of R330 that a unit knows. -/
def knownTypes : List Nat :=
  [0x01, 0x02, 0x03, 0x04, 0x10, 0x11, 0x12, 0x18, 0x1A, 0x20, 0x21, 0x22, 0x23, 0x24, 0x30, 0x31]

/-- UNKNOWN_MESSAGE (R330). -/
def unknownMessage (s : State) (p : Nat) : State :=
  match (s.port p).inbox.find? (fun m => !knownTypes.contains m.msgType) with
  | none => s
  | some m =>
    let s := s.updPort p (fun x => { x with inbox := dropFirst m x.inbox })
    (s.inc (Reg.CHN_P_UNKNOWN p)).report { errOf Code.CHN_E_MSG 0 with location := p }

/-- UNKNOWN_MESSAGE (R330). -/
def execUnknownMessage (p : Nat) (s : State) : Answer := .next (s.engine (fun s => unknownMessage s p))

/-! Roll call. -/

/-- A roll-call frame (R334). -/
def frameBytes (kind ring callId code : Nat) (recs : List (List Nat)) : List Byte :=
  leBytes 4 0x4C524C48 ++ leBytes 1 kind ++ leBytes 1 recs.length ++ leBytes 1 ring ++ [0] ++ leBytes 8 callId ++
  leBytes 2 code ++ List.replicate 46 0 ++ (recs.map recordBytes).flatten

/-- The records of a frame. -/
def frameRecs (bs : List Byte) : List (List Nat) :=
  (List.range (recField bs 5 1)).map (fun i => recordWords ((bs.drop (0x40 + 16 * i)).take 16))

/-- Send a frame to the neighbour on a port. -/
def sendFrame (s : State) (p kind ring callId code : Nat) (recs : List (List Nat)) : State :=
  if portUp s p then enqueue s p (msgTo s kind 3 0 0 (frameBytes kind ring callId code recs)) else s

/-- A roll call headed here ends. -/
def rollEnd (s : State) (code : Nat) : State :=
  let s := s.trace 48 code [0, 0, 0, 0]
  let s := if code = 0 then s else s.rep code 0
  (s.wrs [(Reg.CHN_ROLL_STATUS_BUSY, 0), (Reg.CHN_ROLL_STATUS_CODE, code)]).raiseChn Reg.CHN_IRQ_STATUS_ROLL_DONE

/-- A unit stores a roster and its room, which Keeper journals (R335). -/
def storeRoster (s : State) (room ring : Nat) (recs : List (List Nat)) : State :=
  let s := { s with chn := { s.chn with
    roster := recs.map (fun (w : List Nat) => ({ room := w.getD 0 0 % 256, words := w } : RosterRec)), room := room } }
  (s.wrs [(Reg.CHN_STATUS_CALLED, 1), (Reg.CHN_STATUS_RING, ring), (Reg.CHN_STATUS_STALE, 0),
    (Reg.CHN_STATUS_COUNT, recs.length), (Reg.CHN_STATUS_ROOM, room)]).raiseChn Reg.CHN_IRQ_STATUS_ROSTER

/-- A new roll call halts the spans of a unit (R349). -/
def rollHalts (s : State) : State := spanHalt (spanHalt s 0) 1

/-- Whether this unit is a head candidate (R333): strapped, or without a link fore. -/
def headCandidate (s : State) : Bool := s.flag Reg.CHN_STATUS_HEAD_STRAP || !portUp s 0

/-- ROLL_CALL_GO (R333, R335). -/
def rollCall (s : State) : State :=
  s.keeper Reg.CHN_ROLL_STATUS_CODE (fun s =>
    let refuse (c : Nat) : State := (s.wr Reg.CHN_ROLL_STATUS_CODE c).rep c 0
    if s.flag Reg.CHN_ROLL_STATUS_BUSY then refuse Code.CHN_E_BUSY
    else if !headCandidate s then refuse Code.CHN_E_NOT_HEAD
    else
      let id := s.timeUs % 2 ^ 32 + 2 ^ 32 * s.rd (Reg.SRM_UID_UID 1)
      let s := rollHalts s
      let s := { s.wrs [(Reg.CHN_ROLL_STATUS_BUSY, 1), (Reg.CHN_ROLL_STATUS_CODE, 0)] with
        chn := { s.chn with callId := id, rollRoom := 1 } }
      let rec1 := ownWords s 1
      if portUp s 1 then sendFrame s 1 1 0 id 0 [rec1] else rollEnd (storeRoster s 1 0 [rec1]) 0)

/-- ROLL_CALL_GO (R333). -/
def execRollCallGo (s : State) : Answer := .next (s.host Reg.CHN_ROLL_CMD_GO.off rollCall)

/-- A unit that receives ROLL on its fore port (R335). -/
def rollFrame (s : State) (m : ChainMsg) : State :=
  let recs := frameRecs m.payload
  let id := recField m.payload 8 8
  let busy := s.flag Reg.CHN_ROLL_STATUS_BUSY
  if busy && id == s.chn.callId then
    sendFrame (rollEnd (storeRoster s 1 1 recs) 0) 1 2 1 id 0 recs
  else if busy || s.flag Reg.CHN_STATUS_HEAD_STRAP then
    sendFrame (s.rep Code.CHN_E_HEAD_CONFLICT 0) 0 3 0 id Code.CHN_E_HEAD_CONFLICT recs
  else if 64 ≤ recs.length then sendFrame (s.rep Code.CHN_E_TOO_MANY 0) 0 3 0 id Code.CHN_E_TOO_MANY recs
  else
    let room := recs.length + 1
    let s := rollHalts s
    let s := { s with chn := { s.chn with rollRoom := room, callId := id } }
    let recs := recs ++ [ownWords s room]
    if portUp s 1 then sendFrame s 1 1 0 id 0 recs
    else sendFrame (storeRoster s room 0 recs) 0 2 0 id 0 recs

/-- ROLL (R335): a frame that arrives on the aft port comes from no unit fore and is dropped. -/
def execRoll (p : Nat) (s : State) : Answer :=
  .next (s.engine (fun s => takeMsg s p 0x01 (fun m t => if p = 0 then rollFrame t m else t)))

/-- A unit stores a ROSTER and passes it on the way it goes (R335). -/
def rosterFrame (s : State) (p : Nat) (m : ChainMsg) : State :=
  let recs := frameRecs m.payload
  let id := recField m.payload 8 8
  let ring := recField m.payload 6 1
  if id != s.chn.callId then s
  else if s.flag Reg.CHN_ROLL_STATUS_BUSY then rollEnd (storeRoster s 1 ring recs) 0
  else if ring = 1 ∧ s.rd Reg.CHN_STATUS_ROOM = 1 ∧ s.chn.rollRoom = 1 then s
  else sendFrame (storeRoster s s.chn.rollRoom ring recs) (1 - p) 2 ring id 0 recs

/-- ROSTER (R335). -/
def execRoster (p : Nat) (s : State) : Answer :=
  .next (s.engine (fun s => takeMsg s p 0x02 (fun m t => rosterFrame t p m)))

/-- ROLL_FAIL (R335): passed fore; the head reports the code. -/
def execRollFail (p : Nat) (s : State) : Answer :=
  .next (s.engine (fun s => takeMsg s p 0x03 (fun m t =>
    let code := recField m.payload 0x10 2
    if t.flag Reg.CHN_ROLL_STATUS_BUSY && recField m.payload 8 8 == t.chn.callId then rollEnd t code
    else sendFrame t 0 3 0 (recField m.payload 8 8) code (frameRecs m.payload))))

/-- ROLL_TIMEOUT (R335). -/
def execRollTimeout (s : State) : Answer :=
  .next (s.engine (fun s =>
    if s.flag Reg.CHN_ROLL_STATUS_BUSY then rollEnd s Code.CHN_E_ROLL_TIMEOUT else s))

/-- Whether a room is a stage of a running span. -/
def spanRoom (s : State) (p room : Nat) : Bool := (s.span p).running && (s.span p).rooms.contains room

/-- A received ANNOUNCE (R339, R349): passed on; the room's record is updated, or the roster is STALE. -/
def announceMsg (s : State) (p : Nat) (m : ChainMsg) : State :=
  let w := recordWords m.payload
  let room := w.getD 0 0 % 256
  let s := if portUp s (1 - p) then enqueue s (1 - p) m else s
  let stale (t : State) : State := (t.wr Reg.CHN_STATUS_STALE 1).rep Code.CHN_E_ROSTER 0
  match (if room = 0 then none else rosterOf s room) with
  | none => stale s
  | some r =>
    if r.words.getD 3 0 != w.getD 3 0 then stale s
    else
      let words := [r.words.getD 0 0 % 65536 + w.getD 0 0 / 65536 * 65536, w.getD 1 0, w.getD 2 0, r.words.getD 3 0]
      let level := w.getD 0 0 / 65536 != r.words.getD 0 0 / 65536
      let s := { s with chn := { s.chn with
        roster := s.chn.roster.map (fun (q : RosterRec) => if q.room = room then { q with words := words } else q) } }
      let s := s.raiseChn Reg.CHN_IRQ_STATUS_ROSTER
      if level then overList [0, 1] (fun q t => if spanRoom t q room then spanHalt t q else t) s else s

/-- ANNOUNCE (R339). -/
def execAnnounce (p : Nat) (s : State) : Answer :=
  .next (s.engine (fun s => takeMsg s p 0x04 (fun m t => announceMsg t p m)))

/-! Tier-3 access. -/

/-- The export entry of an address (R342). -/
def exportAt (s : State) (addr : Nat) : ExportEntry := SMap.get (fun _ => {}) s.chn.exports (addr / 2 ^ 21)

/-- Whether an entry refuses a room's access (R343). -/
def ExportEntry.refuses (e : ExportEntry) (room : Nat) (write : Bool) : Bool :=
  !e.valid || (write && !e.w) || (e.reqRoom != 0 && e.reqRoom != room)

/-- Whether a peer's access of `n` bytes is refused: every granule that it meets must be exported to the peer (R343). -/
def exportRefuses (s : State) (m : ChainMsg) (n : Nat) (write : Bool) : Bool :=
  (exportAt s m.addr).refuses m.src write || (exportAt s (m.addr + n - 1)).refuses m.src write

/-- The DRAM address of an export address. -/
def exportPa (s : State) (addr : Nat) : Nat := (exportAt s addr).granule * 2 ^ 21 + addr % 2 ^ 21

/-- A refusal of a peer's access is an event and a chain error (R343). -/
def exportRefused (s : State) : State := (s.raiseChn Reg.CHN_IRQ_STATUS_EXPORT_REFUSED).rep Code.CHN_E_EXPORT 0

/-- Answer a message. -/
def replyMsg (s : State) (m : ChainMsg) (type addr : Nat) (payload : List Byte) : State :=
  sendMsg s { msgTo s type 2 m.src addr payload with id := m.id }

/-- A read by a peer: refused, ended by an uncorrectable line (R234), or answered line by line. -/
def t3Read (s : State) (m : ChainMsg) (bad : Bool) : State :=
  if exportRefuses s m m.bytes false then replyMsg (exportRefused s) m 0x18 Code.CHN_E_EXPORT []
  else if bad then replyMsg (s.inc Reg.MEM_DRAM_UNCORR) m 0x18 Code.XLT_E_UNCORR []
  else replyMsg s m 0x18 0 ((List.range (ceilDiv m.bytes 64)).map (fun i => s.mread (exportPa s (m.addr + 64 * i)) 64)).flatten

/-- T3_READ (R343); `bad` says that a line of it is uncorrectable. -/
def execT3Read (p : Nat) (bad : Bool) (s : State) : Answer :=
  .next (s.engine (fun s => takeMsg s p 0x10 (fun m t => t3Read t m bad)))

/-- What names the writes of a room in the memory hub. -/
def peerSrc (room : Nat) : Nat := 1024 + room

/-- A line of a write: the bytes whose enables are set (log entry 20). -/
def t3Apply (m : ChainMsg) (s : State) (i : Nat) : State :=
  let mask := leNat ((m.payload.drop (72 * i + 64)).take 8)
  agentPut s (peerSrc m.src) (exportPa s (m.addr + 64 * i)) ((m.payload.drop (72 * i)).take 64)
    ((List.range 64).map (bitOf mask))

/-- A write by a peer: a refused one is told in the source's next fence acknowledgement. -/
def t3Take (s : State) (m : ChainMsg) : State :=
  let n := ceilDiv m.payload.length 72
  if exportRefuses s m (64 * n) true then
    let s := exportRefused s
    let old := SMap.get countBlank s.chn.refusals m.src
    { s with chn := { s.chn with
      refusals := SMap.set countBlank s.chn.refusals m.src (if old = 0 then Code.CHN_E_EXPORT else old) } }
  else (List.range n).foldl (t3Apply m) s

/-- T3_WRITE (R343). -/
def execT3Write (p : Nat) (s : State) : Answer :=
  .next (s.engine (fun s => takeMsg s p 0x11 (fun m t => t3Take t m)))

/-- Whether earlier writes of a room are still to become visible: one waits at the port, or the memory hub holds one. -/
def t3Open (s : State) (p room : Nat) : Bool :=
  (s.port p).inbox.any (fun m => m.msgType == 0x11 && m.src == room) || s.heldWrites.any (fun w => w.src == peerSrc room)

/-- A fence by a peer is answered once its earlier writes are visible (R344). -/
def t3Fence (s : State) (m : ChainMsg) : State :=
  let code := SMap.get countBlank s.chn.refusals m.src
  replyMsg { s with chn := { s.chn with refusals := SMap.set countBlank s.chn.refusals m.src 0 } } m 0x1A code []

/-- T3_FENCE (R344). -/
def execT3Fence (p : Nat) (s : State) : Answer :=
  .next (s.engine (fun s =>
    match (s.port p).inbox.find? (fun m => m.msgType == 0x12) with
    | none => s
    | some m => if t3Open s p m.src then s else takeMsg s p 0x12 (fun m t => t3Fence t m)))

/-- T3_DATA (R343): what the reply delivers is the answer; a code makes the access a tier-3 error of its requester. -/
def execT3Data (p : Nat) (s : State) : Answer :=
  .next (s.engine (fun s => takeMsg s p 0x18 (fun m t =>
    { t with resp := (m.addr % 65536) :: m.payload.map (·.toNat) })))

/-- A chain fence ends; with a code it fails (R344). -/
def fenceEnd (s : State) (n code : Nat) : State :=
  match s.chn.fences.find? (fun f => f.1 == n) with
  | none => s
  | some f =>
    let s := { s with chn := { s.chn with fences := s.chn.fences.filter (fun g => g.1 != n) } }
    if code = 0 then s
    else match f.2.2 with
      | some (p, i) => if (s.part p).beforeScatter then slotFault s p i { errOf Code.XLT_E_TIER3 1 with partition := p } else s
      | none => s.rep Code.XLT_E_TIER3 0

/-- An acknowledgement of a fence. -/
def fenceAck (s : State) (m : ChainMsg) : State :=
  match s.chn.fences.find? (fun f => f.1 == m.id) with
  | none => s
  | some f =>
    if m.addr % 65536 != 0 then fenceEnd s m.id (m.addr % 65536)
    else
      let left := f.2.1.filter (fun r => r != m.src)
      if left.isEmpty then fenceEnd s m.id 0
      else { s with chn := { s.chn with
          fences := s.chn.fences.map (fun g => if g.1 = m.id then (g.1, left, g.2.2) else g) } }

/-- T3_FENCE_ACK (R344). -/
def execT3FenceAck (p : Nat) (s : State) : Answer :=
  .next (s.engine (fun s => takeMsg s p 0x1A (fun m t => fenceAck t m)))

/-- CHAIN_FENCE_TIMEOUT (R344): a fence of Keeper ends after 10 ms and is recorded. -/
def execChainFenceTimeout (n : Nat) (s : State) : Answer :=
  .next (s.engine (fun s => fenceEnd s n Code.CHN_E_ROUTE))

/-! The messages of a span. -/

/-- The partition whose span takes a message on a port. -/
def spanOnPort (s : State) (f : SpanRun → Bool) : Option Nat :=
  if s.chn.span0.running && f s.chn.span0 then some 0
  else if s.chn.span1.running && f s.chn.span1 then some 1
  else none

/-- The input half that no STEP message holds. -/
def freeHalf (x : SpanRun) : Option Nat :=
  let used := x.steps.map (·.half) ++ x.cur.toList.map (·.half)
  [0, 1].find? (fun h => !used.contains h)

/-- STEP_MESSAGE (R347): it lands in a free half of the input region. -/
def stepMessage (s : State) (p : Nat) (rows : List SpanRow) : State :=
  match spanOnPort s (fun x => x.inPort == p) with
  | none => takeMsg s p 0x20 (fun _ t => t)
  | some q =>
    match freeHalf (s.span q) with
    | none => s
    | some h => takeMsg s p 0x20 (fun m t =>
        let x := t.span q
        let codes := (List.range 256).map (fun i => recField m.payload (1088 + 2 * i) 2)
        let t := (List.range (ceilDiv m.payload.length 64)).foldl (fun u i =>
          match pa0 u (u.part q).ctx (x.inVa + h * x.inBytes + 64 * i) true with
          | some a => agentWrite u a ((m.payload.drop (64 * i)).take 64)
          | none => u) t
        t.updSpan q (fun y => { y with steps := y.steps ++ [{ step := m.addr, half := h, rows := rows, codes := codes }] }))

/-- STEP_MESSAGE (R347). -/
def execStepMessage (p : Nat) (rows : List SpanRow) (s : State) : Answer :=
  .next (s.engine (fun s => stepMessage s p rows))

/-- One slot of TOKENS at stage 0 (R318, R348): the token is delivered, or the request ends. -/
def tokenSlot (payload : List Byte) (ids : List Nat) (s : State) (i : Nat) : State :=
  match s.op (ids.getD i 0) with
  | none => s
  | some o =>
    let token := recField payload (64 + 8 * i) 4
    let code := recField payload (68 + 8 * i) 2
    let s := s.updOp o.id (fun y => { y with spanStep := none })
    let o := { o with spanStep := none }
    if o.phase == .ending then s
    else if code != 0 then endRequest s o code
    else if o.phase != .decode then s
    else
      match stopCodeAt o s.timeKc with
      | some c => endRequest s o c
      | none =>
        let us := (s.timeKc - o.ringKc) / 375
        let o := { o with
          committed := o.committed + 1, firstUs := if o.firstUs.isNone then some us else o.firstUs
          stopHit := o.stopHit || isStop o token }
        let s := stageToken (s.updOp o.id (fun _ => o)) o.id token o.length
        match s.op o.id with
        | none => s
        | some y => if isStop y token || decide (y.desc.maxTokens ≤ y.committed) then endRequest s y 0 else s

/-- TOKENS (R348). -/
def tokensMsg (s : State) (m : ChainMsg) : State :=
  match [0, 1].find? (fun q => spanHead s q && (s.span q).awaited.any (fun a => a.1 == m.addr)) with
  | none => s
  | some q =>
    match (s.span q).awaited.find? (fun a => a.1 == m.addr) with
    | none => s
    | some a =>
      let s := s.updSpan q (fun y => { y with awaited := y.awaited.filter (fun b => b.1 != m.addr) })
      (List.range a.2.length).foldl (tokenSlot m.payload a.2) s

/-- TOKENS (R348). -/
def execTokens (p : Nat) (s : State) : Answer :=
  .next (s.engine (fun s => takeMsg s p 0x21 (fun m t => tokensMsg t m)))

/-- The operation that stands for a sequence at a later stage: of a span that runs here, else of one that has halted. -/
def standIn (s : State) (seq : Nat) : Option Operation :=
  let l := s.ops.filter (fun (o : Operation) => o.standIn && o.desc.seqIndex == seq && o.phase != .ending)
  match l.find? (fun o => [0, 1].any (fun q => spanLater s q && (s.part q).ctx == o.ctx)) with
  | some o => some o
  | none => l.head?

/-- RELEASE_MESSAGE (R348): the stage's sequence is released under R160. -/
def execReleaseMessage (p : Nat) (s : State) : Answer :=
  .next (s.engine (fun s => takeMsg s p 0x22 (fun m t =>
    match standIn t m.addr with
    | some o => endRequest t o 0
    | none => t)))

/-- SPAN_FREE (R347): the half of the next stage that held a step is free. -/
def execSpanFree (p : Nat) (s : State) : Answer :=
  .next (s.engine (fun s => takeMsg s p 0x23 (fun m t =>
    match spanOnPort t (fun x => x.outPort == p) with
    | some q => t.updSpan q (fun y => { y with outBusy := y.outBusy.filter (fun b => b.1 != m.addr) })
    | none => t)))

/-- SPAN_HALT (R349). -/
def execSpanHalt (p : Nat) (s : State) : Answer :=
  .next (s.engine (fun s => takeMsg s p 0x24 (fun m t =>
    overList [0, 1] (fun q u => if spanRoom u q m.src then spanStop u q else u) t)))

/-! The export table. -/

/-- EXPORT_COMMIT (R342): the named context must own the granule. -/
def exportCommit (s : State) (entry : Nat) : State :=
  let s := s.wr Reg.CHN_EXP_SEL_ENTRY entry
  let e : ExportEntry :=
    { valid := s.flag Reg.CHN_EXP_DATA0_VALID, w := s.flag Reg.CHN_EXP_DATA0_W
      reqRoom := s.rd Reg.CHN_EXP_DATA0_REQ_ROOM, granule := s.rd Reg.CHN_EXP_DATA0_GRANULE
      context := s.rd Reg.CHN_EXP_DATA1_CONTEXT }
  if !owns s e.context (e.granule * 2 ^ 21) then
    (s.wr Reg.CHN_EXP_DATA1_CODE (Code.CHN_E_EXPORT % 4096)).rep Code.CHN_E_EXPORT 0
  else { s.wr Reg.CHN_EXP_DATA1_CODE 0 with
      chn := { s.chn with exports := SMap.set (fun _ => {}) s.chn.exports entry e } }

/-- EXPORT_COMMIT (R342). -/
def execExportCommit (entry : Nat) (s : State) : Answer :=
  .next (s.host Reg.CHN_EXP_SEL_ENTRY.off (fun s => exportCommit s entry))

/-- EXPORT_LOAD (R342). -/
def exportLoad (s : State) (entry : Nat) : State :=
  let e := SMap.get (fun _ => ({} : ExportEntry)) s.chn.exports entry
  s.wrs [(Reg.CHN_EXP_SEL_ENTRY, entry), (Reg.CHN_EXP_DATA0_VALID, b2n e.valid), (Reg.CHN_EXP_DATA0_W, b2n e.w),
    (Reg.CHN_EXP_DATA0_REQ_ROOM, e.reqRoom), (Reg.CHN_EXP_DATA0_GRANULE, e.granule), (Reg.CHN_EXP_DATA1_CONTEXT, e.context)]

/-- EXPORT_LOAD (R342). -/
def execExportLoad (entry : Nat) (s : State) : Answer :=
  .next (s.host Reg.CHN_EXP_SEL_ENTRY.off (fun s => exportLoad s entry))

end Sys2Proof.Machine
end

