-- ==== Sys2Proof/Machine/Power.lean ====
section
/-! DEFINITION. Power, clocks and thermal control (chapter 14): the cap and the loop that holds it, divider changes and
the core voltage, ageing, throttle reasons, droop, the brake and the thermal trip. The model of R361 and the reasons'
requirements are in PowerModel. -/

namespace Sys2Proof.Machine

/-! Following a change of what the reasons require. -/

/-- A speed-up that waits on the voltage is abandoned when a slow-down arrives (R374). -/
def dropWait (s : State) (p : Nat) : State :=
  match s.pwr.wait p with
  | some d => if d < target s p then { s with pwr := s.pwr.setWait p none } else s
  | none => s

/-- A partition that waits for work takes a slower divider at once (R356). -/
def slowWaiting (s : State) (p : Nat) : State :=
  if (s.part p).stage == .waiting && decide (divOf s p < target s p) then setDivider s p (target s p) else s

/-- Bring reasons, waiting speed-ups and waiting partitions up to date. -/
def powerAct (s : State) : State :=
  overList ([0, 1].filter (fun p => (s.part p).busy)) (fun p t => slowWaiting (dropWait t p) p) (powerSettle s)

/-- Lower or raise VDD_CORE to what the running dividers ask, unless a speed-up waits on it (R359). -/
def voltSettle (s : State) (ok : Bool) : State :=
  if s.pwr.wait0.isSome || s.pwr.wait1.isSome then s else pmbus s (voltWanted s) ok

/-- Begin a speed-up of one step: at least 1 ms after the last change, the voltage first (R359, R365). -/
def speedUp (s : State) (p : Nat) (ok : Bool) : State :=
  let div := divOf s p
  if (s.part p).busy && decide (target s p < div) && (s.pwr.wait p).isNone
      && decide (s.pwr.lastChange p + 1000 ≤ s.timeUs) then
    let d := faster div
    let v := maxNat (voltWanted s) (voltFor s d)
    if s.pwr.setpoint < v then
      let s := pmbus s v ok
      if ok then { s with pwr := s.pwr.setWait p (some d) } else s
    else if (s.part p).stage == .waiting then setDivider s p d
    else { s with pwr := s.pwr.setWait p (some d) }
  else s

/-! The cap. -/

/-- A write of CAP_W (R8, R360). -/
def capWrite (s : State) (value : Nat) : State :=
  let ceil := s.rd Reg.SRM_LIMITS0_CEIL_W
  let cap := clampNat 90 ceil value
  if [0, 1].any (fun p => (s.part p).busy && decide ((s.part p).divLimit < capDivOf s (mapMasks s) p cap)) then
    (s.wr Reg.PWR_CAP_CTRL_CODE Code.PWR_E_CAP_LIMIT).rep Code.PWR_E_CAP_LIMIT 0
  else
    s.wrs [(Reg.PWR_CAP_CTRL_CAP_W, cap), (Reg.PWR_CAP_CTRL_CODE, 0),
      (Reg.PWR_CAP_CTRL_CLAMPED, b2n (decide (cap ≠ value)))]

/-- CAP_WRITE (R360). -/
def execCapWrite (value : Nat) (s : State) : Answer :=
  .next (s.host Reg.PWR_CAP_CTRL_CAP_W.off (fun s => capWrite s value))

/-- A write of FORCE_DIV: a value outside the divider set is stored as 0. -/
def forceDiv (s : State) (p value : Nat) : State :=
  powerAct (s.wr (Reg.PWR_P_DIV_FORCE_DIV p) (if dividers.contains value then value else 0))

/-- FORCE_DIV_WRITE (R364). -/
def execForceDivWrite (p value : Nat) (s : State) : Answer :=
  .next (s.host (Reg.PWR_P_DIV_FORCE_DIV p).off (fun s => forceDiv s p value))

/-! The loop of R362. -/

/-- A signed 8-bit temperature as stored, and a temperature as it is stored. -/
def readTemp (v : Nat) : Int := if v < 128 then v else (v : Int) - 256
def tempBits (t : Int) : Nat := (t % 256).toNat

/-- The largest of a list of temperatures and its index. -/
def hottest : List Int → Nat → Int × Nat
  | [], _ => (-128, 0)
  | t :: l, i =>
    let r := hottest l (i + 1)
    if l.isEmpty || decide (r.1 ≤ t) then (t, i) else r

/-- Store what a period measured (R362, R369). -/
def storeSample (s : State) (m : PowerSample) : State :=
  let h := hottest m.logic 0
  let c := hottest m.cellar 0
  let peak := readTemp (s.rd Reg.PWR_TEMP_PEAK_TJ_C)
  let s := { s with pwr := { s.pwr with avg1ms := m.pkg1ms, avg10ms := m.pkg10ms } }
  let s := s.wrs [(Reg.PWR_POWER_PKG_DW, m.pkg10ms), (Reg.PWR_POWER_CORE_DW, m.core10ms),
    (Reg.PWR_CURRENT_CORE_A, m.amp10ms), (Reg.PWR_CURRENT_PEAK_A, maxNat (s.rd Reg.PWR_CURRENT_PEAK_A) m.amp100us)]
  let s := if m.logic.isEmpty then s else s.wrs [(Reg.PWR_TEMP_TJ_C, tempBits h.1), (Reg.PWR_TEMP_HOT_SENSOR, h.2),
    (Reg.PWR_TEMP_PEAK_TJ_C, tempBits (if peak < h.1 then h.1 else peak))]
  if m.cellar.isEmpty then s else s.wr Reg.PWR_TEMP_CELLAR_C (tempBits c.1)

/-- Keeper's stepping reasons become active with a step (R364). -/
def keeperThrottle (s : State) (m : PowerSample) : State :=
  let hot := !m.logic.isEmpty && decide ((s.rd Reg.PWR_THERM_CFG_THROTTLE_C : Int) ≤ (hottest m.logic 0).1)
  let warm := !m.cellar.isEmpty && decide ((s.rd Reg.PWR_THERM_CFG_CELLAR_C : Int) ≤ (hottest m.cellar 0).1)
  let s := if hot && !s.pwr.thermOn then stepAll { s with pwr := { s.pwr with thermOn := true } } 2 else s
  if warm && !s.pwr.celOn then stepAll { s with pwr := { s.pwr with celOn := true } } 5 else s

/-- The running partitions, prefill first (R362). -/
def capOrder (s : State) : List Nat :=
  let run := [0, 1].filter (fun p => (s.part p).busy)
  run.filter (fun p => (s.part p).role == 1) ++ run.filter (fun p => (s.part p).role != 1)

/-- Slow the first partition of the order that is not at its cap divider. -/
def capSlow (s : State) : List Nat → State
  | [] => s
  | p :: l =>
    if s.pwr.capWant p < partCapDiv s p then
      { s with pwr := s.pwr.setCapWant p (minNat (slower (s.pwr.capWant p)) (partCapDiv s p)) }
    else capSlow s l

/-- The divider that every reason but POWER_CAP requires. -/
def needOther (s : State) (p : Nat) : Nat :=
  need { s with pwr := s.pwr.setCapWant p 0 } p

/-- The model's increase, in µW, of a speed-up of one step (R361, R362). -/
def stepCost (s : State) (p d : Nat) : Nat := sumK s ((mapMasks s).getD p 0) * (scaleOf (faster d) - scaleOf d)

/-- Speed up the first partition of a list that the three conditions of R362 allow. -/
def capFast (s : State) : List Nat → State
  | [] => s
  | p :: l =>
    let d := s.pwr.capWant p
    if decide (partFloor s p < d) && divOf s p == d
        && decide (s.pwr.avg10ms * 100000 + stepCost s p d + 2000000 ≤ s.pwr.capNow * 1000000)
        && decide (s.pwr.lastChange p + 1000 ≤ s.timeUs) && decide (needOther s p ≤ faster d) then
      { s with pwr := s.pwr.setCapWant p (faster d) }
    else capFast s l

/-- The cap loop proper: never above the cap divider, one step a period (R362). -/
def capLoop (s : State) : State :=
  let order := capOrder s
  let s := overList order (fun p t =>
    let d := clampNat (partFloor t p) (maxNat (partFloor t p) (partCapDiv t p)) (t.pwr.capWant p)
    { t with pwr := t.pwr.setCapWant p d }) s
  if s.pwr.capNow * 10 < s.pwr.avg1ms then capSlow s order else capFast s order.reverse

/-- The count behind PWR_E_MODEL: 100 ms of the 10 ms average more than 5 % above the cap, every partition at its cap
divider (R362). -/
def modelCheck (s : State) : State :=
  let order := capOrder s
  if !order.isEmpty && decide (s.pwr.capNow * 21 < s.pwr.avg10ms * 2)
      && order.all (fun p => decide (partCapDiv s p ≤ s.pwr.capWant p)) then
    let s := { s with pwr := { s.pwr with modelOver := s.pwr.modelOver + 1 } }
    if decide (1000 ≤ s.pwr.modelOver) && !s.pwr.modelSaid then
      let s := { s with pwr := { s.pwr with modelSaid := true } }
      (s.rep Code.PWR_E_MODEL 0).raisePwr Reg.PWR_IRQ_STATUS_MODEL
    else s
  else { s with pwr := { s.pwr with modelOver := 0, modelSaid := false } }

/-- One period of power control (R360, R362, R364). A cap written during a brake waits for its end (R374). -/
def powerTick (s : State) (m : PowerSample) (ok : Bool) : State :=
  let s := storeSample s m
  let s := if s.flag Reg.PWR_STATUS_BRAKE_IN then s
    else { s with pwr := { s.pwr with capNow := minNat (s.rd Reg.PWR_CAP_CTRL_CAP_W) (s.rd Reg.SRM_LIMITS0_CEIL_W) } }
  let s := powerAct (modelCheck (capLoop (keeperThrottle s m)))
  let s := overList (capOrder s).reverse (fun p t => speedUp t p ok) s
  voltSettle s ok

/-- POWER_LOOP_TICK (R362). -/
def execPowerLoopTick (sample : PowerSample) (ok : Bool) (s : State) : Answer :=
  .next (s.engine (fun s => if s.ready then powerTick s sample ok else s))

/-! Divider changes. -/

/-- A beat boundary at which power control acts on a partition: a slow-down changes the divider and then the voltage, a
speed-up orders the voltage first (R356, R359, R365). -/
def dividerChange (s : State) (p : Nat) (ok : Bool) : State :=
  if (s.part p).busy then
    if divOf s p < target s p then
      voltSettle (setDivider { s with pwr := s.pwr.setWait p none } p (target s p)) ok
    else voltSettle (speedUp s p ok) ok
  else s

/-- DIVIDER_CHANGE (R356). -/
def execDividerChange (p : Nat) (ok : Bool) (s : State) : Answer := .next (s.engine (fun s => dividerChange s p ok))

/-- A speed-up whose voltage has settled changes the divider (R359). -/
def voltageSettled (s : State) (p : Nat) (ok : Bool) : State :=
  match s.pwr.wait p with
  | some d =>
    let s := { s with pwr := s.pwr.setWait p none }
    if (s.part p).busy && decide (target s p ≤ d) && decide (d < divOf s p) then voltSettle (setDivider s p d) ok
    else voltSettle s ok
  | none => s

/-- VOLTAGE_SETTLED (R359). -/
def execVoltageSettled (p : Nat) (ok : Bool) (s : State) : Answer := .next (s.engine (fun s => voltageSettled s p ok))

/-! Ageing. -/

/-- A raised MAXDIV that changes an answered d_P sets EVAL_CHANGE (R322, R358): `before` is the state before the raise. -/
def evalSettle (before s : State) : State :=
  if evalChanged before s then s.raiseSrv Reg.SRV_IRQ_STATUS_EVAL_CHANGE else s

/-- Raise the MAXDIV of a tile to the next divider and journal it, with what follows (R357, R358). -/
def raiseMaxDiv (s : State) (n : Nat) : State :=
  let before := s
  let d := slower (s.rd (Reg.PWR_TILE_MAXDIV n))
  let s := { s with pwr := { s.pwr with
    journal := SMap.set (fun _ => 0) s.pwr.journal n d, lowMargin := SMap.set (fun _ => 0) s.pwr.lowMargin n 0 } }
  let s := s.wrs [(Reg.PWR_TILE_MAXDIV n, d), (Reg.TIL_STATUS_MAXDIV n, d)]
  let s := (s.report { errOf Code.PWR_E_MAXDIV 0 with tile := n }).raisePwr Reg.PWR_IRQ_STATUS_MAXDIV
  powerAct (stopSlow (evalSettle before s) n)

/-- Whether a tile has been started and passed its self-test. -/
def tileStarted (s : State) (n : Nat) : Bool :=
  s.rd (Reg.PWR_TILE_MAXDIV n) != 0 && s.rd (Reg.PWR_TILE_MAXDIV n) != 255

/-- One sample of one tile's ageing monitor (R357). -/
def ageTile (low : Nat) (n : Nat) (s : State) : State :=
  if tileStarted s n then
    if bitOf low n then
      let k := SMap.get (fun _ => 0) s.pwr.lowMargin n + 1
      if decide (60 ≤ k) && decide (s.rd (Reg.PWR_TILE_MAXDIV n) < 12) then raiseMaxDiv s n
      else { s with pwr := { s.pwr with lowMargin := SMap.set (fun _ => 0) s.pwr.lowMargin n (minNat k 60) } }
    else { s with pwr := { s.pwr with lowMargin := SMap.set (fun _ => 0) s.pwr.lowMargin n 0 } }
  else s

/-- AGEING_SAMPLE (R357): bit `n` of `low` says that tile `n` shows margin below its threshold. -/
def execAgeingSample (low : Nat) (s : State) : Answer :=
  .next (s.engine (fun s => if s.ready then iter 32 (ageTile low) s else s))

/-! Throttle reasons. -/

/-- CURRENT_LIMIT (R364). -/
def execCurrentLimit (s : State) : Answer :=
  .next (s.engine (fun s =>
    if s.pwr.curOn then s else powerAct (stepAll { s with pwr := { s.pwr with curOn := true } } 1)))

/-- THERMAL_HW_THROTTLE (R364). -/
def execThermalHwThrottle (s : State) : Answer :=
  .next (s.engine (fun s => powerAct { s with pwr := { s.pwr with thermHw := true } }))

/-- Whether a stepping reason is active. -/
def stepActive (s : State) (reason : Nat) : Bool :=
  (reason == 1 && s.pwr.curOn) || (reason == 2 && s.pwr.thermOn) || (reason == 5 && s.pwr.celOn)

/-- THROTTLE_REPEAT (R364): the interval of a stepping reason (1, 2 or 5) that stays active. -/
def execThrottleRepeat (reason : Nat) (s : State) : Answer :=
  .next (s.engine (fun s => if stepActive s reason then powerAct (stepAll s reason) else s))

/-- Clear a reason: of THERMAL, the hardware rule or Keeper's. -/
def clearReason (s : State) (reason : Nat) (hw : Bool) : State :=
  if reason = 1 then stepNone { s with pwr := { s.pwr with curOn := false } } 1
  else if reason = 2 then
    if hw then { s with pwr := { s.pwr with thermHw := false } }
    else stepNone { s with pwr := { s.pwr with thermOn := false } } 2
  else if reason = 4 then { s with pwr := { s.pwr with railOut := false } }
  else if reason = 5 then stepNone { s with pwr := { s.pwr with celOn := false } } 5
  else s

/-- THROTTLE_CLEAR (R364). -/
def execThrottleClear (reason : Nat) (hw : Bool) (s : State) : Answer :=
  .next (s.engine (fun s => powerAct (clearReason s reason hw)))

/-- RAIL_FAULT (R369), evaluated after Keeper starts (R451). -/
def execRailFault (s : State) : Answer :=
  .next (s.engine (fun s =>
    if s.ready && !s.pwr.railOut then
      powerAct (({ s with pwr := { s.pwr with railOut := true } }.rep Code.PWR_E_RAIL 0).raisePwr Reg.PWR_IRQ_STATUS_RAIL)
    else s))

/-! Droop (R367). Detectors 0 to 31 are the tiles', 32 stands for the hubs'. -/

/-- Whether a detector acts on a partition. -/
def droopHits (s : State) (d p : Nat) : Bool := (s.part p).busy && (d == 32 || (s.part p).tiles.contains d)

/-- A detector fires. A tile of no running partition is ignored. -/
def droopFire (s : State) (d : Nat) : State :=
  if d == 32 || droopHits s d 0 || droopHits s d 1 then
    let s := { s with pwr := { s.pwr with droops := s.pwr.droops.filter (· != d) ++ [d] } }
    overList [0, 1] (fun p t => if droopHits t d p then stallAssert t p .droop else t) (s.inc Reg.PWR_DROOPS)
  else s

/-- DROOP_FIRE (R367). -/
def execDroopFire (d : Nat) (s : State) : Answer := .next (s.engine (fun s => droopFire s d))

/-- A detector has read within 30 mV for 64 T-cycles: the cause clears once no detector of the partition fires, and the
save of an urgent request that waited for it begins (R278). -/
def droopClear (s : State) (d : Nat) : State :=
  let s := { s with pwr := { s.pwr with droops := s.pwr.droops.filter (· != d) } }
  overList [0, 1] (fun p t =>
    if (t.part p).stall.droop && !(t.pwr.droops.any (fun e => droopHits t e p)) then
      let t := stallClear t p .droop
      if (t.part p).urgent && (t.part p).stage == .waiting then boundary t p else t
    else t) s

/-- DROOP_CLEAR (R367). -/
def execDroopClear (d : Nat) (s : State) : Answer := .next (s.engine (fun s => droopClear s d))

/-! The brake (R368, R431). -/

/-- The filtered brake level changes. The Strongroom's filter works from VDD_IO up, also in a reset (R436), and stops with
the clocks (R451); in the safe state nothing but the level follows (R374). -/
def brakeLevel (s : State) (b : Bool) : State :=
  if s.chip.ioUp && !s.chip.tripped then
    let s := s.wr Reg.PWR_STATUS_BRAKE_IN (b2n b)
    if s.live then powerAct s else setReason s 3 b
  else s

/-- BRAKE_ASSERT (R368). -/
def execBrakeAssert (s : State) : Answer := .next (brakeLevel s true)

/-- BRAKE_RELEASE (R368): the checkpoints already written stand, and none follow (R451). -/
def execBrakeRelease (s : State) : Answer :=
  .next (if s.chip.ioUp && !s.chip.tripped then
    brakeLevel { s with pwr := { s.pwr with brakeStuck := false } } false else s)

/-- BRAKE_GLITCH (R368). -/
def execBrakeGlitch (s : State) : Answer := .next (s.engine (fun s => s.addSat Reg.PWR_BRAKE_GLITCH_COUNT 1))

/-- BRAKE_STUCK (R368): once per assertion. -/
def execBrakeStuck (s : State) : Answer :=
  .next (s.engine (fun s =>
    if s.flag Reg.PWR_STATUS_BRAKE_IN && !s.pwr.brakeStuck then
      ({ s with pwr := { s.pwr with brakeStuck := true } }.rep Code.PWR_E_BRAKE_STUCK 0).raisePwr
        Reg.PWR_IRQ_STATUS_BRAKE_STUCK
    else s))

/-- THERMAL_TRIP (R370): every clock stops, THERM_TRIP_N is driven low and latched, the link is lost. -/
def execThermalTrip (s : State) : Answer :=
  .next (if !s.chip.coreUp then s
    else { s with chip := { s.chip with
      tripped := true, tripFlag := true, thermTripLow := true, linkUp := false, alertLow := false } })

end Sys2Proof.Machine
end

