-- ==== Sys2Proof/Machine/Porter.lean ====
section
/-! DEFINITION. Porter and the Strongroom (chapter 15): the mailbox and its commands, contexts, the life cycle, signatures
and quotes, a peer's quote over the chain, and the tamper response. -/

namespace Sys2Proof.Machine

/-! The mailbox (R383). -/

/-- The life-cycle states in which a command is permitted; none for an unknown OP. -/
def mbxStates (op : Nat) : Option (List Nat) :=
  if op = 0x01 ∨ op = 0x02 ∨ op = 0x03 then some [0, 1, 2]
  else if op = 0x10 ∨ op = 0x11 ∨ op = 0x12 then some [1, 2]
  else if op = 0x20 then some [1]
  else if op = 0x21 then some [1, 2]
  else if op = 0x22 then some [1, 2, 3]
  else if op = 0x30 ∨ op = 0x31 ∨ op = 0x32 then some [0]
  else none

/-- The commands in which Keeper takes part (R457). -/
def mbxKeeper (op : Nat) : Bool := [0x01, 0x02, 0x03, 0x10, 0x11, 0x21, 0x22].contains op

/-- A command ends: its code, the bytes written, its event. -/
def mbxEnd (s : State) (code bytes peer : Nat) : State :=
  let s := s.wrs [(Reg.SEC_MBX_STATUS_BUSY, 0), (Reg.SEC_MBX_STATUS_CODE, code), (Reg.SEC_MBX_RESULT_BYTES, bytes),
    (Reg.SEC_MBX_RESULT_PEER_CODE, peer)]
  let s := s.raiseSec Reg.SEC_IRQ_STATUS_MBX_DONE
  if code = 0 ∨ code = Code.KPR_E_NOT_READY then s else s.rep code 0

/-- Run the command in the registers: discarded while one is in progress; refused by OP, by Keeper's state, by life
cycle. -/
def mbxGo (s : State) (op : Nat) (k : State → State) : State :=
  if s.flag Reg.SEC_MBX_STATUS_BUSY then s
  else match mbxStates op with
    | none => mbxEnd s Code.SEC_E_OPCODE 0 0
    | some l =>
      if mbxKeeper op && !s.ready then mbxEnd s Code.KPR_E_NOT_READY 0 0
      else if l.contains (s.rd Reg.SRM_LC_STATE) then k s
      else mbxEnd s Code.SEC_E_LIFECYCLE 0 0

/-- The host writes a command's arguments and GO. -/
def mbxRow (s : State) (op : Nat) (args : List (Nat × Nat)) (k : State → State) : State :=
  s.host Reg.SEC_MBX_CMD_OP.off (fun s =>
    mbxGo (s.wrs ((Reg.SEC_MBX_CMD_OP, op) :: args.map (fun a => (Reg.SEC_MBX_ARG_ARG a.1, a.2)))) op k)

/-- Whether `n` bytes fit the buffer. -/
def mbxFits (s : State) (n : Nat) : Bool := decide (n ≤ s.rd Reg.SEC_MBX_LEN_LEN)

/-- Write a result to the buffer and end the command. -/
def mbxResult (s : State) (bytes : List Byte) (dmaOk : Bool) : State :=
  if dmaOk then mbxEnd (s.hostWrite (s.rd Reg.SEC_MBX_BUF) bytes false) 0 bytes.length 0
  else mbxEnd s Code.SEC_E_DMA 0 0

/-- The eight words of a 32-byte value, for ARG8 to ARG15. -/
def digestArgs (b : List Byte) : List (Nat × Nat) := (List.range 8).map (fun i => (8 + i, recField b (4 * i) 4))

/-- The 32 bytes in ARG8 to ARG15. -/
def argDigest (s : State) : List Byte :=
  ((List.range 8).map (fun i => leBytes 4 (s.rd (Reg.SEC_MBX_ARG_ARG (8 + i))))).flatten

/-! Contexts (R377 to R380). -/

/-- The context record in 128 bytes. -/
def parseCtx (r : List Byte) : CtxRec := {
  rootPa := recField r 0x00 8, seqVa := recField r 0x08 8, seqEntries := recField r 0x10 4
  streamEntries := recField r 0x14 4, streamVa := recField r 0x18 8, poolVa := recField r 0x20 8
  poolN := recField r 0x28 4, retN := recField r 0x2C 4, retVa := recField r 0x30 8, saveVa := recField r 0x38 8
  saveHalf := recField r 0x40 8, gbVa := recField r 0x48 8, gbBytes := recField r 0x50 8
  gbEntries := recField r 0x58 4, tenantId := (r.drop 0x60).take 32 }

/-- Whether a number is a power of two inside a range. -/
def powerIn (n lo hi : Nat) : Bool := decide (lo ≤ n) && decide (n ≤ hi) && decide (2 ^ Nat.log2 n = n)

/-- The ranges of R378. -/
def ctxRecOk (s : State) (ctx : Nat) (raw : List Byte) : Bool :=
  let r := parseCtx raw
  let va (a align : Nat) : Bool := decide (a < 2 ^ 52) && a % align == 0
  va r.rootPa 65536 && owns s ctx r.rootPa && va r.seqVa 64 && decide (1 ≤ r.seqEntries) &&
  decide (r.seqEntries ≤ 65536) && decide (r.streamEntries ≤ 65536) && va r.streamVa 64 &&
  (r.streamEntries != 0 || r.streamVa == 0) && va r.poolVa 64 && powerIn r.poolN 64 (2 ^ 20) &&
  powerIn r.retN 64 (2 ^ 20) && va r.retVa 64 && va r.saveVa 4096 && r.saveHalf % 4096 == 0 && va r.gbVa 65536 &&
  (if r.gbVa = 0 then r.gbEntries == 0 else powerIn r.gbEntries (2 ^ 10) (2 ^ 20)) && recField raw 0x5C 4 == 0

/-- CTX_OPEN. -/
def ctxOpen (s : State) : State :=
  let c := s.rd (Reg.SEC_MBX_ARG_ARG 0) % 4096
  if ctxState s c = 0 then mbxEnd (s.wr (Reg.SEC_CTX_STATE c) 1) 0 0 0 else mbxEnd s Code.SEC_E_CTX_STATE 0 0

/-- CTX_OPEN (R383). -/
def execCtxOpen (ctx : Nat) (s : State) : Answer := .next (mbxRow s 0x01 [(0, ctx)] ctxOpen)

/-- Whether a context is running, pending, or has an operation in flight (R379). -/
def ctxBusy (s : State) (c : Nat) : Bool := runningOrPending s c || s.ops.any (fun o => o.ctx == c)

/-- CTX_CONFIGURE, on the record that its DMA reads. -/
def ctxConfigure (s : State) (raw : List Byte) (dmaOk : Bool) : State :=
  let c := s.rd (Reg.SEC_MBX_ARG_ARG 0) % 4096
  if !registered s c then mbxEnd s Code.SEC_E_CTX_STATE 0 0
  else if !mbxFits s 128 then mbxEnd s Code.SEC_E_FORMAT 0 0
  else if ctxState s c == 2 && ctxBusy s c then mbxEnd s Code.SEC_E_CTX_BUSY 0 0
  else if !dmaOk then mbxEnd s Code.SEC_E_DMA 0 0
  else if !ctxRecOk s c raw then mbxEnd s Code.SEC_E_FORMAT 0 0
  else
    let s := dropWalks { s with ctxs := SMap.set ctxBlank s.ctxs c (some (parseCtx raw)) } c
    mbxEnd (s.wrs [(Reg.SEC_CTX_STATE c, 2), (Reg.SRV_GB_CFG_MAX_FRAMES c, 0),
      (Reg.EXP_CTXV_DATA_PREFILL_SLOT c, 0xFF), (Reg.EXP_CTXV_DATA_DECODE_SLOT c, 0xFF)]) 0 0 0

/-- CTX_CONFIGURE (R378, R379). -/
def execCtxConfigure (ctx : Nat) (record : List Byte) (dmaOk : Bool) (s : State) : Answer :=
  .next (mbxRow s 0x02 [(0, ctx)] (fun s => ctxConfigure s record dmaOk))

/-- Step 1 of R380: the context's request queues halt; one that had halted before takes the code (R286). -/
def ctxQueues (s : State) (c : Nat) : State :=
  let qs := s.rqs.filterMap (fun e => match e.2 with
    | some x => if x.ctx = c then some e.1 else none
    | none => none)
  overList qs (fun q t => rqHalt t q Code.HIF_E_CONTEXT) s

/-- Step 2 of R380: the context's operations end, no sequence released. -/
def ctxOps (s : State) (c : Nat) : State :=
  let ids := (s.ops.filter (fun o => o.ctx == c && o.endCode.isNone)).map (·.id)
  overList ids (fun id t => match t.op id with
    | some o => endNoRecord t o Code.HIF_E_CONTEXT
    | none => t) s

/-- Steps 3 to 5 of R380 and R243. -/
def ctxClear (s : State) (c : Nat) : State :=
  let keep (l : List Pin) : List Pin := l.filter (fun q => q.ctx != c)
  let s := migKill (dropWalks (unbind s c) c) c
  { s with
    releases := s.releases.filter (fun r => r.ctx != c)
    part0 := { s.part0 with pins := keep s.part0.pins }
    part1 := { s.part1 with pins := keep s.part1.pins }
    chn := { s.chn with exports := s.chn.exports.filter (fun e => e.2.context != c) }
    ctxs := SMap.set ctxBlank s.ctxs c none
    gbOn := SMap.set (fun _ => 0) s.gbOn c 0
    refs := s.refs.filter (fun e => e.2 / 65536 % 4096 != c)
    gran := s.gran.map (fun e => if e.2 = .owned c then (e.1, GranSt.scrub (some c)) else e) }

/-- CTX_END: the steps of R380; a context that owns no granule is FREE at once. -/
def ctxEnd (s : State) : State :=
  let c := s.rd (Reg.SEC_MBX_ARG_ARG 0) % 4096
  if !registered s c then mbxEnd s Code.SEC_E_CTX_STATE 0 0
  else if runningOrPending s c then mbxEnd s Code.SEC_E_CTX_BUSY 0 0
  else
    let s := ctxClear (ctxOps (ctxQueues s c) c) c
    let s := s.wrs [(Reg.SEC_CTX_STATE c, 3), (Reg.EXP_CTXV_DATA_PREFILL_SLOT c, 0xFF),
      (Reg.EXP_CTXV_DATA_DECODE_SLOT c, 0xFF)]
    ctxFreed (mbxEnd s 0 0 0) c

/-- CTX_END (R380). -/
def execCtxEnd (ctx : Nat) (s : State) : Answer := .next (mbxRow s 0x03 [(0, ctx)] ctxEnd)

/-! Signatures (R389, R390). -/

/-- The index of the identity key's next signature and the state after it, the reservation written first; none where
the key is exhausted. -/
def takeIndex (s : State) : Option (Nat × State) :=
  let next := s.rd Reg.SRM_IDX_NEXT
  let rsv := s.rd Reg.SRM_IDX_RSV_BLOCKS
  if next < 1024 * rsv then some (next, s.wr Reg.SRM_IDX_NEXT (next + 1))
  else if rsv < 2 ^ 24 then
    let s := s.wrs [(Reg.SRM_IDX_RSV_BLOCKS, rsv + 1), (Reg.SRM_IDX_NEXT, next + 1)]
    some (next, if 2 ^ 24 - (rsv + 1) < 2 ^ 16 then s.raiseSec Reg.SEC_IRQ_STATUS_INDEX_LOW else s)
  else none

/-- A signature of the identity key: the index in its first 5 bytes (log entry 13). -/
def identitySign (body : List Byte) (index : Nat) : List Byte :=
  (leBytes 5 index).reverse ++ (List.range 9888).map (fun i => Config.identitySig body index i)

/-- ID_PUB (R389). -/
def idPubBytes : List Byte := (List.range 68).map Config.identityPub

/-! Quotes (R392). -/

/-- LOGIC_UID. -/
def logicUid (s : State) : List Byte := ((List.range 4).map (fun i => leBytes 4 (s.rd (Reg.SRM_UID_UID i)))).flatten

/-- SRM offsets 0x004 to 0x00F and 0x024, in address order. -/
def limitBytes (s : State) : List Byte :=
  [BitVec.ofNat 8 (s.rd Reg.SRM_LIMITS0_CEIL_W), BitVec.ofNat 8 (s.rd Reg.SRM_LIMITS0_TRIP_C),
    BitVec.ofNat 8 (s.rd Reg.SRM_LIMITS0_THROTTLE_HW_C), BitVec.ofNat 8 (s.rd Reg.SRM_LIMITS0_MIN_DIV)] ++
  leBytes 2 (s.rd Reg.SRM_LIMITS1_VMIN_MV) ++ leBytes 2 (s.rd Reg.SRM_LIMITS1_VMAX_MV) ++
  leBytes 2 (s.rd Reg.SRM_LIMITS2_ICC_SUST_A) ++ leBytes 2 (s.rd Reg.SRM_LIMITS2_ICC_PEAK_A) ++
  [BitVec.ofNat 8 (s.rd Reg.SRM_ORDER_CEIL), BitVec.ofNat 8 (s.rd Reg.SRM_ORDER_TEMP),
    BitVec.ofNat 8 (s.rd Reg.SRM_ORDER_CONTENT), 0]

/-- A list of bytes cut or filled with zeros to a length. -/
def padTo (n : Nat) (b : List Byte) : List Byte := (b ++ List.replicate n 0).take n

/-- The set that the layout entry of a role reads for a context. -/
def ctxSet (s : State) (im : Image) (ctx : Nat) (prefill : Bool) : Option Nat :=
  match im.layouts.find? (fun e => ((im.parts.getD e.partition {}).desc.role == 1) == prefill) with
  | some e => pointedSet s (effectiveSlot s im e (some ctx)) false
  | none => none

/-- A set's SET_UID; 0 where there is none. -/
def uidOf (s : State) (n : Option Nat) : Nat := match n with | some k => (s.set k).setUid | none => 0

/-- The context fields of a quote, offsets 0x0B0 to 0x137; zeros for a unit quote. -/
def quoteCtx (s : State) (ctx : Option Nat) : List Byte :=
  match ctx with
  | none => List.replicate 0x88 0
  | some c =>
    let tenant := match s.ctxRec c with | some r => padTo 32 r.tenantId | none => List.replicate 32 0
    let head := leBytes 2 c ++ List.replicate 6 0 ++ tenant
    match boundSlot s c with
    | none => padTo 0x88 head
    | some k => match s.image k with
      | none => padTo 0x88 head
      | some im =>
        let d := ctxSet s im c false
        let base := match d with
          | some n => if 2 ≤ (s.set n).form then (s.set n).baseUid else 0
          | none => 0
        padTo 0x88 (head ++ padTo 16 im.itnId ++ padTo 32 (shake256 (s.mread (slotBase s k) im.totalLen)) ++
          leBytes 16 (uidOf s d) ++ leBytes 16 (uidOf s (ctxSet s im c true)) ++ leBytes 16 base)

/-- A quote's body (R392). -/
def quoteBody (s : State) (ctx : Option Nat) (nonce : List Byte) : List Byte :=
  let lc := s.rd Reg.SRM_LC_STATE
  leBytes 4 0x54514C48 ++ leBytes 2 1 ++ leBytes 1 (b2n ctx.isSome) ++ leBytes 1 lc ++ logicUid s ++ padTo 32 nonce ++
  leBytes 8 s.timeUs ++ leBytes 4 (s.rd Reg.KPR_FW_VERSION_VERSION) ++ leBytes 2 (s.rd Reg.CHN_LEVEL_COMPAT_LEVEL) ++
  leBytes 1 (s.rd Reg.CHN_STATUS_ROOM) ++ leBytes 1 0x21 ++ padTo 32 s.kpr.fwDigest ++
  padTo 32 (shake256 (limitBytes s)) ++
  ((List.range 8).map (fun i => leBytes 4 (s.rd (Reg.SRM_OWNER_DIGEST i)))).flatten ++
  leBytes 4 (s.rd Reg.SRM_TAMPER_COUNT) ++ leBytes 4 (s.rd Reg.SRM_KEYS_REVOKED) ++ quoteCtx s ctx ++
  List.replicate 200 0

/-- Sign a quote; none where the key is exhausted. -/
def makeQuote (s : State) (ctx : Option Nat) (nonce : List Byte) : Option (List Byte × State) :=
  match takeIndex s with
  | none => none
  | some (i, t) => some (quoteBody s ctx nonce ++ identitySign (quoteBody s ctx nonce) i, t)

/-- QUOTE. -/
def quote (s : State) (dmaOk : Bool) : State :=
  let arg := s.rd (Reg.SEC_MBX_ARG_ARG 0)
  let ctx := if arg % 2 = 0 then none else some (arg / 65536 % 4096)
  if (match ctx with | some c => ctxState s c != 2 | none => false) then mbxEnd s Code.SEC_E_CTX_STATE 0 0
  else if !mbxFits s 10405 then mbxEnd s Code.SEC_E_FORMAT 0 0
  else match makeQuote s ctx (argDigest s) with
    | none => mbxEnd s Code.SEC_E_KEY_EXHAUSTED 0 0
    | some (b, t) => mbxResult t b dmaOk

/-- QUOTE (R392). -/
def execQuote (scope ctx : Nat) (nonce : List Byte) (dmaOk : Bool) (s : State) : Answer :=
  .next (mbxRow s 0x10 ((0, scope % 2 + 65536 * (ctx % 4096)) :: digestArgs nonce) (fun s => quote s dmaOk))

/-- QUOTE_PEER: the request goes to the room; the command waits for the reply (R393). -/
def quotePeer (s : State) : State :=
  let room := s.rd (Reg.SEC_MBX_ARG_ARG 0) % 128
  if !mbxFits s 10405 then mbxEnd s Code.SEC_E_FORMAT 0 0
  else if room = s.rd Reg.CHN_STATUS_ROOM ∨ (routePort s room).isNone then mbxEnd s Code.SEC_E_PEER 0 0
  else
    let s := sendMsg s (msgTo s 0x31 3 room 0 (argDigest s ++ List.replicate 32 0))
    { s with sec := { s.sec with peerRoom := some room } }.wr Reg.SEC_MBX_STATUS_BUSY 1

/-- QUOTE_PEER (R393). -/
def execQuotePeer (room : Nat) (nonce : List Byte) (s : State) : Answer :=
  .next (mbxRow s 0x11 ((0, room) :: digestArgs nonce) quotePeer)

/-- QUOTE_PEER_TIMEOUT (R393). -/
def execQuotePeerTimeout (s : State) : Answer :=
  .next (s.engine (fun s =>
    if s.sec.peerRoom.isSome then mbxEnd { s with sec := { s.sec with peerRoom := none } } Code.SEC_E_PEER 0 0 else s))

/-- Take the first QUOTE message of a port that is a request, or a reply. -/
def takeQuote (s : State) (p : Nat) (reply : Bool) (k : ChainMsg → State → State) : State :=
  match (s.port p).inbox.find? (fun m => m.msgType == 0x31 && decide (2 ^ 63 ≤ m.addr) == reply) with
  | none => s
  | some m => k m (s.updPort p (fun x => { x with inbox := dropFirst m x.inbox }))

/-- Answer a peer's request with a code and a quote. -/
def quoteAnswer (s : State) (m : ChainMsg) (code : Nat) (bytes : List Byte) : State :=
  sendMsg s { msgTo s 0x31 3 m.src (2 ^ 63 + code) bytes with id := m.id }

/-- QUOTE_MESSAGE (R393): Porter serves a peer's request as a unit quote. -/
def execQuoteMessage (p : Nat) (s : State) : Answer :=
  .next (s.engine (fun s => takeQuote s p false (fun m t =>
    if !t.ready then quoteAnswer t m Code.KPR_E_NOT_READY []
    else if t.rd Reg.SRM_LC_STATE = 1 ∨ t.rd Reg.SRM_LC_STATE = 2 then
      match makeQuote t none (m.payload.take 32) with
      | none => quoteAnswer t m Code.SEC_E_KEY_EXHAUSTED []
      | some (b, u) => quoteAnswer u m 0 b
    else quoteAnswer t m Code.SEC_E_LIFECYCLE [])))

/-- A reply completes QUOTE_PEER; one that no command waits for is dropped. -/
def quoteReply (s : State) (m : ChainMsg) (dmaOk : Bool) : State :=
  if s.sec.peerRoom = some m.src then
    let s := { s with sec := { s.sec with peerRoom := none } }
    if m.addr % 65536 = 0 then mbxResult s m.payload dmaOk else mbxEnd s Code.SEC_E_PEER 0 (m.addr % 65536)
  else s

/-- QUOTE_REPLY (R393). -/
def execQuoteReply (p : Nat) (dmaOk : Bool) (s : State) : Answer :=
  .next (s.engine (fun s => takeQuote s p true (fun m t => quoteReply t m dmaOk)))

/-! The certificate and the life cycle (R384 to R387, R391). -/

/-- The certificate: as stored, or as shipped (log entry 13). -/
def certBytes (s : State) : List Byte :=
  if s.sec.cert.isEmpty then
    padTo 256 (leBytes 4 0x49434C48 ++ leBytes 2 1 ++ [0, 0] ++ logicUid s ++
      padTo 12 [0x48, 0x4C, 0x33, 0x32, 0x30, 0x30, 0x2D, BitVec.ofNat 8 (s.rd Reg.SRM_ORDER_CEIL),
        BitVec.ofNat 8 (s.rd Reg.SRM_ORDER_TEMP), 0x2D, BitVec.ofNat 8 (s.rd Reg.SRM_ORDER_CONTENT)] ++
      leBytes 2 0x3200 ++ [0x21, 0] ++ idPubBytes) ++ (List.range 2820).map Config.certSig
  else s.sec.cert

/-- GET_CERT. -/
def getCert (s : State) (dmaOk : Bool) : State :=
  if mbxFits s 3076 then mbxResult s (certBytes s) dmaOk else mbxEnd s Code.SEC_E_FORMAT 0 0

/-- GET_CERT (R391). -/
def execGetCert (dmaOk : Bool) (s : State) : Answer := .next (mbxRow s 0x12 [] (fun s => getCert s dmaOk))

/-- Every tile writes zeros to its secure region (R254); one that fails is recorded, and MEM_SEC_STATUS shows the wipe as running
until a later one completes. -/
def secureWipe (s : State) (ok : Bool) : State :=
  let s := iter 32 (fun n t => t.updTile n Tile.wipeSecure) s
  if ok then ((s.addSat Reg.MEM_SEC_STATUS_WIPES 1).wr Reg.MEM_SEC_STATUS_WIPING 0).raiseMem Reg.MEM_IRQ_STATUS_SEC_WIPE
  else s.wr Reg.MEM_SEC_STATUS_WIPING 1

/-- A change of the life-cycle state, once the wipe is complete. -/
def lcChange (s : State) (state : Nat) : State :=
  (s.wr Reg.SRM_LC_STATE state).raiseSec Reg.SEC_IRQ_STATUS_LC_CHANGE

/-- ENROLL (R385). -/
def enroll (s : State) (wipeOk : Bool) : State :=
  let d := argDigest s
  let s := secureWipe s wipeOk
  if wipeOk then
    mbxEnd (lcChange (s.wrs ((List.range 8).map (fun i => (Reg.SRM_OWNER_DIGEST i, recField d (4 * i) 4)))) 2) 0 0 0
  else mbxEnd s Code.SEC_E_WIPE 0 0

/-- ENROLL (R385). -/
def execEnroll (owner : List Byte) (wipeOk : Bool) (s : State) : Answer :=
  .next (mbxRow s 0x20 (digestArgs owner) (fun s => enroll s wipeOk))

/-- The refusals that SERVICE and SCRAP share (R386); 0 where none applies. -/
def serviceBusy (s : State) : Nat :=
  if (List.range 4096).any (fun c => ctxState s c != 0) then Code.SEC_E_CTX_BUSY
  else if instRuns s || s.exp.removing.isSome then Code.SEC_E_BUSY
  else 0

/-- Remove and erase every installed set (R386 step 1). -/
def eraseSets (s : State) : State :=
  iter 64 (fun n t =>
    if (t.set n).state = 0 then t
    else setFreed (overList (setBlocks t n) (fun b u => eraseBlock (u.inc Reg.CEL_ERASES) b.plane b.block) t) n) s

/-- Zero the set-record region (R386 step 2). -/
def zeroSetRecords (s : State) : State :=
  let size := s.rd Reg.MEM_CFG_SETREC_GIB * 2 ^ 30
  { s with dram := dramZero s.dram (slotBase s 0 - size) size }

/-- The transition to RETURN or SCRAPPED; `failAt` names the step of R386 that fails, 0 none. -/
def retire386 (s : State) (state failAt : Nat) : State :=
  if failAt = 1 then mbxEnd s Code.SEC_E_WIPE 0 0
  else
    let s := eraseSets s
    if failAt = 2 then mbxEnd s Code.SEC_E_WIPE 0 0
    else
      let s := secureWipe (zeroSetRecords s) (failAt != 3)
      if failAt = 3 then mbxEnd s Code.SEC_E_WIPE 0 0
      else
        let s := if state = 4 then
            { s with sec := { s.sec with
              keysLive := false, inputsZeroed := true, udsBlown := true } }.wr Reg.SRM_IDX_NEXT 0
          else s
        mbxEnd (lcChange s state) 0 0 0

/-- Whether a key slot is fused and not revoked. -/
def slotUsable (s : State) (k : Nat) : Bool :=
  decide (k < 4) && bitOf (s.rd Reg.SRM_KEYS_PRESENT) k && !bitOf (s.rd Reg.SRM_KEYS_REVOKED) k

/-- Whether revoking a slot leaves another that is usable. -/
def otherUsable (s : State) (k : Nat) : Bool := (List.range 4).any (fun j => j != k && slotUsable s j)

/-- The checks of R387 on a token; `sigOk` is what verifying its signature gives. -/
def tokenOk (s : State) (t : List Byte) (sigOk : Bool) : Bool :=
  let action := recField t 6 1
  let uid := (t.drop 8).take 16
  let zero := uid.all (· == 0)
  let target := recField t 0x18 1
  sigOk && recField t 0 4 == 0x54524C48 && recField t 4 2 == 1 && slotUsable s (recField t 7 1) &&
  (zero || uid == logicUid s) && ((t.drop 0x19).take 39).all (· == 0) &&
  ((action == 1 && !zero && target == 0) || (action == 2 && decide (target < 4) && otherUsable s target))

/-- SERVICE (R386, R387). -/
def service (s : State) (token : List Byte) (sigOk dmaOk : Bool) (failAt : Nat) : State :=
  if serviceBusy s != 0 then mbxEnd s (serviceBusy s) 0 0
  else if !mbxFits s 2884 then mbxEnd s Code.SEC_E_FORMAT 0 0
  else if !dmaOk then mbxEnd s Code.SEC_E_DMA 0 0
  else if !tokenOk s token sigOk then mbxEnd s Code.SEC_E_TOKEN 0 0
  else if recField token 6 1 = 2 then
    let k := recField token 0x18 1
    let r := s.rd Reg.SRM_KEYS_REVOKED
    mbxEnd (s.wr Reg.SRM_KEYS_REVOKED (if bitOf r k then r else r + 2 ^ k)) 0 0 0
  else retire386 s 3 failAt

/-- SERVICE (R387). -/
def execService (token : List Byte) (sigOk dmaOk : Bool) (failAt : Nat) (s : State) : Answer :=
  .next (mbxRow s 0x21 [] (fun s => service s token sigOk dmaOk failAt))

/-- SCRAP (R386): another ARG0 is refused. -/
def scrap (s : State) (failAt : Nat) : State :=
  if serviceBusy s != 0 then mbxEnd s (serviceBusy s) 0 0
  else if s.rd (Reg.SEC_MBX_ARG_ARG 0) != 0x53435250 then mbxEnd s Code.SEC_E_FORMAT 0 0
  else retire386 s 4 failAt

/-- SCRAP (R386). -/
def execScrap (arg failAt : Nat) (s : State) : Answer := .next (mbxRow s 0x22 [(0, arg)] (fun s => scrap s failAt))

/-- The limits by index, in the order of R371 (log entry 24). -/
def limitFld : Nat → Option Fld
  | 0 => some Reg.SRM_LIMITS0_CEIL_W
  | 1 => some Reg.SRM_LIMITS1_VMIN_MV
  | 2 => some Reg.SRM_LIMITS1_VMAX_MV
  | 3 => some Reg.SRM_LIMITS2_ICC_SUST_A
  | 4 => some Reg.SRM_LIMITS2_ICC_PEAK_A
  | 5 => some Reg.SRM_LIMITS0_THROTTLE_HW_C
  | 6 => some Reg.SRM_LIMITS0_TRIP_C
  | 7 => some Reg.SRM_LIMITS0_MIN_DIV
  | _ => none

/-- SET_LIMIT (R371, R383): the ceiling and the trip also show in PWR_CAPS. -/
def setLimit (s : State) : State :=
  let i := s.rd (Reg.SEC_MBX_ARG_ARG 0)
  let v := s.rd (Reg.SEC_MBX_ARG_ARG 1)
  match limitFld i with
  | none => mbxEnd s Code.SEC_E_FORMAT 0 0
  | some f =>
    if 2 ^ f.width ≤ v then mbxEnd s Code.SEC_E_FORMAT 0 0
    else
      let s := s.wr f v
      let s := if i = 0 then s.wr Reg.PWR_CAPS_CEIL_W v else if i = 6 then s.wr Reg.PWR_CAPS_TRIP_C v else s
      mbxEnd s 0 0 0

/-- SET_LIMIT (R383). -/
def execSetLimit (index value : Nat) (s : State) : Answer := .next (mbxRow s 0x30 [(0, index), (1, value)] setLimit)

/-- GEN_ID. -/
def genId (s : State) (dmaOk : Bool) : State :=
  if mbxFits s 68 then mbxResult { s with sec := { s.sec with idPub := true } } idPubBytes dmaOk
  else mbxEnd s Code.SEC_E_FORMAT 0 0

/-- GEN_ID (R391). -/
def execGenId (dmaOk : Bool) (s : State) : Answer := .next (mbxRow s 0x31 [] (fun s => genId s dmaOk))

/-- Whether the reserved fields of a certificate are 0 (R19, R391). -/
def certZeros (cert : List Byte) : Bool := recZero cert 7 1 && recZero cert 0x27 1 && recZero cert 0x6C 148

/-- PROVISION (R384). -/
def provision (s : State) (cert : List Byte) (sigOk dmaOk wipeOk : Bool) : State :=
  if !mbxFits s 3076 then mbxEnd s Code.SEC_E_FORMAT 0 0
  else if !dmaOk then mbxEnd s Code.SEC_E_DMA 0 0
  else if !certZeros cert then mbxEnd s Code.SEC_E_FORMAT 0 0
  else if !(sigOk && slotUsable s (recField cert 6 1) && s.sec.idPub && (cert.drop 0x28).take 68 == idPubBytes) then
    mbxEnd s Code.SEC_E_TOKEN 0 0
  else
    let s := secureWipe s wipeOk
    if wipeOk then mbxEnd (lcChange { s with sec := { s.sec with cert := cert } } 1) 0 0 0
    else mbxEnd s Code.SEC_E_WIPE 0 0

/-- PROVISION (R384). -/
def execProvision (cert : List Byte) (sigOk dmaOk wipeOk : Bool) (s : State) : Answer :=
  .next (mbxRow s 0x32 [] (fun s => provision s cert sigOk dmaOk wipeOk))

/-- MBX_OPCODE_UNKNOWN (R383). -/
def execMbxOpcodeUnknown (op : Nat) (s : State) : Answer := .next (mbxRow s op [] (fun s => s))

/-! Tamper. -/

/-- The tamper response (R388). -/
def tamper (s : State) (src : Nat) (wipeOk : Bool) : State :=
  let s := { s with sec := { s.sec with keysLive := false, pendTamper := true } }
  let s := (s.addSat Reg.SRM_TAMPER_COUNT 1).wr Reg.SRM_TAMPER_LAST_SRC src
  let s := secureWipe s wipeOk
  let s := if wipeOk then s else s.rep Code.SEC_E_WIPE 0
  s.enterSafe (errOf Code.SEC_E_TAMPER 4)

/-- TAMPER (R388): the reference-clock monitor acts only after the root PLL has locked. -/
def execTamper (src : Nat) (wipeOk : Bool) (s : State) : Answer :=
  .next (if s.alive && (src != 1 || s.chip.pllLocked) then tamper s src wipeOk else s)

end Sys2Proof.Machine
end

