-- ==== Sys2Proof/Machine/Keeper.lean ====
section
/-! DEFINITION. Keeper (chapter 16): how it is booted, restarted and watched, the daybook, the error handler with its ring,
MCTP and PLDM, and the registers of the KPR and ERR blocks that act when written. -/

namespace Sys2Proof.Machine

/-! The NOR's boot records and slots (R396 to R398). -/

/-- The boot record that governs; none where neither copy is good. -/
def governing (k : Keeper) : Option BootRec :=
  if k.boot0.good && k.boot1.good then some (if k.boot1.gen ≤ k.boot0.gen then k.boot0 else k.boot1)
  else if k.boot0.good then some k.boot0
  else if k.boot1.good then some k.boot1
  else none

/-- Write a boot record into the copy with the lower GEN, or into one that is not good. -/
def putBoot (k : Keeper) (r : BootRec) : Keeper :=
  let gen := 1 + maxNat (if k.boot0.good then k.boot0.gen else 0) (if k.boot1.good then k.boot1.gen else 0)
  let r := { r with good := true, gen := gen }
  if !k.boot0.good || (k.boot1.good && decide (k.boot0.gen < k.boot1.gen)) then { k with boot0 := r }
  else { k with boot1 := r }

/-- The manifest programmed in a slot. -/
def Keeper.slot (k : Keeper) (n : Nat) : Option Manifest := if n = 0 then k.slot0 else k.slot1

/-- Program or erase a slot's manifest; a verified image in it no longer stands. -/
def Keeper.setSlot (k : Keeper) (n : Nat) (m : Option Manifest) : Keeper :=
  let k := if k.verified = some n then { k with verified := none } else k
  if n = 0 then { k with slot0 := m } else { k with slot1 := m }

/-- Program a slot's image. -/
def Keeper.setImage (k : Keeper) (n : Nat) (b : List Byte) : Keeper :=
  if n = 0 then { k with image0 := b } else { k with image1 := b }

/-- The unit's own UNIT_ID (R417). -/
def unitId (s : State) : List Byte := (shake256 ([0x48, 0x4C, 0x55, 0x4E] ++ logicUid s)).take 32

/-- Whether a UNIT_ID is 0 or this unit's. -/
def unitOk (s : State) (id : List Byte) : Bool := id.all (· == 0) || id == unitId s

/-- Whether a manifest names this part (R419 without PRED_DIGEST). -/
def typeOk (m : Manifest) : Bool :=
  m.family == 0x484C && m.member == 0x3200 && decide (m.stepMin ≤ 0x21) && decide (0x21 ≤ m.stepMax)

/-- Steps 3 and 4 of R398 on a slot; `good` is what reading the NOR, the signature and the digest give. -/
def slotBoots (s : State) (n : Nat) (good : Bool) : Bool :=
  match s.kpr.slot n with
  | some m => good && slotUsable s m.signerSlot && typeOk m && unitOk s m.unitId
  | none => false

/-- Steps 1 and 2 of R398: the slot to try. -/
def bootSelect (s : State) : State :=
  let r := (governing s.kpr).getD {}
  let start (k : Keeper) (n : Nat) : State :=
    { s with kpr := { k with trying := n, attempts := 0, otherTried := false, released := false } }
  if s.chip.bootSel then start s.kpr (1 - r.active)
  else if r.trial = 0 then start s.kpr r.active
  else if 3 ≤ r.tries then
    start { putBoot s.kpr { r with active := 1 - r.active, trial := 0, tries := 0 } with fallback := true } (1 - r.active)
  else start (putBoot s.kpr { r with tries := r.tries + 1 }) r.active

/-- NEXT at a start of Porter (R390, R395): not at a Keeper restart. -/
def startIndex (s : State) : State :=
  if s.kpr.restarting then s else s.wr Reg.SRM_IDX_NEXT (1024 * s.rd Reg.SRM_IDX_RSV_BLOCKS)

/-- Step 5 of R398: Keeper is released. -/
def releaseKeeper (s : State) (m : Manifest) : State :=
  startIndex { s with
    kpr := { s.kpr with released := true, running := m, fwDigest := m.resultDigest, releaseKc := s.timeKc }
    sec := { s.sec with keysLive := true } }

/-- Neither slot boots (R398). -/
def bootFail (s : State) : State :=
  let s := startIndex s
  { s with chip := { s.chip with alertLow := true } }.wrs
    [(Reg.KPR_STATUS_STATE, 5), (Reg.KPR_STATUS_BOOT_CODE, Code.KPR_E_BOOT)]

/-- An attempt at the slot in hand has failed: it is tried three times, and then the other slot; the answer says whether
an attempt is left. -/
def attemptFailed (s : State) : Bool × State :=
  if s.kpr.attempts < 2 then (true, { s with kpr := { s.kpr with attempts := s.kpr.attempts + 1, released := false } })
  else if s.kpr.otherTried then (false, bootFail s)
  else (true, { s with kpr := { s.kpr with
    trying := 1 - s.kpr.trying, attempts := 0, otherTried := true, released := false } })

/-- Attempts until one releases Keeper or none is left. -/
def bootLoop : Nat → List Bool → State → State
  | 0, _, s => s
  | n + 1, reads, s =>
    if slotBoots s s.kpr.trying (reads.headD true) then releaseKeeper s ((s.kpr.slot s.kpr.trying).getD {})
    else
      let r := attemptFailed s
      if r.1 then bootLoop n reads.tail r.2 else r.2

/-- Porter starts Keeper (R398); with SPI_VSEL high it does not drive the SPI pins (R435). A scrapped part starts no
Keeper (R386). -/
def bootKeeper (s : State) (reads : List Bool) : State :=
  if s.rd Reg.SRM_LC_STATE = 4 then s
  else if s.chip.spiVsel then bootFail s
  else bootLoop 6 reads (bootSelect (s.wr Reg.KPR_STATUS_STATE 1))

/-- KEEPER_READY_TIMEOUT (R398). -/
def execKeeperReadyTimeout (reads : List Bool) (s : State) : Answer :=
  .next (s.engine (fun s =>
    if s.kpr.released && !s.ready then
      let r := attemptFailed s
      if r.1 then bootLoop 6 reads r.2 else r.2
    else s))

/-! Keeper is ready. -/

/-- Tiles may start: VDD_CORE goes to V(12) (R372). -/
def tilesGo (s : State) : State := pmbus { s with chip := { s.chip with tileGo := true } } (voltFor s 12) true

/-- What the running image reports (R398, R421, R338). -/
def showImage (s : State) : State :=
  let m := s.kpr.running
  let trial := match governing s.kpr with | some r => r.trial | none => 0
  s.wrs [(Reg.KPR_FW_VERSION_VERSION, m.version), (Reg.KPR_HOSTIF_MAX, m.hostIfMax), (Reg.KPR_HOSTIF_MIN, m.hostIfMin),
    (Reg.CHN_LEVEL_COMPAT_LEVEL, m.compatLevel), (Reg.CHN_LEVEL_LINK_VER, m.linkVer), (Reg.CHN_LEVEL_LINK_MIN, m.linkMin),
    (Reg.KPR_STATUS_BOOT_SLOT, s.kpr.trying), (Reg.KPR_STATUS_TRIAL, if s.chip.bootSel then 0 else trial)]

/-- A fallback is recorded by the first Keeper after it (R398). -/
def sayFallback (s : State) : State :=
  if s.kpr.fallback then
    let s := s.wr Reg.KPR_STATUS_BOOT_CODE Code.KPR_E_FALLBACK
    { s with kpr := { s.kpr with fallback := false } }.rep Code.KPR_E_FALLBACK 0
  else s

/-- A verified image that a reset met in its drain stands as before, and OP 1 activates it (R425). -/
def showVerified (s : State) : State :=
  match s.kpr.verified with
  | none => s
  | some n =>
    if n = s.kpr.trying then s
    else
      let m := (s.kpr.slot n).getD {}
      s.wrs [(Reg.KPR_UPD_STATUS_STATE, 3), (Reg.KPR_UPD_VERSION_VERSION, m.version),
        (Reg.KPR_UPD_HOSTIF_RANGE, m.hostIfMax * 65536 + m.hostIfMin)]

/-- What happened before the start is recorded: a thermal trip (R370), a tamper (R388). -/
def sayPast (s : State) : State :=
  let s := if s.chip.tripFlag then
      { s with chip := { s.chip with tripFlag := false } }.rep Code.PWR_E_THERM_TRIP 0
    else s
  if s.sec.pendTamper then
    { s with sec := { s.sec with pendTamper := false } }.raiseSec Reg.SEC_IRQ_STATUS_TAMPER
  else s

/-- Keeper reports ready (R398, R400, R337). -/
def keeperReady (s : State) : State :=
  if s.kpr.released && !s.ready then
    let again := s.kpr.restarting
    let s := { s with kpr := { s.kpr with everReady := true, restarting := false } }
    let s := (showVerified (showImage s)).wrs [(Reg.KPR_STATUS_READY, 1), (Reg.KPR_STATUS_STATE, 2), (Reg.PWR_STATUS_VDD_MV, s.pwr.setpoint)]
    let s := (sayPast (sayFallback s)).raiseKpr Reg.KPR_IRQ_STATUS_READY
    if !again && decide (s.chn.room ≤ 1) then tilesGo s else s
  else s

/-- KEEPER_READY (R398). -/
def execKeeperReady (s : State) : Answer := .next (s.engine keeperReady)

/-- STAGGER_WAIT (R337): (r − 1) ms after Keeper reports ready. -/
def execStaggerWait (s : State) : Answer :=
  .next (s.engine (fun s => if s.ready && decide (1 < s.chn.room) && !s.chip.tileGo then tilesGo s else s))

/-- The start of a tile (R96, R97, R357, R372): its self-test, MAXDIV, and parked. A tile that has failed since COLD_RST_N keeps
MAXDIV 0xFF. The failure is noted as one of the control core that names no slot (log entry 110). -/
def tileStart (s : State) (n : Nat) (pass : Bool) : State :=
  if s.chip.tileGo && s.chip.tilesStarted == n && decide (n < 32) then
    let fused := dividers.getD (Config.fusedDiv n % 5) 4
    let bad := !pass || s.chip.badTiles.contains n
    let max := if bad then 255 else maxNat fused (SMap.get (fun _ => 0) s.pwr.journal n)
    let s := { s with chip := { s.chip with
      tilesStarted := n + 1
      badTiles := if bad && !s.chip.badTiles.contains n then s.chip.badTiles ++ [n] else s.chip.badTiles } }
    let s := if pass then s
      else (tileNote s n (Reg.TIL_ERR_STATUS_START n) 4 0xFF 0).report { errOf Code.TIL_E_START 0 with tile := n }
    let s := s.updTile n (fun t => { t with retention := true })
    s.wrs [(Reg.PWR_TILE_MAXDIV n, max), (Reg.PWR_TILE_FUSED_DIV n, fused),
      (Reg.PWR_TILE_K_MW n, minNat (Config.fusedK n) 4375), (Reg.TIL_STATUS_MAXDIV n, max), (Reg.TIL_STATUS_STATE n, 2)]
  else s

/-- TILE_START (R372). -/
def execTileStart (n : Nat) (pass : Bool) (s : State) : Answer := .next (s.engine (fun s => tileStart s n pass))

/-- WATCHDOG_EXPIRY (R399). -/
def execWatchdogExpiry (s : State) : Answer :=
  .next (s.engine (fun s => if s.ready then s.enterSafe (errOf Code.KPR_E_WATCHDOG 4) else s))

/-! The daybook (R401, R402). -/

/-- The ring of 2^18 entries. -/
def dayBlank : Nat → Option DayEntry := fun _ => none

/-- Write one entry; its sequence number, and the state. -/
def dayPut (s : State) (e : DayEntry) : Nat × State :=
  let seq := s.rd Reg.KPR_DB_SEQ_SEQ
  let s := { s with err := { s.err with
    daybook := SMap.set dayBlank s.err.daybook (seq % 2 ^ 18) (some { e with seq := seq }) } }
  (seq, (s.wr Reg.KPR_DB_SEQ_SEQ ((seq + 1) % 2 ^ 32)).inc Reg.KPR_DB_WRITTEN)

/-- Write an entry, the lost trace entries counted in one ahead of it. -/
def dayWrite (s : State) (e : DayEntry) : Nat × State :=
  if s.err.dropped = 0 then dayPut s e
  else
    let loss : DayEntry := { type := 4, timeKc := s.timeKc, data := [s.err.dropped, 0, 0, 0] }
    dayPut { (dayPut s loss).2 with err := { (dayPut s loss).2.err with dropped := 0 } } e

/-- Keeper writes the oldest trace entry that waits. -/
def dayTrace (s : State) : State :=
  match s.err.trace with
  | [] => s
  | e :: rest => (dayWrite { s with err := { s.err with trace := rest } } e).2

/-- A write of KPR_DB_MARK (R402). -/
def dayMark (s : State) (value : Nat) : State :=
  (dayWrite s { type := 3, timeKc := s.timeKc, data := [value % 2 ^ 32, 0, 0, 0] }).2

/-- DAYBOOK_MARK (R402). -/
def execDaybookMark (value : Nat) (s : State) : Answer :=
  .next (s.host Reg.KPR_DB_MARK_VALUE.off (fun s => dayMark s value))

/-- An entry's 32 bytes. -/
def dayBytes (e : DayEntry) : List Byte :=
  leBytes 4 e.seq ++ leBytes 1 e.type ++ leBytes 1 e.point ++ leBytes 2 e.code ++ leBytes 8 e.timeKc ++
  ((List.range 4).map (fun i => leBytes 4 (e.data.getD i 0))).flatten

/-- The entry of a sequence number; TYPE 0xFF where it is not held (R404). -/
def dayAt (s : State) (seq : Nat) : DayEntry :=
  match SMap.get dayBlank s.err.daybook (seq % 2 ^ 18) with
  | some e => if e.seq = seq then e else { type := 0xFF }
  | none => { type := 0xFF }

/-! Error records (R409, R411). -/

/-- A record's 64 bytes. -/
def errBytes (r : ErrRec) : List Byte :=
  leBytes 4 r.seq ++ leBytes 1 r.cls ++ leBytes 1 r.sev ++ leBytes 2 r.code ++ leBytes 8 r.timeKc ++ leBytes 2 r.code2 ++
  leBytes 2 r.merged ++ leBytes 4 r.lastDelta ++ leBytes 8 r.userTag ++ leBytes 2 r.rq ++ leBytes 2 r.context ++
  leBytes 4 r.fetchIdx ++ leBytes 1 r.partition ++ leBytes 1 r.tile ++ leBytes 2 r.location ++ leBytes 4 r.detail ++
  leBytes 8 r.addr ++ leBytes 4 r.step ++ List.replicate 4 0

/-- A place of the error ring. -/
def ringAt (s : State) (i : Nat) : Option ErrRec := SMap.get errBlank s.err.ring (i % 1024)

/-- Put a record in the error ring. -/
def ringPut (s : State) (i : Nat) (r : ErrRec) : State :=
  { s with err := { s.err with ring := SMap.set errBlank s.err.ring (i % 1024) (some r) } }

/-- Records held and not consumed. -/
def ringHeld (s : State) : Nat :=
  (s.rd Reg.ERR_RING_PROD_PROD + 2 ^ 32 - s.rd Reg.ERR_RING_CONS_CONS) % 2 ^ 32

/-- The newest unconsumed record that a report merges into (R411): its ring index. -/
def mergeAt (s : State) (r : ErrRec) : Option Nat :=
  if r.rq = 0xFFFF then none
  else
    let prod := s.rd Reg.ERR_RING_PROD_PROD
    ((List.range (ringHeld s)).map (fun k => prod + 2 ^ 32 - 1 - k)).find? (fun i =>
      match ringAt s i with
      | some q => q.context == r.context && q.rq == r.rq && q.fetchIdx == r.fetchIdx
      | none => false)

/-- Merge a report into a record. -/
def mergeRec (q r : ErrRec) : ErrRec :=
  { q with
    merged := minNat (q.merged + 1) 0xFFFF, code2 := if r.code = q.code then q.code2 else r.code
    lastDelta := minNat (r.timeKc - q.timeKc) 0xFFFFFFFF, sev := maxNat q.sev r.sev }

/-- Handle one report: its daybook entry, and its record merged, appended or lost. -/
def handleReport (s : State) (r : ErrRec) : State :=
  let e : DayEntry := { type := 2, code := r.code, timeKc := r.timeKc, data := [r.cls, r.sev, r.rq, r.fetchIdx] }
  match mergeAt s r with
  | some i =>
    let s := match ringAt s i with
      | some q => ringPut s i (mergeRec q r)
      | none => s
    (dayWrite s e).2
  | none =>
    let d := dayWrite s e
    let s := d.2
    if ringHeld s = 1024 then (s.addSat Reg.ERR_LOST_RING_COUNT 1).raiseErr Reg.ERR_IRQ_STATUS_LOST
    else
      let prod := s.rd Reg.ERR_RING_PROD_PROD
      ((ringPut s prod { r with seq := d.1 }).wr Reg.ERR_RING_PROD_PROD ((prod + 1) % 2 ^ 32)).raiseErr
        Reg.ERR_IRQ_STATUS_RECORD

/-- A double fault (R413). -/
def doubleFault (s : State) : State := s.enterSafe (errOf Code.ERR_E_DOUBLE 4)

/-- The handler takes the oldest report (R408); `fault` says that the error path meets a double fault of R413. -/
def errorHandler (s : State) (fault : Bool) : State :=
  if !s.ready then s
  else if fault then doubleFault s
  else
    match s.err.buffer with
    | [] => s
    | r :: rest => handleReport { s with err := { s.err with buffer := rest } } r

/-- ERROR_HANDLER (R408). -/
def execErrorHandler (fault : Bool) (s : State) : Answer := .next (s.engine (fun s => errorHandler s fault))

/-- HANDLER_TIMEOUT (R413). -/
def execHandlerTimeout (s : State) : Answer :=
  .next (s.engine (fun s => if s.ready && !s.err.buffer.isEmpty then doubleFault s else s))

/-- ERR_CTRL.CLEAR (R426). -/
def errClear (s : State) : State :=
  let s := { s with err := { s.err with first := [], last := [] } }
  (s.wrs ((List.range 16).map (fun c => (Reg.ERR_CLASS_CNT_COUNT c, 0)))).wrs
    [(Reg.ERR_LOST_BUF_COUNT, 0), (Reg.ERR_LOST_RING_COUNT, 0)]

/-- ERR_CLEAR (R426). -/
def execErrClear (s : State) : Answer := .next (s.host Reg.ERR_CTRL_CLEAR.off errClear)

/-- A write of ERR_RING_CONS: beyond PROD it is discarded (R408). -/
def ringConsWrite (s : State) (cons : Nat) : State :=
  if (cons % 2 ^ 32 + 2 ^ 32 - s.rd Reg.ERR_RING_CONS_CONS) % 2 ^ 32 ≤ ringHeld s then
    s.wr Reg.ERR_RING_CONS_CONS (cons % 2 ^ 32)
  else s

/-- ERR_RING_CONS_WRITE (R408). -/
def execErrRingConsWrite (cons : Nat) (s : State) : Answer :=
  .next (s.host Reg.ERR_RING_CONS_CONS.off (fun s => ringConsWrite s cons))

/-- Clearing ERR_IRQ_STATUS.ALERT releases ALERT_N outside the safe state (R458), where Porter does not drive it. -/
def alertClear (s : State) : State :=
  let s := s.wr Reg.ERR_IRQ_STATUS_ALERT 0
  if s.safe || s.rd Reg.KPR_STATUS_STATE == 5 then s else { s with chip := { s.chip with alertLow := false } }

/-- ALERT_CLEAR (R458). -/
def execAlertClear (s : State) : Answer := .next (s.host Reg.ERR_IRQ_STATUS_ALERT.off alertClear)

/-! Fetches (R404). -/

/-- The bytes of a fetch: `src` 0 daybook entries from a sequence number, 1 error records from a ring index. -/
def fetchBytes (s : State) (src first count : Nat) : List Byte :=
  ((List.range count).map (fun i =>
    if src = 0 then dayBytes (dayAt s ((first + i) % 2 ^ 32))
    else match ringAt s (first + i) with
      | some r => errBytes r
      | none => List.replicate 64 0)).flatten

/-- A fetch with the registers as they stand. -/
def fetchGo (s : State) (dmaOk : Bool) : State :=
  s.keeper Reg.KPR_FETCH_STATUS_CODE (fun s =>
    let src := s.rd Reg.KPR_FETCH_CMD_SRC
    if dmaOk then
      let bytes := fetchBytes s src (s.rd Reg.KPR_FETCH_FIRST_FIRST) (minNat (s.rd Reg.KPR_FETCH_COUNT_COUNT) 262144)
      ((s.hostWrite (s.rd Reg.KPR_FETCH_DST) bytes false).wr Reg.KPR_FETCH_STATUS_CODE 0).raiseKpr
        Reg.KPR_IRQ_STATUS_FETCH_DONE
    else ((s.wr Reg.KPR_FETCH_STATUS_CODE Code.KPR_E_FETCH).rep Code.KPR_E_FETCH 0).raiseKpr
      Reg.KPR_IRQ_STATUS_FETCH_DONE)

/-- DAYBOOK_FETCH (R404). -/
def execDaybookFetch (src first count : Nat) (dmaOk : Bool) (s : State) : Answer :=
  .next (s.host Reg.KPR_FETCH_CMD_SRC.off (fun s =>
    fetchGo (s.wrs [(Reg.KPR_FETCH_CMD_SRC, src), (Reg.KPR_FETCH_FIRST_FIRST, first), (Reg.KPR_FETCH_COUNT_COUNT, count)])
      dmaOk))

/-- A write of KPR_DRV_IF (R421). -/
def drvIf (s : State) (version : Nat) : State :=
  let v := version % 65536
  let s := s.wr Reg.KPR_DRV_IF_VERSION v
  if s.ready then
    if v < s.rd Reg.KPR_HOSTIF_MIN ∨ s.rd Reg.KPR_HOSTIF_MAX < v then
      (s.wr Reg.KPR_STATUS_IF_MISMATCH 1).rep Code.KPR_E_HOSTIF 0
    else s.wr Reg.KPR_STATUS_IF_MISMATCH 0
  else s

/-- DRV_IF_WRITE (R421). -/
def execDrvIfWrite (version : Nat) (s : State) : Answer :=
  .next (s.host Reg.KPR_DRV_IF_VERSION.off (fun s => drvIf s version))

/-! MCTP and PLDM (R405 to R407). The bytes of a reply are the command, a completion code and the command's data
(log entry 26). -/

/-- Whether a binding is enabled: 0 SMBus, 1 PCI Express VDM. -/
def mctpOn (s : State) (vdm : Bool) : Bool :=
  if vdm then s.flag Reg.KPR_MCTP_CFG_VDM_EN && s.chip.linkUp else s.flag Reg.KPR_MCTP_CFG_SMB_EN

/-- Keeper takes a request, or leaves it unanswered (R407). -/
def mctpTake (s : State) (vdm : Bool) (k : State → State) : State :=
  if s.ready && mctpOn s vdm then k (s.inc Reg.KPR_MCTP_RX) else s

/-- The endpoint's UUID, derived from LOGIC_UID (R405, log entry 26). -/
def endpointUuid (s : State) : List Byte := (List.range 16).map (fun i => Config.endpointUuid (leNat (logicUid s)) i)

/-- An MCTP control command: 1 Set and 2 Get Endpoint ID, 3 Get Endpoint UUID, 4 Get MCTP Version Support, 5 Get Message
Type Support; others are answered as unsupported. -/
def mctpControl (s : State) (cmd eid : Nat) : State :=
  let c := BitVec.ofNat 8 cmd
  if cmd = 1 then
    let s := s.wr Reg.KPR_MCTP_EID_EID (eid % 256)
    s.emit (.mctp [c, 0, BitVec.ofNat 8 eid])
  else if cmd = 2 then s.emit (.mctp [c, 0, BitVec.ofNat 8 (s.rd Reg.KPR_MCTP_EID_EID)])
  else if cmd = 3 then s.emit (.mctp ([c, 0] ++ endpointUuid s))
  else if cmd = 4 then s.emit (.mctp [c, 0, 1, 0xF1, 0xF3, 0xFF, 0])
  else if cmd = 5 then s.emit (.mctp [c, 0, 2, 0, 1])
  else s.emit (.mctp [c, 5])

/-- MCTP_CONTROL (R405). -/
def execMctpControl (vdm : Bool) (cmd eid : Nat) (s : State) : Answer :=
  .next (s.engine (fun s => mctpTake s vdm (fun s => mctpControl s cmd eid)))

/-- What a sensor reads (R406); none for a number that names no sensor. -/
def sensorRead (s : State) (id : Nat) : Option Nat :=
  match id with
  | 1 => some (s.rd Reg.PWR_TEMP_TJ_C)
  | 2 => some (s.rd Reg.PWR_TEMP_CELLAR_C)
  | 3 => some (s.rd Reg.PWR_POWER_PKG_DW)
  | 4 => some (s.rd Reg.PWR_CURRENT_CORE_A)
  | 5 => some (s.rd Reg.PWR_CAP_CTRL_CAP_W)
  | 6 => some (sumNat ((List.range 6).map (fun r => s.rd (thrActive r) * 2 ^ r)))
  | 7 => some (s.rd Reg.SRM_LC_STATE)
  | 8 => some (sumNat ((List.range 16).map (fun c => s.rd (Reg.ERR_CLASS_CNT_COUNT c))))
  | 9 => some (s.rd Reg.CEL_CAPACITY_USER_BLOCKS * 4)
  | 10 => some (s.rd Reg.CEL_WEAR_RETIRED_COUNT)
  | _ => none

/-- A PLDM request: a sensor's reading (`kind` 0), or its record with the thresholds (`kind` 1). -/
def pldmRequest (s : State) (kind id : Nat) : State :=
  let head : List Byte := [BitVec.ofNat 8 kind, 0, BitVec.ofNat 8 id]
  match sensorRead s id with
  | none => s.emit (.mctp [BitVec.ofNat 8 kind, 0x80, BitVec.ofNat 8 id])
  | some v =>
    if kind = 0 then s.emit (.mctp (head ++ leBytes 8 v))
    else
      let limits : List Nat :=
        if id = 1 then [s.rd Reg.PWR_THERM_CFG_THROTTLE_C, 105, 115]
        else if id = 2 then [s.rd Reg.PWR_THERM_CFG_CELLAR_C]
        else if id = 3 then [s.rd Reg.PWR_CAP_CTRL_CAP_W * 10]
        else if id = 4 then [s.rd Reg.SRM_LIMITS2_ICC_SUST_A]
        else []
      s.emit (.mctp (head ++ (limits.map (leBytes 4)).flatten))

/-- PLDM_REQUEST (R406). -/
def execPldmRequest (vdm : Bool) (kind id : Nat) (s : State) : Answer :=
  .next (s.engine (fun s => mctpTake s vdm (fun s => pldmRequest s kind id)))

end Sys2Proof.Machine
end

