-- ==== Sys2Proof/Machine/Update.lean ====
section
/-! DEFINITION. Firmware update (R416 to R424): receiving a package from the host or by relay, applying its blocks,
activation and its drain, the restart, and the commit. Events that meet on the error path, the NOR or an update (R425)
come about in the order of the commands. -/

namespace Sys2Proof.Machine

/-! The package. -/

/-- The manifest body (R417). -/
def parseManifest (b : List Byte) : Manifest := {
  signerSlot := recField b 0x006 1, family := recField b 0x008 2, member := recField b 0x00A 2
  stepMin := recField b 0x00C 1, stepMax := recField b 0x00D 1, unitId := (b.drop 0x010).take 32
  version := recField b 0x030 4, predVersion := recField b 0x034 4, predDigest := (b.drop 0x038).take 32
  resultDigest := (b.drop 0x058).take 32, resultLen := recField b 0x078 4, patchBlocks := recField b 0x07C 4
  hostIfMin := recField b 0x080 2, hostIfMax := recField b 0x082 2, compatLevel := recField b 0x084 2
  linkVer := recField b 0x086 1, linkMin := recField b 0x087 1 }

/-- Whether a block's last four bytes hold the CRC of the rest. -/
def blockCrc (b : List Byte) : Bool := b.length == 4096 && recField b 0xFFC 4 == crc32c (b.take 0xFFC)

/-- Z of R396. -/
def norSlotBytes (k : Keeper) : Nat := (k.norBytes - 131072) / 2

/-- Step 1 of R420 on a manifest block, without the comparison with KPR_UPD_LEN. -/
def manifestOk (s : State) (b : List Byte) : Bool :=
  let m := parseManifest b
  let zero (off n : Nat) : Bool := ((b.drop off).take n).all (· == 0)
  blockCrc b && recField b 0 4 == 0x464D4C48 && recField b 4 2 == 1 && zero 0x007 1 && zero 0x00E 2 && zero 0x088 376 &&
  zero 0xD04 0x2F8 && decide (1 ≤ m.patchBlocks) && decide (m.patchBlocks ≤ 16383) && m.resultLen % 4096 == 0 &&
  decide (m.resultLen + 4096 ≤ norSlotBytes s.kpr)

/-- The inactive slot: the one that Keeper does not run from. -/
def spareSlot (s : State) : Nat := 1 - s.kpr.trying

/-- The first check of R419 that a manifest fails; 0 where the package binds. -/
def bindCode (s : State) (m : Manifest) : Nat :=
  if !typeOk m then Code.KPR_E_UPD_HWTYPE
  else if !unitOk s m.unitId then Code.KPR_E_UPD_UNIT
  else if !(m.predDigest.all (· == 0) || m.predDigest == padTo 32 s.kpr.fwDigest) then Code.KPR_E_UPD_PRED
  else 0

/-! A receipt. -/

/-- The state of an update: 0 idle, 1 receiving, 2 verifying, 3 VERIFIED, 4 DRAINING, 5 failed. -/
def updState (s : State) : Nat := s.rd Reg.KPR_UPD_STATUS_STATE

/-- A receipt is over: nothing of it is held. -/
def updDrop (s : State) : State :=
  { s with kpr := { s.kpr with
    upd := none, updOut := [], updHead := [], updInsert := 0, updEnded := false, updApply := true
    updCode := 0, updNext := 1 } }

/-- A receipt fails with a code: the slot stays invalid. -/
def updFail (s : State) (code : Nat) : State :=
  let s := (updDrop s).wrs [(Reg.KPR_UPD_STATUS_STATE, 5), (Reg.KPR_UPD_STATUS_CODE, code)]
  (s.rep code 0).raiseKpr Reg.KPR_IRQ_STATUS_UPD_DONE

/-- Send a block aft (R424): not to the unit it came from, not over a port that is down, and none once one has not been
sent. -/
def updForward (s : State) (index : Nat) (block : List Byte) : State :=
  if s.flag Reg.KPR_UPD_CFG_RELAY && portUp s 1 && s.rd Reg.KPR_UPD_PROGRESS_FORWARDED == index && s.kpr.relayRoom != s.rd (Reg.CHN_P_PEER_ROOM 1) then
    let m := msgTo s 0x30 3 0 (index + s.kpr.relayRoom * 2 ^ 32 + s.kpr.relayId * 2 ^ 40) block
    (enqueue s 1 m).add Reg.KPR_UPD_PROGRESS_FORWARDED 1
  else s

/-- Steps 3 and 4 of R420: binding, and the erase of the inactive slot. A package that does not bind is passed on with
RELAY set, its code recorded. -/
def updBegin (s : State) (m : Manifest) (block : List Byte) (norOk : Bool) : State :=
  let s := updForward s 0 block
  let code := bindCode s m
  if code != 0 then
    if s.flag Reg.KPR_UPD_CFG_RELAY then
      { s with kpr := { s.kpr with upd := some m, updApply := false, updCode := code, updNext := 1 } }.rep code 0
    else updFail s code
  else
    let s := { s with kpr := (s.kpr.setSlot (spareSlot s) none).setImage (spareSlot s) [] }
    if norOk then
      { s with kpr := { s.kpr with upd := some m, updApply := true, updNext := 1 } }
    else updFail s Code.KPR_E_UPD_NOR

/-- The manifest block arrives (R420 steps 1 to 4). `len` is the package's length in blocks where the host gives it. -/
def updManifestBlock (s : State) (block : List Byte) (len : Option Nat) (sigOk norOk : Bool) : State :=
  let m := parseManifest block
  let s := (updDrop s).wrs [(Reg.KPR_UPD_STATUS_STATE, 1), (Reg.KPR_UPD_STATUS_CODE, 0), (Reg.KPR_UPD_PROGRESS_APPLIED, 0),
    (Reg.KPR_UPD_PROGRESS_FORWARDED, 0)]
  let fits := match len with | some n => n == 1 + m.patchBlocks | none => true
  if !(manifestOk s block && fits) then updFail s Code.KPR_E_UPD_FORMAT
  else
    let s := s.wrs [(Reg.KPR_UPD_VERSION_VERSION, m.version), (Reg.KPR_UPD_HOSTIF_RANGE, m.hostIfMax * 65536 + m.hostIfMin)]
    if !(sigOk && slotUsable s m.signerSlot) then updFail s Code.KPR_E_UPD_SIG
    else updBegin s m block norOk

/-- Whether a receipt or a drain runs. -/
def updRuns (s : State) : Bool := updState s == 1 || updState s == 2 || updState s == 4

/-- Whether no package can be received: a receipt or a drain runs, or the running image is on trial, before whose commit the
previous slot is not erased (R423, log entry 102). -/
def updHeld (s : State) : Bool := updRuns s || s.flag Reg.KPR_STATUS_TRIAL

/-- OP 0 with the registers as they stand (R420): a verified image is discarded first. -/
def updReceive (s : State) (block : List Byte) (sigOk norOk dmaOk : Bool) : State :=
  s.keeper Reg.KPR_UPD_STATUS_CODE (fun s =>
    if updHeld s then (s.wr Reg.KPR_UPD_STATUS_CODE Code.KPR_E_UPD_BUSY).rep Code.KPR_E_UPD_BUSY 0
    else
      let s := if updState s = 3 then { s with kpr := s.kpr.setSlot (spareSlot s) none } else s
      let s := { s with kpr := { s.kpr with relayId := s.timeUs % 2 ^ 24, relayRoom := s.rd Reg.CHN_STATUS_ROOM } }
      let s := s.wr Reg.KPR_UPD_STATUS_RELAYED 0
      if dmaOk then updManifestBlock s block (some (s.rd Reg.KPR_UPD_LEN_LEN)) sigOk norOk
      else updFail s Code.KPR_E_UPD_DMA)

/-- The fields of KPR_UPD_CMD. -/
def updCmd (s : State) (op : Nat) (list : Bool) : State :=
  s.wrs [(Reg.KPR_UPD_CMD_OP, op), (Reg.KPR_UPD_CMD_SRC_LIST, b2n list)]

/-- A host write of KPR_UPD_CMD with GO. -/
def updRow (s : State) (op : Nat) (list : Bool) (k : State → State) : State :=
  s.host Reg.KPR_UPD_CMD_OP.off (fun s => k (updCmd s op list))

/-- UPDATE_RECEIVE (R420): `block` is the manifest block that the DMA reads. -/
def execUpdateReceive (list : Bool) (block : List Byte) (sigOk norOk dmaOk : Bool) (s : State) : Answer :=
  .next (updRow s 0 list (fun s => updReceive s block sigOk norOk dmaOk))

/-! The patch stream (R418). -/

/-- Where a stream stands: output, bytes of a record's head, INSERT bytes to come, whether END was read, whether it is
well formed so far. -/
structure PatchAt where
  out    : List Byte
  head   : List Byte
  insert : Nat
  ended  : Bool
  good   : Bool
  deriving DecidableEq, Repr

/-- A record's head of 8 bytes is complete. -/
def patchHead (pred : List Byte) (predLen : Nat) (x : PatchAt) : PatchAt :=
  let op := recField x.head 0 1
  let len := recField x.head 1 3
  let src := recField x.head 4 4
  let y := { x with head := [] }
  if op = 0 then { y with ended := true, good := x.good && len == 0 && src == 0 }
  else if op = 1 then
    { y with
      out := x.out ++ (List.range len).map (fun i => pred.getD (src + i) 0)
      good := x.good && decide (1 ≤ len) && decide (src + len ≤ predLen) }
  else if op = 2 then { y with insert := len, good := x.good && decide (1 ≤ len) && src == 0 }
  else { y with good := false }

/-- One significant byte of the stream. -/
def patchByte (pred : List Byte) (predLen limit : Nat) (x : PatchAt) (b : Byte) : PatchAt :=
  if !x.good || x.ended then { x with good := false }
  else
    let y := if 0 < x.insert then { x with out := x.out ++ [b], insert := x.insert - 1 }
      else
        let z := { x with head := x.head ++ [b] }
        if z.head.length = 8 then patchHead pred predLen z else z
    if limit < y.out.length then { y with good := false } else y

/-- Apply a block's payload (R420 step 5). -/
def applyBlock (s : State) (m : Manifest) (block : List Byte) : State :=
  let k := s.kpr
  let pred := if k.trying = 0 then k.image0 else k.image1
  let used := recField block 4 2
  let x := ((block.drop 8).take used).foldl (patchByte pred k.running.resultLen m.resultLen)
    { out := k.updOut, head := k.updHead, insert := k.updInsert, ended := k.updEnded, good := true }
  if x.good && within 1 4084 used && recField block 6 2 == 0 then
    { s with kpr := { k with
      updOut := x.out, updHead := x.head, updInsert := x.insert, updEnded := x.ended } }.add Reg.KPR_UPD_PROGRESS_APPLIED 1
  else updFail s Code.KPR_E_UPD_FORMAT

/-! Activation. -/

/-- The drain begins (R422): fetching and admission stop, spans halt, partitions that wait with nothing left stop. -/
def drainBegin (s : State) : State :=
  let s := s.wrs [(Reg.KPR_UPD_STATUS_STATE, 4), (Reg.KPR_STATUS_STATE, 3)]
  let s := s.raiseKpr Reg.KPR_IRQ_STATUS_DRAINING
  let s := spanHalt (spanHalt s 0) 1
  overList [0, 1] (fun p t => actNow t p) s

/-- The last block is in (R420 steps 6 and 7): the output is verified and the manifest programmed. -/
def updFinish (s : State) (m : Manifest) (norOk : Bool) : State :=
  let k := s.kpr
  if !k.updApply then
    let code := k.updCode
    ((updDrop s).wrs [(Reg.KPR_UPD_STATUS_STATE, 5), (Reg.KPR_UPD_STATUS_CODE, code)]).raiseKpr
      Reg.KPR_IRQ_STATUS_UPD_DONE
  else if !k.updEnded then updFail s Code.KPR_E_UPD_FORMAT
  else if k.updOut.length != m.resultLen || padTo 32 (shake256 k.updOut) != m.resultDigest then
    updFail s Code.KPR_E_UPD_RESULT
  else if !norOk then updFail s Code.KPR_E_UPD_NOR
  else
    let n := spareSlot s
    let s := { s with kpr := { (k.setSlot n (some m)).setImage n k.updOut with verified := some n } }
    let s := ((updDrop s).wrs [(Reg.KPR_UPD_STATUS_STATE, 3), (Reg.KPR_UPD_STATUS_CODE, 0)]).raiseKpr
      Reg.KPR_IRQ_STATUS_UPD_DONE
    if s.flag Reg.KPR_UPD_CFG_AUTO_ACT then drainBegin s else s

/-- A transport block arrives (R420 step 5, R424). -/
def updBlock (s : State) (block : List Byte) (norOk : Bool) : State :=
  match s.kpr.upd with
  | none => s
  | some m =>
    let i := s.kpr.updNext
    if !(blockCrc block && recField block 0 4 == i) then updFail s Code.KPR_E_UPD_CRC
    else
      let s := updForward s i block
      let s := if s.kpr.updApply then applyBlock s m block else s
      if s.kpr.upd.isNone then s
      else
        let s := { s with kpr := { s.kpr with updNext := i + 1 } }
        if i = m.patchBlocks then updFinish s m norOk else s

/-- UPDATE_BLOCK (R420): the next transport block of a package from the host. -/
def execUpdateBlock (block : List Byte) (norOk dmaOk : Bool) (s : State) : Answer :=
  .next (s.engine (fun s =>
    if s.kpr.upd.isNone || s.flag Reg.KPR_UPD_STATUS_RELAYED then s
    else if dmaOk then updBlock s block norOk
    else updFail s Code.KPR_E_UPD_DMA))

/-- A RELAY block (R424): another package's blocks are discarded while a receipt or a drain runs. -/
def relayBlock (s : State) (m : ChainMsg) (sigOk norOk : Bool) : State :=
  let index := m.addr % 2 ^ 32
  let room := m.addr / 2 ^ 32 % 256
  let id := m.addr / 2 ^ 40 % 2 ^ 24
  let same := s.flag Reg.KPR_UPD_STATUS_RELAYED && s.kpr.relayId == id && s.kpr.relayRoom == room
  if updHeld s && !same then s.rep Code.KPR_E_UPD_BUSY 0
  else if index = 0 then
    if updRuns s then s
    else if updHeld s then s.rep Code.KPR_E_UPD_BUSY 0
    else
      let s := if updState s = 3 then { s with kpr := s.kpr.setSlot (spareSlot s) none } else s
      let s := { s with kpr := { s.kpr with relayId := id, relayRoom := room } }
      updManifestBlock (s.wr Reg.KPR_UPD_STATUS_RELAYED 1) m.payload none sigOk norOk
  else if s.kpr.upd.isSome then updBlock s m.payload norOk
  else s

/-- RELAY (R424). -/
def execRelay (p : Nat) (sigOk norOk : Bool) (s : State) : Answer :=
  .next (s.engine (fun s => if s.ready then takeMsg s p 0x30 (fun m t => relayBlock t m sigOk norOk) else s))

/-- OP 1: activation starts in VERIFIED (R422). -/
def updActivate (s : State) : State :=
  s.keeper Reg.KPR_UPD_STATUS_CODE (fun s => if updState s = 3 then drainBegin s else s)

/-- UPDATE_ACTIVATE (R422). -/
def execUpdateActivate (s : State) : Answer := .next (updRow s 1 (s.flag Reg.KPR_UPD_CMD_SRC_LIST) updActivate)

/-- OP 2: ends a receipt or a drain, invalidates the slot and resumes fetching (R420). -/
def updAbort (s : State) : State :=
  s.keeper Reg.KPR_UPD_STATUS_CODE (fun s =>
    if updRuns s then
      let s := (updDrop { s with kpr := s.kpr.setSlot (spareSlot s) none }).wrs
        [(Reg.KPR_UPD_STATUS_STATE, 0), (Reg.KPR_UPD_STATUS_CODE, 0)]
      if s.rd Reg.KPR_STATUS_STATE = 3 then s.wr Reg.KPR_STATUS_STATE 2 else s
    else s)

/-- UPDATE_ABORT (R420). -/
def execUpdateAbort (s : State) : Answer := .next (updRow s 2 (s.flag Reg.KPR_UPD_CMD_SRC_LIST) updAbort)

/-- OP 3. -/
def updRefused (s : State) : State :=
  s.keeper Reg.KPR_UPD_STATUS_CODE (fun s =>
    (s.wr Reg.KPR_UPD_STATUS_CODE Code.KPR_E_UPD_FORMAT).rep Code.KPR_E_UPD_FORMAT 0)

/-- UPD_OP_REFUSED (R420). -/
def execUpdOpRefused (s : State) : Answer := .next (updRow s 3 (s.flag Reg.KPR_UPD_CMD_SRC_LIST) updRefused)

/-- Whether the last block has been sent and acknowledged at the link (R424). -/
def relaySent (s : State) : Bool := !((s.port 1).queue.any (fun m => m.msgType == 0x30)) && (s.port 1).unacked.isEmpty

/-- Step 4 of R422 and R400: the boot record names the new slot, Keeper restarts, the ports retrain and announce. -/
def restart (s : State) (reads : List Bool) : State :=
  let r := (governing s.kpr).getD {}
  let k := putBoot s.kpr { r with active := spareSlot s, trial := 1, tries := 0 }
  let s := { s with
    kpr := { k with restarting := true, released := false, verified := none }
    chn := { s.chn with
      fore := { s.chn.fore with announce := true }, aft := { s.chn.aft with announce := true } } }
  let s := s.wrs [(Reg.KPR_STATUS_READY, 0), (Reg.KPR_STATUS_STATE, 4), (Reg.KPR_UPD_STATUS_STATE, 0)]
  let s := portRetrain (portRetrain (s.inc Reg.KPR_RESTARTS) 0) 1
  if s.chip.spiVsel then bootFail s else bootLoop 6 reads (bootSelect s)

/-- Whether the drain is over. -/
def drainOver (s : State) : Bool := !s.part0.busy && !s.part1.busy && s.ops.isEmpty && relaySent s

/-- DRAIN_COMPLETE (R422): partitions that wait with nothing left are stopped; with every partition IDLE and nothing in
flight Keeper restarts. -/
def execDrainComplete (reads : List Bool) (s : State) : Answer :=
  .next (s.engine (fun s =>
    if s.rd Reg.KPR_STATUS_STATE != 3 then s
    else if drainOver s then restart s reads
    else overList [0, 1] (fun p t => actNow t p) s))

/-- End an operation in flight with KPR_E_DRAIN as a CANCEL would (R422). -/
def drainOp (s : State) (id : Nat) : State :=
  match s.op id with
  | none => s
  | some o =>
    if o.endCode.isSome then s
    else
      let s := s.report (opErr o Code.KPR_E_DRAIN 1)
      if o.inStep.isSome then
        s.updOp id (fun x => if x.stop.isSome then x else { x with stop := some (s.timeKc, Code.KPR_E_DRAIN) })
      else if o.desc.opcode = 1 then endRequest s o ((stopCodeAt o s.timeKc).getD Code.KPR_E_DRAIN)
      else endOp s id Code.KPR_E_DRAIN

/-- DRAIN_TIMEOUT (R422): DRAIN_S seconds after the drain began, what is in flight ends and the partitions stop at their
next boundary. -/
def execDrainTimeout (s : State) : Answer :=
  .next (s.engine (fun s =>
    if s.rd Reg.KPR_STATUS_STATE != 3 then s
    else
      let s := overList (s.ops.map (·.id)) (fun id t => drainOp t id) s
      overList [0, 1] (fun p t => if (t.part p).busy then stopPart t p false 0 else t) s))

/-- IMAGE_COMMIT (R423): 60 s after ready in a trial start. -/
def execImageCommit (s : State) : Answer :=
  .next (s.engine (fun s =>
    if s.ready && s.flag Reg.KPR_STATUS_TRIAL then
      { s with kpr := putBoot s.kpr { (governing s.kpr).getD {} with trial := 0 } }.wr Reg.KPR_STATUS_TRIAL 0
    else s))

end Sys2Proof.Machine
end

