-- ==== Sys2Proof/Machine/Reset.lean ====
section
/-! DEFINITION. Resets, power and the start up to Keeper (R46, R299, R355, R430 to R443, R456): the pins, the link, the root
PLL, FLR, the loss of the rails, and the JTAG instruction. -/

namespace Sys2Proof.Machine

/-! What a reset leaves (R46, R256, R434). -/

/-- Whether a register field keeps its value through a reset. -/
def fieldKept (cold : Bool) (key : Nat) : Bool :=
  match regClass key with
  | .kept => true
  | .cold => !cold
  | .warm => false

/-- Model slots keep their pointers; a pending swap takes effect (R456). -/
def resetSlots (s : State) : State :=
  iter 64 (fun m t =>
    if t.flag (Reg.EXP_MSLOT_PENDING m) then
      t.wrs [(Reg.EXP_MSLOT_SET m, t.rd (Reg.EXP_MSLOT_NEXT_SET m)), (Reg.EXP_MSLOT_NEXT_SET m, 0),
        (Reg.EXP_MSLOT_PENDING m, 0)]
    else t) s

/-- What Keeper keeps: the NOR with a verified image in it (R425), and a fallback that no Keeper has recorded yet. -/
def resetKeeper (k : Keeper) : Keeper :=
  { boot0 := k.boot0, boot1 := k.boot1, slot0 := k.slot0, slot1 := k.slot1, image0 := k.image0, image1 := k.image1
    norBytes := k.norBytes, fallback := k.fallback, verified := k.verified }

/-- What power control keeps. The brake's filter and the regulator's setpoint are no reset's (R429, R436); MAXDIV's
journal is non-volatile (R357); of a PERST# the rest stays too (R374). -/
def resetPower (w : Power) (cold : Bool) : Power :=
  if cold then { setpoint := w.setpoint, brakeStuck := w.brakeStuck, journal := w.journal }
  else { w with capWant0 := 0, capWant1 := 0, wait0 := none, wait1 := none, droops := [], lowMargin := [], steps := [] }

/-- The registers after a reset. A tile that failed its start keeps MAXDIV 0xFF until COLD_RST_N (R97); the cap's ceiling and the trip mirror the Strongroom, and the cap is clamped. -/
def resetRegs (s : State) (cold : Bool) : State :=
  let brake := s.rd Reg.PWR_STATUS_BRAKE_IN
  let s := { s with regs := SMap.keep (fieldKept cold) s.regs }
  let ceil := s.rd Reg.SRM_LIMITS0_CEIL_W
  let s := if cold then { s with chip := { s.chip with badTiles := [] } } else s
  let s := overList s.chip.badTiles (fun n t => t.wrs [(Reg.PWR_TILE_MAXDIV n, 255), (Reg.TIL_STATUS_MAXDIV n, 255)]) s
  s.wrs [(Reg.PWR_CAPS_CEIL_W, ceil), (Reg.PWR_CAPS_TRIP_C, s.rd Reg.SRM_LIMITS0_TRIP_C),
    (Reg.PWR_CAP_CTRL_CAP_W, minNat (s.rd Reg.PWR_CAP_CTRL_CAP_W) ceil), (Reg.PWR_STATUS_BRAKE_IN, brake),
    (Reg.CHN_STATUS_HEAD_STRAP, b2n s.chip.chainHead)]

/-- The Cellar at a reset: the blocks of its open operations are interrupted (R184); the age of a set's last pass counts from the
start where the K-cycle counter does. -/
def resetCellar (s : State) (cold : Bool) : State :=
  let s := iter 64 interruptBank s
  if cold then iter 64 (fun n t => t.setSet n { t.set n with passKc := 0 }) s else s

/-- A reset: every engine disabled and inert, DRAM's contents gone, the non-volatile stores kept. -/
def resetPart (s : State) (cold : Bool) : State :=
  let s := resetRegs (resetCellar (resetSlots s) cold) cold
  let s := { s with
    resp := [], timeKc := if cold then 0 else s.timeKc, heldOut := [], snap := [], hold := [], dram := [], gran := []
    refs := [], walks := [], part0 := {}, part1 := {}, mapForce := none, images := [], loadLen := 0, ops := []
    nextOp := 1, nextAdmit := 1, nextBooking := 1, staged := [], releases := [], rqs := [], cqs := []
    keeperBookings := [], keeperWatches := [], holdRanges := [], heldWrites := [], mig := none, chans := [], ctxs := []
    gbOn := [], tiles := [] }
  let s := { s with
    cel := { s.cel with inFlight := [], forced := [] }
    exp := { sets := s.exp.sets, removing := s.exp.removing }
    chn := { room := s.chn.room }
    pwr := resetPower s.pwr cold
    kpr := resetKeeper s.kpr
    err := if cold then {} else { buffer := s.err.buffer, first := s.err.first, last := s.err.last }
    sec := { s.sec with keysLive := false, peerRoom := none }
    chip := { s.chip with
      pllLocked := false, pllFailed := false, linkUp := false, pci := {}, d3hot := false, alertLow := false, tilesStarted := 0
      setsChecked := false, testTile := 0, tileGo := false, tapInstr := if cold then 0 else s.chip.tapInstr } }
  let s := { s with pwr := { s.pwr with capNow := s.rd Reg.PWR_CAP_CTRL_CAP_W } }
  setReason s 3 (s.flag Reg.PWR_STATUS_BRAKE_IN)

/-- The straps are sampled (R435). -/
def sampleStraps (s : State) (x : Straps) : State :=
  { s with chip := { s.chip with
    chainHead := x.chainHead, bootSel := x.bootSel, spiVsel := x.spiVsel } }.wr Reg.CHN_STATUS_HEAD_STRAP (b2n x.chainHead)

/-! The pins. -/

/-- Whether a low pulse of a length in ns resets (R433): between 1 µs and 2 µs either may happen. -/
def pulseResets (s : State) (ns : Nat) : Bool × State :=
  if ns < 1000 then (false, s) else if 2000 ≤ ns then (true, s) else s.freshBool

/-- COLD_RST_ASSERT (R433). -/
def execColdRstAssert (ns : Nat) (s : State) : Answer :=
  let r := pulseResets s ns
  .next (if r.1 then { resetPart r.2 true with chip := { (resetPart r.2 true).chip with coldLow := true } } else r.2)

/-- COLD_RST_RELEASE (R46, R435): with the rails up the start begins once both pins are high. -/
def execColdRstRelease (straps : Straps) (s : State) : Answer :=
  .next (if s.chip.coldLow then
    sampleStraps { s with chip := { s.chip with coldLow := false, coreUp := true, ioUp := true } } straps
  else s)

/-- PERST_ASSERT (R434): while COLD_RST_N is low it adds nothing. -/
def execPerstAssert (ns : Nat) (s : State) : Answer :=
  let r := pulseResets s ns
  .next (if r.1 then
    let t := if r.2.chip.coldLow || r.2.chip.tripped then r.2 else resetPart r.2 false
    { t with chip := { t.chip with perstLow := true } }
  else r.2)

/-- PERST_RELEASE (R46, R435). -/
def execPerstRelease (straps : Straps) (s : State) : Answer :=
  .next (if s.chip.perstLow then sampleStraps { s with chip := { s.chip with perstLow := false } } straps else s)

/-- A reset over the link: it acts as PERST# and keeps the last strap sample (R434, R435). -/
def linkReset (s : State) : State := if s.alive && s.chip.linkUp then resetPart s false else s

/-- HOT_RESET (R434). -/
def execHotReset (s : State) : Answer := .next (linkReset s)

/-- LINK_DISABLE (R434). -/
def execLinkDisable (s : State) : Answer := .next (linkReset s)

/-! The root PLL and the link. -/

/-- ROOT_PLL_LOCK (R355, R398): Porter begins step 1 of R46. -/
def execRootPllLock (reads : List Bool) (s : State) : Answer :=
  .next (if s.alive && s.chip.coreUp && !s.chip.pllLocked && !s.chip.pllFailed then
    bootKeeper { s with chip := { s.chip with pllLocked := true } } reads
  else s)

/-- PLL_LOCK_TIMEOUT (R355). -/
def execPllLockTimeout (s : State) : Answer :=
  .next (if s.alive && !s.chip.pllLocked then
    { s with chip := { s.chip with pllFailed := true, alertLow := true } }
  else s)

/-- The host sets the function's configuration: the sizes of BAR4 that its capability offers run from 256 MiB to 64 GiB
(R283); messages that waited go out where it opens their vectors (R298). -/
def pciSet (s : State) (cfg : PciConf) : State :=
  let s := { s with chip := { s.chip with pci := { cfg with bar4Log2 := clampNat 28 36 cfg.bar4Log2 } } }
  if cfg.msixEn && !cfg.msixMask then iter 2048 (fun v t => t.flushVec v) s else s

/-- PCIE_LINK_TRAINED (R4, R281): speed as a generation, 1 to 5, width in lanes, and the configuration that the host leaves
the function with (log entry 104). -/
def execPcieLinkTrained (speed width : Nat) (cfg : PciConf) (s : State) : Answer :=
  .next (if s.alive && s.chip.coreUp then
    pciSet ({ s with chip := { s.chip with linkUp := true } }.wrs
      [(Reg.HIF_LINK_SPEED, speed), (Reg.HIF_LINK_WIDTH, width)]) cfg
  else s)

/-! FLR (R299). -/

/-- Drop the registers whose offsets lie in a range. -/
def clearRange (s : State) (lo hi : Nat) : State :=
  { s with regs := SMap.keep (fun k => decide (k / 64 < lo) || decide (hi ≤ k / 64)) s.regs }

/-- An operation that an FLR meets: in a step it ends at the scatter, otherwise at once; it leaves no record. -/
def flrOp (s : State) (id : Nat) : State :=
  match s.op id with
  | none => s
  | some o =>
    let quiet := s.updOp id (fun x => { x with noRecord := true })
    if o.inStep.isSome then
      quiet.updOp id (fun x => if x.stop.isSome then x else { x with stop := some (s.timeKc, Code.HIF_E_FLR) })
    else if o.endCode.isSome || o.desc.opcode != 1 then dropOp s id
    else endRequest quiet { o with noRecord := true } Code.HIF_E_FLR

/-- The wait slots are disarmed, FIRED clear. -/
def flrWaits (s : State) : State :=
  { s with regs := SMap.keep (fun k =>
    decide (k / 64 < 0x490000) || decide (0x500000 ≤ k / 64) || k / 64 % 32 != 0 || (k % 64 != 31 && k % 64 != 30)) s.regs }

/-- FLR (R299). The snapshot and holding registers of the pairs are host-facing state and go back to 0 too (log entry 87). -/
def flr (s : State) : State :=
  let s := overList (s.ops.map (·.id)) (fun id t => flrOp t id) { s with staged := [] }
  let s := { s with rqs := [], cqs := [], heldOut := [], snap := [], hold := [] }
  let s := clearRange s 0x4000000 0x6000000
  let s := flrWaits (clearRange (clearRange s 0x410000 0x450000) 0x300000 0x310000)
  let s := s.clr Reg.XLT_BAR4_CTRL_ENABLE
  let s := installAbort (loadAbort (migAbort (iter 8 chFlr s)))
  let s := if s.kpr.upd.isSome && !s.flag Reg.KPR_UPD_STATUS_RELAYED then updFail s Code.KPR_E_UPD_DMA else s
  let s := s.wrs [(Reg.SEC_MBX_STATUS_BUSY, 0), (Reg.SEC_MBX_STATUS_CODE, 0)]
  { s with sec := { s.sec with peerRoom := none }, chip := { s.chip with d3hot := false, pci := {} } }

/-- FLR (R299). -/
def execFlr (s : State) : Answer := .next (if s.alive && s.chip.linkUp then flr s else s)

/-! Power and JTAG. -/

/-- POWER_LOSS (R439, R370, R429): VDD_CORE falls below 0.3 V, and with `io` VDD_IO goes too. The part is then as a cold
reset leaves it, held until COLD_RST_N is released with the rails up. -/
def execPowerLoss (io : Bool) (s : State) : Answer :=
  .next (let t := resetPart s true
    let t := if io then setReason (t.wr Reg.PWR_STATUS_BRAKE_IN 0) 3 false else t
    { t with
      pwr := { t.pwr with setpoint := 750, brakeStuck := t.pwr.brakeStuck && !io }
      chip := { t.chip with
        coldLow := true, tripped := false, thermTripLow := false, tripFlag := t.chip.tripFlag && !io, coreUp := false
        ioUp := !io, tapInstr := 0 } })

/-- The instruction codes of the TAP (log entry 27): 0 BYPASS, 1 IDCODE; others are those that R443 opens in MANUFACTURE
and RETURN. -/
def tapCode (s : State) (instr : Nat) : Nat :=
  if s.rd Reg.SRM_LC_STATE = 0 ∨ s.rd Reg.SRM_LC_STATE = 3 then instr else if instr = 1 then 1 else 0

/-- TAP_INSTRUCTION (R443): IDCODE shows 0x232009CB. -/
def execTapInstruction (instr : Nat) (s : State) : Answer :=
  .next (if s.chip.ioUp then
    let c := tapCode s instr
    { s with chip := { s.chip with tapInstr := c }, resp := if c = 1 then [0x232009CB] else s.resp }
  else s)

end Sys2Proof.Machine
end

