-- ==== Sys2Proof/Machine/Bar.lean ====
section
/-! DEFINITION. BAR0 reads and writes (R13 to R17): the words an access touches, register pairs with their snapshot
and holding register, data windows, the registers that a selector redirects and those whose value is worked out from
other state, what a write of each register does; discarded writes (R300); D3hot and the return to D0 (R284). BAR0
holds the registers, BAR2 the doorbells, BAR4 the window (R283). -/

namespace Sys2Proof.Machine

/-- The configuration header of the function (R282): byte offset, bytes and value of each register that the spec states,
at the offsets of a type-0 header. PRESUMED: the offsets are those of PCI. No command of the table reads them. -/
def pciHeader : List (Nat × Nat × Nat) :=
  [(0x00, 2, 0x1EC7), (0x02, 2, 0x3200), (0x08, 1, 0x21), (0x09, 3, 0x120000), (0x2C, 2, 0x1EC7), (0x2E, 2, 0x3200)]

/-- The Device Serial Number: the low 64 bits of LOGIC_UID (R282). -/
def deviceSerial (s : State) : Nat := leNat ((logicUid s).take 8)

/-- What Link Capabilities reports of link power (R281, R285): ASPM L1 only, code 2, and an L1 exit latency of 4 µs to 8 µs,
code 3. PRESUMED: the codes are those of PCI Express. No command of the table reads them. -/
def linkPower : Nat × Nat := (2, 3)

/-! Where a register's fields are, and what a read of it returns. -/

/-- The index of an offset in an array of `n` registers. -/
def arrIdx (base stride n off : Nat) : Option Nat :=
  if base ≤ off && (off - base) % stride == 0 && decide ((off - base) / stride < n) then some ((off - base) / stride)
  else none

/-- The offset that holds a register's fields: the home that a selector picks, or the register itself. -/
def homeOff (s : State) (off : Nat) : Nat :=
  if [0x200024, 0x200028, 0x200034, 0x200038, 0x20003C].contains off then
    off + 0x3E00000 + 0x40 * s.rd Reg.HIF_RQ_SEL_QUEUE
  else if [0x200044, 0x200048, 0x200054].contains off then off + 0x4DFFFC0 + 0x40 * s.rd Reg.HIF_CQ_SEL_QUEUE
  else if off = 0xC00078 then (Reg.MEM_SCR_CONF (s.rd Reg.MEM_SCR_SEL_TILE) (s.rd Reg.MEM_SCR_SEL_BANK)).off
  else if off = 0x1400094 then (Reg.EXP_CTXV_DATA_DECODE_SLOT (s.rd Reg.EXP_CTXV_SEL_CONTEXT)).off
  else if off = 0x1C00034 then (Reg.SRV_GB_CFG_MAX_FRAMES (s.rd Reg.SRV_GB_SEL_CONTEXT)).off
  else if off = 0x1C0003C then (Reg.SRV_GB_STATUS_CODE (s.rd Reg.SRV_GB_SEL_CONTEXT)).off
  else match arrIdx 0x2000304 0x40 2 off with
    | some p => (Reg.CHN_S_ROOM_ROOM p (s.rd (Reg.CHN_S_ROOMSEL_STAGE p))).off
    | none => off

/-- The first 64 bytes of a set's header, which EXP_SETQ_DATA shows (R212). -/
def setHead (r : SetRec) : List Byte :=
  leBytes 4 0x57534C48 ++ leBytes 2 1 ++ leBytes 1 r.form ++ leBytes 1 r.tables.length ++ leBytes 4 r.layoutTag ++
  leBytes 4 r.baseLayoutTag ++ leBytes 16 r.setUid ++ leBytes 16 r.baseUid ++ leBytes 4 r.blocks ++
  leBytes 2 r.planes.length ++ leBytes 2 0 ++ leBytes 8 r.dataBytes

/-- The state of a set as EXP_SETs reports it: 0 before Keeper is ready (R459). -/
def shownSet (s : State) (n : Nat) : SetRec := if s.ready then s.set n else {}

/-- The lowest-numbered plane with the fewest spare blocks. -/
def sparePlane (s : State) : Nat :=
  (List.range 1024).foldl (fun b p => if spareOf s p < spareOf s b then p else b) 0

/-- The summary record that ERR_SUM_SEL names. -/
def sumRecord (s : State) : Option ErrRec :=
  let c := s.rd Reg.ERR_SUM_SEL_CLASS
  if s.flag Reg.ERR_SUM_SEL_LAST then SMap.get errBlank s.err.last c else SMap.get errBlank s.err.first c

/-- A word of an error record; 0 for an empty place. -/
def recordWord (r : Option ErrRec) (w : Nat) : Nat :=
  match r with
  | some e => recField (errBytes e) (4 * w) 4
  | none => 0

/-- The roster's word that CHN_ROSTER_SEL names. -/
def rosterWord (s : State) : Nat :=
  match s.chn.roster.find? (fun r => r.room == s.rd Reg.CHN_ROSTER_SEL_ROOM) with
  | some r => r.words.getD (s.rd Reg.CHN_ROSTER_SEL_WORD) 0
  | none => 0

/-- The running context of a partition, where it has one. -/
def loadCtx (s : State) (p : Nat) : Option Nat := if (s.part p).busy then some (s.part p).ctx else none

/-- Worked-out fields of the HIF, XLT, MEM and CEL blocks. -/
def viewLow (s : State) (off lo : Nat) : Nat :=
  if off = 0x200008 then s.timeUs
  else if off = 0x200010 then s.descriptors
  else if off = 0x800004 then s.part0.pins.length
  else if off = 0x800008 then s.part1.pins.length
  else if off = 0xC00008 then (if s.ready then granAvail s else 0)
  else if off = 0xC0000C then
    (if s.ready then granAvail s - granCount s 0 (granAvail s) (fun v => granOwned v || granScrub v) else 0)
  else if off = 0xC00010 then SMap.count (fun _ v => granScrub v) s.gran
  else if off = 0xC00180 then
    (if lo = 8 then minNat 96 s.part0.bookings.length else if lo = 16 then minNat 96 s.part1.bookings.length
     else minNat 64 s.keeperBookings.length)
  else if off = 0xC00184 then (if lo = 0 then watchLines s.part0.watches else watchLines s.part1.watches)
  else if off = 0x1000010 then
    (if s.rd Reg.CEL_STATUS_PHASE = 4 then (if lo = 16 then sparePlane s else spareOf s (sparePlane s)) else 0)
  else if off = 0x1000040 then
    (List.range 64).foldl (fun n b => if (SMap.get (fun _ => none) s.cel.bankOps b).isSome then n + 2 ^ b else n) 0
  else if off = 0x1000064 then calWord (s.rd Reg.CEL_CAL_SEL_DIE) (s.rd Reg.CEL_CAL_SEL_WORD)
  else 0

/-- Worked-out fields of the EXP, TIL and SRV blocks. -/
def viewMid (s : State) (off lo : Nat) : Nat :=
  if off = 0x1400064 then
    (let r := s.set (s.rd Reg.EXP_SETQ_SEL_SET)
     if r.state = 0 then 0 else recField (setHead r) (4 * s.rd Reg.EXP_SETQ_SEL_WORD) 4)
  else if off = 0x14000A4 then ageHours s
  else if off = 0x1C0003C then b2n (gbEnabled s (s.rd Reg.SRV_GB_SEL_CONTEXT))
  else if off = 0x1C00040 then gbLive s (s.rd Reg.SRV_GB_SEL_CONTEXT)
  else if off = 0x1C00044 then gbHeld s (s.rd Reg.SRV_GB_SEL_CONTEXT)
  else match arrIdx 0x1400100 4 32 off with
  | some t => b2n (decide (tableRefs s t lo ≠ 0))
  | none => match arrIdx 0x1400200 4 64 off with
  | some n => if lo = 29 then (shownSet s n).state else if lo = 27 then (shownSet s n).form else (shownSet s n).lblocks
  | none => match arrIdx 0x180000C 0x10000 32 off with
  | some n => if s.part0.busy && s.part0.tiles.contains n then s.part0.beat
      else if s.part1.busy && s.part1.tiles.contains n then s.part1.beat else 0
  | none => match arrIdx 0x1C00110 0x80 2 off with
  | some p => ((loadCtx s p).map (admittedCount s)).getD 0
  | none => match arrIdx 0x1C0011C 0x80 2 off with
  | some p => ((loadCtx s p).map (queuedPositions s)).getD 0
  | none => 0

/-- Worked-out fields of the CHN, PWR and ERR blocks. -/
def viewHigh (s : State) (off lo : Nat) : Nat :=
  if off = 0x200001C then rosterWord s
  else if off = 0x2400008 then b2n s.safe
  else if off = 0x2C00024 then recordWord (sumRecord s) (s.rd Reg.ERR_SUM_SEL_WORD)
  else match arrIdx 0x2C00040 4 16 off with
  | some w => recordWord (ringAt s (s.rd Reg.ERR_RD_IDX_IDX)) w
  | none => match arrIdx 0x2400100 0x40 2 off with
  | some p =>
    if lo = 24 then (if (s.part p).busy then divOf s p else 0)
    else if s.mapForce.isNone then 0
    else if lo = 16 then partFloor s p else partCapDiv s p
  | none => 0

/-- A field that the part works out from other state. -/
def viewField (s : State) (off lo : Nat) : Nat :=
  if off < 0x1400000 then viewLow s off lo else if off < 0x2000000 then viewMid s off lo else viewHigh s off lo

/-- What a read of a field returns: a field that is written only reads 0 (R15). -/
def readField (s : State) (off : Nat) (f : FieldRow) : Nat :=
  if f.acc = .wo then 0
  else match f.kind with
    | .stored => s.rd ⟨off, f.lo, f.width⟩
    | .windowed => s.rd ⟨homeOff s off, f.lo, f.width⟩
    | .computed => viewField s off f.lo % 2 ^ f.width

/-- What a read of a register returns; reserved bits read as 0 (R13). A pair is one value. -/
def readReg (s : State) (off : Nat) (r : RegRow) : Nat :=
  r.fields.foldl (fun n f => n + readField s off f * 2 ^ f.lo) 0

/-- The register at an offset of BAR0, which is 64 MiB. -/
def barReg (off : Nat) : Option RegRow := if off < 0x4000000 then regAt off else none

/-- The register of a word: its row and the offset of its low half. -/
def wordReg (off : Nat) : Option (RegRow × Nat) :=
  match barReg off with
  | some r => some (r, off)
  | none =>
    if off < 4 then none
    else match barReg (off - 4) with
      | some r => if r.pair then some (r, off - 4) else none
      | none => none

/-! Reads. -/

/-- The side effect of reading a data window: WORD goes on by one (R15). -/
def advanceWord (s : State) (off : Nat) : State :=
  if off = 0x1000064 then s.inc Reg.CEL_CAL_SEL_WORD
  else if off = 0x200001C then s.inc Reg.CHN_ROSTER_SEL_WORD
  else if off = 0x2C00024 then s.inc Reg.ERR_SUM_SEL_WORD
  else s

/-- A 4-byte read of a word (R14 to R16): a `_LO` half latches its `_HI` half, a `_HI` half returns the snapshot. -/
def readWord (s : State) (off : Nat) : Nat × State :=
  match wordReg off with
  | none => (0, s)
  | some (r, base) =>
    if r.pair then
      if base = off then
        let v := readReg s off r
        (v % 2 ^ 32, { s with snap := SMap.set halfBlank s.snap off (v / 2 ^ 32) })
      else (SMap.get halfBlank s.snap base, s)
    else (readReg s off r, advanceWord s off)

/-- The words that an access of `n` bytes touches, in ascending order. -/
def touched (off n : Nat) : List Nat := (List.range ((off + n + 3) / 4 - off / 4)).map (fun i => 4 * (off / 4 + i))

/-- Whether a BAR0 read is answered: the host reaches the BARs (R4); without the root PLL only GEN answers (R355), in a scrapped
part GEN and SRM (R386). -/
def readOk (s : State) (off : Nat) : Bool :=
  s.alive && s.linked && (decide (off < 0x100000) ||
    (!s.chip.pllFailed && (s.rd Reg.SRM_LC_STATE != 4 || (decide (0x3001000 ≤ off) && decide (off < 0x3008000)))))

/-- A BAR0 read (R14): the words touched go to `resp`. An aligned 8-byte read of a pair reads it as one value. -/
def barRead (s : State) (off n : Nat) : State :=
  if readOk s off then
    match barReg off with
    | some r =>
      if r.pair && n == 8 then
        { s with resp := [readReg s off r % 2 ^ 32, readReg s off r / 2 ^ 32] }
      else
        let a := (touched off n).foldl (fun q w => let b := readWord q.2 w; (q.1 ++ [b.1], b.2)) ([], s)
        { a.2 with resp := a.1 }
    | none =>
      let a := (touched off n).foldl (fun q w => let b := readWord q.2 w; (q.1 ++ [b.1], b.2)) ([], s)
      { a.2 with resp := a.1 }
  else { s with resp := [] }

/-- PAIR_LO_READ (R16): a BAR0 read; of `_LO` and 4 bytes it latches the other half. -/
def execPairLoRead (off size : Nat) (s : State) : Answer := .next (barRead s off size)

/-- DATA_WINDOW_READ (R15). -/
def execDataWindowRead (off : Nat) (s : State) : Answer := .next (barRead s off 4)

/-! Writes: the fields a write stores. -/

/-- One field of a write: RW stores, a 1 clears a W1C bit, a 1 sets a W1S bit; RO, WO and RWS fields store nothing. -/
def writeField (home w : Nat) (s : State) (f : FieldRow) : State :=
  match f.acc with
  | .rw => s.wr ⟨home, f.lo, f.width⟩ (bitsOf w f.lo f.width)
  | .w1c => if bitOf w f.lo then s.wr ⟨home, f.lo, f.width⟩ 0 else s
  | .w1s => if bitOf w f.lo then s.wr ⟨home, f.lo, f.width⟩ 1 else s
  | _ => s

/-- Store a register's fields. -/
def writeFields (s : State) (off w : Nat) (r : RegRow) : State :=
  let home := homeOff s off
  r.fields.foldl (writeField home w) s

/-- The status register and the place in HIF_IVEC of a block's enable register. -/
def enableBlock (off : Nat) : Option Nat :=
  [0x200084, 0x100034, 0xC000A4, 0x1000054, 0x14000B4, 0x1C00014, 0x2000024, 0x2400044, 0x28000E4, 0x2C00034,
    0x3000084].findIdx? (· == off)

/-- An enable becomes 1 while its event bit is 1: the vector is sent (R298). -/
def enableWrite (s : State) (off w src : Nat) (r : RegRow) : State :=
  let old := readReg s off r
  let s := writeFields s off w r
  iter 8 (fun i t =>
    if !bitOf old i && bitOf (readReg t off r) i && t.flag ⟨off - 4, i, 1⟩ then t.msix (t.rd (Reg.HIF_IVEC_VECTOR src))
    else t) s

/-! What a write of a register does beside storing its fields. A GO whose command brings data from outside acts through
that command's own row; here its word's fields are stored. -/

/-- Registers whose write is not a plain store: the value is clamped, refused or acts at once. -/
def writeSpecial (s : State) (off w : Nat) : Option State :=
  if off = Reg.ITN_CFG_SLOT_SIZE.off then some (slotSizeWrite s (w % 4))
  else if off = Reg.MEM_CFG_SETREC_GIB.off then some (setrecWrite s (w % 8))
  else if off = Reg.CEL_DISTURB_CFG_THRESH_K.off then some (s.wr Reg.CEL_DISTURB_CFG_THRESH_K (clampThresh (w % 65536)))
  else if off = 0x1400094 then
    let c := s.rd Reg.EXP_CTXV_SEL_CONTEXT
    let slot (v : Nat) : Nat := if 63 < v then 0xFF else v
    some (s.wrs [(Reg.EXP_CTXV_DATA_PREFILL_SLOT c, slot (bitsOf w 8 8)), (Reg.EXP_CTXV_DATA_DECODE_SLOT c, slot (w % 256))])
  else if off = Reg.EXP_RECHECK_CFG_HOURS.off then some (s.wr Reg.EXP_RECHECK_CFG_HOURS (clampNat 1 168 (w % 256)))
  else if off = Reg.CHN_CFG_SQ_SHIFT.off then some (s.wr Reg.CHN_CFG_SQ_SHIFT (minNat (w % 64) 60))
  else if off = Reg.PWR_CAP_CTRL_CAP_W.off then some (capWrite s (w % 256))
  else if off = Reg.PWR_THERM_CFG_THROTTLE_C.off then
    some (s.wrs [(Reg.PWR_THERM_CFG_CELLAR_C, clampNat 70 85 (bitsOf w 8 8)),
      (Reg.PWR_THERM_CFG_THROTTLE_C, clampNat 85 105 (w % 256))])
  else if off = Reg.KPR_DRV_IF_VERSION.off then some (drvIf s w)
  else if off = Reg.KPR_DB_MARK_VALUE.off then some (dayMark s w)
  else if off = Reg.KPR_UPD_CFG_DRAIN_S.off then
    some (s.wrs [(Reg.KPR_UPD_CFG_AUTO_ACT, bitsOf w 31 1), (Reg.KPR_UPD_CFG_RELAY, bitsOf w 30 1),
      (Reg.KPR_UPD_CFG_DRAIN_S, maxNat 1 (w % 65536))])
  else if off = Reg.ERR_RING_CONS_CONS.off then some (ringConsWrite s w)
  else match arrIdx 0x490000 0x20 256 off with
  | some i => some (armWrite s i w)
  | none => match arrIdx 0xC01008 0x40 8 off with
  | some c =>
    if chWaiting s c == 0 || s.flag (Reg.MEM_CH_STATUS_HALTED c) then
      let s := s.wr (Reg.MEM_CH_CFG_SIZE_LOG2 c) (clampNat 4 16 (w % 32))
      if bitOf w 31 then some (s.wr (Reg.MEM_CH_CFG_ENABLE c) 1)
      else if s.flag (Reg.MEM_CH_CFG_ENABLE c) then some (copyDisable s c) else some s
    else some s
  | none => match arrIdx 0xC0100C 0x40 8 off with
  | some c => some (prodWrite s c w)
  | none => match arrIdx 0x1C00100 0x80 2 off with
  | some p => some (s.wrs [(Reg.SRV_P_CFG_ADMIT_EN p, bitsOf w 31 1),
      (Reg.SRV_P_CFG_CHUNK_RESERVE p, minNat (bitsOf w 16 3) 4), (Reg.SRV_P_CFG_ADMIT_REQS p, maxNat 1 (w % 512))])
  | none => match arrIdx 0x2000100 0x40 2 off with
  | some p =>
    if bitOf w 31 then
      let s := if s.flag (Reg.CHN_P_CTRL_ENABLE p) then s else portEnable s p
      some (if bitOf w 30 then portRetrain s p else s)
    else if s.flag (Reg.CHN_P_CTRL_ENABLE p) then some (portDisable s p) else some s
  | none => match arrIdx 0x2400100 0x40 2 off with
  | some p => some (forceDiv s p (w % 256))
  | none => none

/-- What a write of a register of the GEN to MEM blocks does once its fields are stored. -/
def afterLow (s : State) (off w : Nat) : State :=
  if off = Reg.ITN_LOAD_CTRL_GO.off then
    let s := if bitOf w 31 then loadGo s (w % 8) (bitOf w 4) else s
    if bitOf w 30 then loadAbort s else s
  else if off = Reg.ITN_BIND_GO.off then
    (if bitOf w 31 then bindCmd s (bitsOf w 16 2) (bitsOf w 12 3) (w % 4096) else s)
  else if off = Reg.HIF_RQ_CMD_GO.off then (if bitOf w 31 then rqCmd s (w % 4) else s)
  else if off = Reg.HIF_CQ_CMD_GO.off then (if bitOf w 31 then cqCmd s (w % 4) else s)
  else if off = Reg.XLT_INV_CMD_GO.off then (if bitOf w 31 then dropWalks s (w % 4096) else s)
  else if off = Reg.MEM_GRANT_CMD_GO.off then (if bitOf w 31 then grantCmd s (bitsOf w 29 2) (w % 4096) else s)
  else if off = Reg.MEM_MIG_CMD_GO.off then
    let s := if bitOf w 31 then migStart s else s
    if bitOf w 30 then migAbort s else s
  else match arrIdx 0x100040 4 8 off with
  | some k => if bitOf w 31 then slotFree s k else s
  | none => match arrIdx 0x100100 0x80 2 off with
  | some p =>
    let s := if bitOf w 31 then activate s p (w % 4096) false 0 else s
    if bitOf w 30 then stopPart s p false 0 else s
  | none => match arrIdx 0x30000C 0x10 2048 off with
  | some v =>
    s.flushVec v
  | none => match arrIdx 0xC01020 0x40 8 off with
  | some c => if bitOf w 30 && !bitOf w 31 then copySkip s c else s
  | none => s

/-- The mailbox commands that need nothing from outside the part; the others act through their own rows. -/
def mbxPlain (s : State) (op : Nat) : State :=
  if op = 0x01 then mbxGo s op ctxOpen
  else if op = 0x03 then mbxGo s op ctxEnd
  else if op = 0x11 then mbxGo s op quotePeer
  else if op = 0x30 then mbxGo s op setLimit
  else if (mbxStates op).isNone then mbxGo s op id
  else s

/-- What a write of a register of the CEL to SEC blocks does once its fields are stored. -/
def afterHigh (s : State) (off w : Nat) : State :=
  if off = Reg.CEL_BQ_SEL_GO.off then
    (if bitOf w 31 then blockQuery s (bitsOf w 16 10) (bitOf w 7) (w % 128) else s)
  else if off = Reg.EXP_TBL_CMD_GO.off then
    (if bitOf w 31 then tableLoad s (bitOf w 30) (bitsOf w 24 6) (bitsOf w 16 5) (bitsOf w 8 1) (w % 256) else s)
  else if off = Reg.EXP_INST_CMD_GO.off then
    let set := w % 64
    let s := if bitOf w 31 && bitsOf w 8 2 == 1 then setRemove s set else s
    if bitOf w 30 then installAbort s else s
  else if off = Reg.EXP_MSLOT_CMD_GO.off then
    (if bitOf w 31 then
      (if bitOf w 30 then modelSlotClear s (bitsOf w 16 6) else modelSlotSet s (bitsOf w 16 6) (w % 64)) else s)
  else if off = Reg.SRV_EVAL_CTRL_GO.off then (if bitOf w 31 then s.keeper Reg.SRV_EVAL_STATUS_CODE srvEval else s)
  else if off = Reg.SRV_GB_CMD_GO.off then (if bitOf w 31 then gbCmd s (w % 4) else s)
  else if off = Reg.CHN_ROLL_CMD_GO.off then (if bitOf w 31 then rollCall s else s)
  else if off = Reg.CHN_EXP_SEL_GO.off then
    let s := if bitOf w 31 then exportCommit s (w % 16384) else s
    if bitOf w 30 then exportLoad s (w % 16384) else s
  else if off = Reg.KPR_UPD_CMD_GO.off then
    (if bitOf w 31 then
      (if w % 4 = 1 then updActivate s else if w % 4 = 2 then updAbort s else if w % 4 = 3 then updRefused s else s)
     else s)
  else if off = Reg.ERR_CTRL_CLEAR.off then (if bitOf w 0 then errClear s else s)
  else if off = Reg.ERR_IRQ_STATUS_ALERT.off then (if bitOf w 2 then alertClear s else s)
  else if off = Reg.SEC_MBX_CMD_GO.off then (if bitOf w 31 then mbxPlain s (w % 256) else s)
  else s

/-- A 4-byte write of a register that is not a pair. -/
def writeSingle (s : State) (off w : Nat) (r : RegRow) : State :=
  match enableBlock off with
  | some src => enableWrite s off w src r
  | none =>
    match writeSpecial s off w with
    | some t => t
    | none =>
      let s := writeFields s off w r
      if off < 0x1000000 then afterLow s off w else afterHigh s off w

/-- The pairs that hold a bus address whose bits [5:0] are ignored. -/
def lineAligned (off : Nat) : Bool :=
  off == 0x100018 || off == 0x200028 || off == 0x200048 || off == 0x1400018 || off == 0x1400048 ||
  (arrIdx 0xC01000 0x40 8 off).isSome

/-- A pair commits (R16): its holding register is cleared and the value acts. -/
def commitPair (s : State) (off v : Nat) (r : RegRow) : State :=
  let s := s.clearHold off
  match arrIdx 0x410000 8 32768 off with
  | some c => synSet s c v
  | none => match arrIdx 0x450000 8 32768 off with
  | some c => synAdd s c v
  | none => match arrIdx 0x490008 0x20 256 off with
  | some i => checkSlot i (writeFields s off v r)
  | none => writeFields s off (if lineAligned off then v / 64 * 64 else v) r

/-- A 4-byte write of a fully enabled word: a `_HI` half is held, a `_LO` half commits its pair (R16). -/
def writeWord (s : State) (off w : Nat) : State :=
  match wordReg off with
  | none => s
  | some (r, base) =>
    if r.pair then
      if base = off then commitPair s off (w + 2 ^ 32 * SMap.get halfBlank s.hold off) r
      else { s with hold := SMap.set halfBlank s.hold base w }
    else writeSingle s off w r

/-- An aligned 8-byte write with both words fully enabled. -/
def writeTwo (s : State) (off v : Nat) : State :=
  match barReg off with
  | some r => if r.pair then commitPair s off (v % 2 ^ 64) r
    else writeWord (writeWord s off (v % 2 ^ 32)) (off + 4) (v / 2 ^ 32 % 2 ^ 32)
  | none => writeWord (writeWord s off (v % 2 ^ 32)) (off + 4) (v / 2 ^ 32 % 2 ^ 32)

/-- A discarded write is recorded and reported through AER (R300). -/
def discardWrite (s : State) : State :=
  let s := ((s.rep Code.HIF_E_PARTIAL 0).raiseHif Reg.HIF_IRQ_STATUS_PARTIAL).emit .aer
  { s with chip := { s.chip with pci := { s.chip.pci with advisory := true } } }

/-- The byte enables of one word of an access: bit `i` of `be` enables byte `i` counted from the access's first byte. -/
def wordEnables (off n be word : Nat) : List Bool :=
  (List.range 4).map (fun i => decide (off ≤ word + i) && decide (word + i < off + n) && bitOf be (word + i - off))

/-- The words of which some byte is enabled. -/
def wordsOn (off n be : Nat) : List Nat := (touched off n).filter (fun w => (wordEnables off n be w).any id)

/-- Whether every touched word is fully enabled. -/
def wordsFull (off n be : Nat) : Bool := (wordsOn off n be).all (fun w => (wordEnables off n be w).all id)

/-- A BAR0 write of `n` bytes (R14). -/
def barWrite (s : State) (off n be v : Nat) : State :=
  let on := wordsOn off n be
  if on.all (fun w => (wordReg w).isNone) then s
  else if wordsFull off n be && ((n == 4 && off % 4 == 0) || (n == 8 && off % 8 == 0)) then
    match on with
    | [w] => writeWord s w (v / 2 ^ (8 * (w - off)) % 2 ^ 32)
    | _ => writeTwo s off v
  else discardWrite s

/-- REGISTER_WRITE (R14). -/
def execRegisterWrite (off size be value : Nat) (s : State) : Answer :=
  .next (s.host off (fun s => barWrite s off size be value))

/-- PAIR_HI_WRITE (R16): a 4-byte write of a pair's upper half. -/
def execPairHiWrite (off value : Nat) (s : State) : Answer :=
  .next (s.host off (fun s => barWrite s off 4 15 value))

/-- PAIR_LO_WRITE (R16): a 4-byte write of a pair's lower half. -/
def execPairLoWrite (off value : Nat) (s : State) : Answer :=
  .next (s.host off (fun s => barWrite s off 4 15 value))

/-- POISONED_WRITE (R300): a poisoned write to BAR0 or BAR2, and a BAR2 write of a size other than 4 or 8 bytes. A good
BAR2 write is a doorbell's own command. -/
def execPoisonedWrite (poisoned : Bool) (bar size : Nat) (s : State) : Answer :=
  .next (s.doorbell (fun s =>
    if (poisoned && (bar == 0 || bar == 2)) || (bar == 2 && size != 4 && size != 8) then discardWrite s else s))

/-! D3hot. -/

/-- D3HOT_ENTRY (R284): from here on requests of the part wait; tier-2 accesses fail and end their slots. -/
def execD3hotEntry (s : State) : Answer :=
  .next (if s.alive && s.chip.linkUp then { s with chip := { s.chip with d3hot := true } } else s)

/-- D0_RETURN (R284): what the part held is delivered in order. In the safe state nothing is sent (R414). -/
def execD0Return (s : State) : Answer :=
  .next (if s.alive && s.chip.d3hot then
      (let s := { s with chip := { s.chip with d3hot := false } }
       if s.safe then s else { s with out := s.out ++ s.heldOut, heldOut := [] })
    else s)

end Sys2Proof.Machine
end

