-- ==== Sys2Proof/Machine/Dispatch.lean ====
section
/-! DEFINITION. Which meaning each command has: one arm per constructor. -/

namespace Sys2Proof.Machine

def exec (i : Instr) (s : State) : Host.Outcome State Fault Refusal :=
  match i with
  | .coldRstAssert ns => Sys2Proof.Machine.execColdRstAssert ns s
  | .coldRstRelease straps => Sys2Proof.Machine.execColdRstRelease straps s
  | .perstAssert ns => Sys2Proof.Machine.execPerstAssert ns s
  | .perstRelease straps => Sys2Proof.Machine.execPerstRelease straps s
  | .hotReset => Sys2Proof.Machine.execHotReset s
  | .linkDisable => Sys2Proof.Machine.execLinkDisable s
  | .flr => Sys2Proof.Machine.execFlr s
  | .rootPllLock reads => Sys2Proof.Machine.execRootPllLock reads s
  | .pllLockTimeout => Sys2Proof.Machine.execPllLockTimeout s
  | .keeperReady => Sys2Proof.Machine.execKeeperReady s
  | .keeperReadyTimeout reads => Sys2Proof.Machine.execKeeperReadyTimeout reads s
  | .staggerWait => Sys2Proof.Machine.execStaggerWait s
  | .tileStart n pass => Sys2Proof.Machine.execTileStart n pass s
  | .cellarStart badCal bad scan lost factory => Sys2Proof.Machine.execCellarStart badCal bad scan lost factory s
  | .setCheck bad badShards => Sys2Proof.Machine.execSetCheck bad badShards s
  | .registerWrite off size be value => Sys2Proof.Machine.execRegisterWrite off size be value s
  | .pairLoRead off size => Sys2Proof.Machine.execPairLoRead off size s
  | .pairHiWrite off value => Sys2Proof.Machine.execPairHiWrite off value s
  | .pairLoWrite off value => Sys2Proof.Machine.execPairLoWrite off value s
  | .dataWindowRead off => Sys2Proof.Machine.execDataWindowRead off s
  | .poisonedWrite poisoned bar size => Sys2Proof.Machine.execPoisonedWrite poisoned bar size s
  | .d3hotEntry => Sys2Proof.Machine.execD3hotEntry s
  | .d0Return => Sys2Proof.Machine.execD0Return s
  | .rqDoorbell q tail => Sys2Proof.Machine.execRqDoorbell q tail s
  | .cqHeadDoorbell q head => Sys2Proof.Machine.execCqHeadDoorbell q head s
  | .generate q bytes prompt => Sys2Proof.Machine.execGenerate q bytes prompt s
  | .cancel q bytes => Sys2Proof.Machine.execCancel q bytes s
  | .signal q bytes => Sys2Proof.Machine.execSignal q bytes s
  | .signalComplete op => Sys2Proof.Machine.execSignalComplete op s
  | .wait q bytes => Sys2Proof.Machine.execWait q bytes s
  | .waitSatisfied op => Sys2Proof.Machine.execWaitSatisfied op s
  | .opcodeUnknown q bytes => Sys2Proof.Machine.execOpcodeUnknown q bytes s
  | .fetchError q => Sys2Proof.Machine.execFetchError q s
  | .coalesceTimeout q => Sys2Proof.Machine.execCoalesceTimeout q s
  | .tokenDelivery fault => Sys2Proof.Machine.execTokenDelivery fault s
  | .tokenRingConsReread op cons => Sys2Proof.Machine.execTokenRingConsReread op cons s
  | .rqCreate => Sys2Proof.Machine.execRqCreate s
  | .rqDelete => Sys2Proof.Machine.execRqDelete s
  | .rqDrained q => Sys2Proof.Machine.execRqDrained q s
  | .rqResume => Sys2Proof.Machine.execRqResume s
  | .rqCmdRefused => Sys2Proof.Machine.execRqCmdRefused s
  | .cqCreate => Sys2Proof.Machine.execCqCreate s
  | .cqDelete => Sys2Proof.Machine.execCqDelete s
  | .cqApply => Sys2Proof.Machine.execCqApply s
  | .cqCmdRefused => Sys2Proof.Machine.execCqCmdRefused s
  | .synCellSet c value => Sys2Proof.Machine.execSynCellSet c value s
  | .synAdd c value => Sys2Proof.Machine.execSynAdd c value s
  | .waitSlotArm w word => Sys2Proof.Machine.execWaitSlotArm w word s
  | .itnLoadGo slot list => Sys2Proof.Machine.execItnLoadGo slot list s
  | .headerArrived bytes => Sys2Proof.Machine.execHeaderArrived bytes s
  | .itnDmaDone bytes => Sys2Proof.Machine.execItnDmaDone bytes s
  | .validationDone => Sys2Proof.Machine.execValidationDone s
  | .itnLoadDmaError off => Sys2Proof.Machine.execItnLoadDmaError off s
  | .itnLoadAbort => Sys2Proof.Machine.execItnLoadAbort s
  | .slotFree slot => Sys2Proof.Machine.execSlotFree slot s
  | .slotSizeWrite size => Sys2Proof.Machine.execSlotSizeWrite size s
  | .itnBind slot ctx => Sys2Proof.Machine.execItnBind slot ctx s
  | .itnUnbind ctx => Sys2Proof.Machine.execItnUnbind ctx s
  | .bindOpRefused op ctx => Sys2Proof.Machine.execBindOpRefused op ctx s
  | .activation p ctx => Sys2Proof.Machine.execActivation p ctx s
  | .partitionStop p => Sys2Proof.Machine.execPartitionStop p s
  | .stepStart p tables inputs bad => Sys2Proof.Machine.execStepStart p tables inputs bad s
  | .sealBeat p => Sys2Proof.Machine.execSealBeat p s
  | .segmentOneStart p => Sys2Proof.Machine.execSegmentOneStart p s
  | .workArrives p => Sys2Proof.Machine.execWorkArrives p s
  | .phaseBoundary p tile seg start => Sys2Proof.Machine.execPhaseBoundary p tile seg start s
  | .arrayPass p entry rep half groups bad badLine => Sys2Proof.Machine.execArrayPass p entry rep half groups bad badLine s
  | .weightBufferLoad p entry rep bank line form badLine => Sys2Proof.Machine.execWeightBufferLoad p entry rep bank line form badLine s
  | .elementPipelineEntry p entry rep runs => Sys2Proof.Machine.execElementPipelineEntry p entry rep runs s
  | .tileDmaEntry p entry rep runs => Sys2Proof.Machine.execTileDmaEntry p entry rep runs s
  | .threadOverrun p tile thread zeros => Sys2Proof.Machine.execThreadOverrun p tile thread zeros s
  | .allowanceExpiry p slots zeros => Sys2Proof.Machine.execAllowanceExpiry p slots zeros s
  | .tierAccessFault p code slots zeros => Sys2Proof.Machine.execTierAccessFault p code slots zeros s
  | .scatterBegin p tile logits expTab recTab => Sys2Proof.Machine.execScatterBegin p tile logits expTab recTab s
  | .scatterOverrun p => Sys2Proof.Machine.execScatterOverrun p s
  | .bookingIssue p index fault => Sys2Proof.Machine.execBookingIssue p index fault s
  | .bookingFallback p => Sys2Proof.Machine.execBookingFallback p s
  | .bookingBufferParity => Sys2Proof.Machine.execBookingBufferParity s
  | .scatterComplete p => Sys2Proof.Machine.execScatterComplete p s
  | .saveDone p fault => Sys2Proof.Machine.execSaveDone p fault s
  | .restoreDone p fault => Sys2Proof.Machine.execRestoreDone p fault s
  | .urgentPreempt p ctx beats => Sys2Proof.Machine.execUrgentPreempt p ctx beats s
  | .urgentStop p beats => Sys2Proof.Machine.execUrgentStop p beats s
  | .stallEnd p beats => Sys2Proof.Machine.execStallEnd p beats s
  | .rampStep tile arr up => Sys2Proof.Machine.execRampStep tile arr up s
  | .lockstepError tile => Sys2Proof.Machine.execLockstepError tile s
  | .transparentTestBeat tile bank seg beat bad lost => Sys2Proof.Machine.execTransparentTestBeat tile bank seg beat bad lost s
  | .cellarPageRead p plane => Sys2Proof.Machine.execCellarPageRead p plane s
  | .cellarReadDone plane outcome => Sys2Proof.Machine.execCellarReadDone plane outcome s
  | .tier1Read ctx va n outcome pos => Sys2Proof.Machine.execTier1Read ctx va n outcome pos s
  | .programStart b outcome pos => Sys2Proof.Machine.execProgramStart b outcome pos s
  | .programDone b us10 ok => Sys2Proof.Machine.execProgramDone b us10 ok s
  | .programOverrun b => Sys2Proof.Machine.execProgramOverrun b s
  | .eraseStart b pos => Sys2Proof.Machine.execEraseStart b pos s
  | .eraseSuspend b => Sys2Proof.Machine.execEraseSuspend b s
  | .eraseDone b ok => Sys2Proof.Machine.execEraseDone b ok s
  | .eraseOverrun b => Sys2Proof.Machine.execEraseOverrun b s
  | .disturbCheckpoint => Sys2Proof.Machine.execDisturbCheckpoint s
  | .shutdownCheckpoint => Sys2Proof.Machine.execShutdownCheckpoint s
  | .refreshThreshold plane block => Sys2Proof.Machine.execRefreshThreshold plane block s
  | .forcedRelocation plane block => Sys2Proof.Machine.execForcedRelocation plane block s
  | .threshKWrite value => Sys2Proof.Machine.execThreshKWrite value s
  | .blockQuery plane phys block => Sys2Proof.Machine.execBlockQuery plane phys block s
  | .blockRebuild arr pair bad => Sys2Proof.Machine.execBlockRebuild arr pair bad s
  | .tableLoad fromSet set id slot epoch => Sys2Proof.Machine.execTableLoad fromSet set id slot epoch s
  | .tableLoadDone image fault => Sys2Proof.Machine.execTableLoadDone image fault s
  | .install set list head fault => Sys2Proof.Machine.execInstall set list head fault s
  | .installShard data digest fault => Sys2Proof.Machine.execInstallShard data digest fault s
  | .installAbort => Sys2Proof.Machine.execInstallAbort s
  | .setRemove set => Sys2Proof.Machine.execSetRemove set s
  | .recheckNow set bad => Sys2Proof.Machine.execRecheckNow set bad s
  | .instOpRefused set => Sys2Proof.Machine.execInstOpRefused set s
  | .periodicRecheck bad => Sys2Proof.Machine.execPeriodicRecheck bad s
  | .modelSlotSet m set => Sys2Proof.Machine.execModelSlotSet m set s
  | .modelSlotClear m => Sys2Proof.Machine.execModelSlotClear m s
  | .grant ctx => Sys2Proof.Machine.execGrant ctx s
  | .revoke ctx => Sys2Proof.Machine.execRevoke ctx s
  | .grantQuery ctx => Sys2Proof.Machine.execGrantQuery ctx s
  | .grantOpRefused ctx => Sys2Proof.Machine.execGrantOpRefused ctx s
  | .setrecWrite gib => Sys2Proof.Machine.execSetrecWrite gib s
  | .xltInvalidate ctx => Sys2Proof.Machine.execXltInvalidate ctx s
  | .bar4Access write off n bytes fail corr => Sys2Proof.Machine.execBar4Access write off n bytes fail corr s
  | .migrate tier ctx => Sys2Proof.Machine.execMigrate tier ctx s
  | .migratePage ext rdFail wrFail corr => Sys2Proof.Machine.execMigratePage ext rdFail wrFail corr s
  | .migrateAbort => Sys2Proof.Machine.execMigrateAbort s
  | .copyProdWrite c prod => Sys2Proof.Machine.execCopyProdWrite c prod s
  | .copyDescriptor c bytes ext rdFail wrFail corr => Sys2Proof.Machine.execCopyDescriptor c bytes ext rdFail wrFail corr s
  | .copyResume c bytes ext rdFail wrFail corr => Sys2Proof.Machine.execCopyResume c bytes ext rdFail wrFail corr s
  | .copySkip c => Sys2Proof.Machine.execCopySkip c s
  | .copyDisable c => Sys2Proof.Machine.execCopyDisable c s
  | .scrubGranule => Sys2Proof.Machine.execScrubGranule s
  | .attach op bad => Sys2Proof.Machine.execAttach op bad s
  | .kvBlockCopy op bad => Sys2Proof.Machine.execKvBlockCopy op bad s
  | .sequenceRelease ctx seq bad => Sys2Proof.Machine.execSequenceRelease ctx seq bad s
  | .releaseResume ctx => Sys2Proof.Machine.execReleaseResume ctx s
  | .publication op => Sys2Proof.Machine.execPublication op s
  | .eviction ctx => Sys2Proof.Machine.execEviction ctx s
  | .deadlineCheck => Sys2Proof.Machine.execDeadlineCheck s
  | .gbFlush => Sys2Proof.Machine.execGbFlush s
  | .gbEnable => Sys2Proof.Machine.execGbEnable s
  | .gbDisable => Sys2Proof.Machine.execGbDisable s
  | .gbOpRefused => Sys2Proof.Machine.execGbOpRefused s
  | .srvEval => Sys2Proof.Machine.execSrvEval s
  | .portEnable p => Sys2Proof.Machine.execPortEnable p s
  | .portRetrain p => Sys2Proof.Machine.execPortRetrain p s
  | .portTrained p peerPort ver least room => Sys2Proof.Machine.execPortTrained p peerPort ver least room s
  | .trainingRetry p => Sys2Proof.Machine.execTrainingRetry p s
  | .flitReceive p f ok corr uncorr => Sys2Proof.Machine.execFlitReceive p f ok corr uncorr s
  | .nak p seq => Sys2Proof.Machine.execNak p seq s
  | .replayTimeout p => Sys2Proof.Machine.execReplayTimeout p s
  | .linkLost p => Sys2Proof.Machine.execLinkLost p s
  | .unknownMessage p => Sys2Proof.Machine.execUnknownMessage p s
  | .rollCallGo => Sys2Proof.Machine.execRollCallGo s
  | .roll p => Sys2Proof.Machine.execRoll p s
  | .roster p => Sys2Proof.Machine.execRoster p s
  | .rollFail p => Sys2Proof.Machine.execRollFail p s
  | .rollTimeout => Sys2Proof.Machine.execRollTimeout s
  | .announce p => Sys2Proof.Machine.execAnnounce p s
  | .t3Read p bad => Sys2Proof.Machine.execT3Read p bad s
  | .t3Write p => Sys2Proof.Machine.execT3Write p s
  | .t3Fence p => Sys2Proof.Machine.execT3Fence p s
  | .t3Data p => Sys2Proof.Machine.execT3Data p s
  | .t3FenceAck p => Sys2Proof.Machine.execT3FenceAck p s
  | .chainFenceTimeout n => Sys2Proof.Machine.execChainFenceTimeout n s
  | .stepMessage p rows => Sys2Proof.Machine.execStepMessage p rows s
  | .tokens p => Sys2Proof.Machine.execTokens p s
  | .releaseMessage p => Sys2Proof.Machine.execReleaseMessage p s
  | .spanFree p => Sys2Proof.Machine.execSpanFree p s
  | .spanHalt p => Sys2Proof.Machine.execSpanHalt p s
  | .exportCommit entry => Sys2Proof.Machine.execExportCommit entry s
  | .exportLoad entry => Sys2Proof.Machine.execExportLoad entry s
  | .quoteMessage p => Sys2Proof.Machine.execQuoteMessage p s
  | .quoteReply p dmaOk => Sys2Proof.Machine.execQuoteReply p dmaOk s
  | .quotePeerTimeout => Sys2Proof.Machine.execQuotePeerTimeout s
  | .relay p sigOk norOk => Sys2Proof.Machine.execRelay p sigOk norOk s
  | .powerLoopTick sample ok => Sys2Proof.Machine.execPowerLoopTick sample ok s
  | .capWrite value => Sys2Proof.Machine.execCapWrite value s
  | .forceDivWrite p value => Sys2Proof.Machine.execForceDivWrite p value s
  | .dividerChange p ok => Sys2Proof.Machine.execDividerChange p ok s
  | .voltageSettled p ok => Sys2Proof.Machine.execVoltageSettled p ok s
  | .ageingSample low => Sys2Proof.Machine.execAgeingSample low s
  | .currentLimit => Sys2Proof.Machine.execCurrentLimit s
  | .thermalHwThrottle => Sys2Proof.Machine.execThermalHwThrottle s
  | .throttleRepeat reason => Sys2Proof.Machine.execThrottleRepeat reason s
  | .throttleClear reason hw => Sys2Proof.Machine.execThrottleClear reason hw s
  | .railFault => Sys2Proof.Machine.execRailFault s
  | .droopFire d => Sys2Proof.Machine.execDroopFire d s
  | .droopClear d => Sys2Proof.Machine.execDroopClear d s
  | .brakeAssert => Sys2Proof.Machine.execBrakeAssert s
  | .brakeRelease => Sys2Proof.Machine.execBrakeRelease s
  | .brakeGlitch => Sys2Proof.Machine.execBrakeGlitch s
  | .brakeStuck => Sys2Proof.Machine.execBrakeStuck s
  | .thermalTrip => Sys2Proof.Machine.execThermalTrip s
  | .tamper src wipeOk => Sys2Proof.Machine.execTamper src wipeOk s
  | .ctxOpen ctx => Sys2Proof.Machine.execCtxOpen ctx s
  | .ctxConfigure ctx record dmaOk => Sys2Proof.Machine.execCtxConfigure ctx record dmaOk s
  | .ctxEnd ctx => Sys2Proof.Machine.execCtxEnd ctx s
  | .quote scope ctx nonce dmaOk => Sys2Proof.Machine.execQuote scope ctx nonce dmaOk s
  | .quotePeer room nonce => Sys2Proof.Machine.execQuotePeer room nonce s
  | .getCert dmaOk => Sys2Proof.Machine.execGetCert dmaOk s
  | .enroll owner wipeOk => Sys2Proof.Machine.execEnroll owner wipeOk s
  | .service token sigOk dmaOk failAt => Sys2Proof.Machine.execService token sigOk dmaOk failAt s
  | .scrap arg failAt => Sys2Proof.Machine.execScrap arg failAt s
  | .setLimit index value => Sys2Proof.Machine.execSetLimit index value s
  | .genId dmaOk => Sys2Proof.Machine.execGenId dmaOk s
  | .provision cert sigOk dmaOk wipeOk => Sys2Proof.Machine.execProvision cert sigOk dmaOk wipeOk s
  | .mbxOpcodeUnknown op => Sys2Proof.Machine.execMbxOpcodeUnknown op s
  | .watchdogExpiry => Sys2Proof.Machine.execWatchdogExpiry s
  | .daybookMark value => Sys2Proof.Machine.execDaybookMark value s
  | .daybookFetch src first count dmaOk => Sys2Proof.Machine.execDaybookFetch src first count dmaOk s
  | .errorHandler fault => Sys2Proof.Machine.execErrorHandler fault s
  | .handlerTimeout => Sys2Proof.Machine.execHandlerTimeout s
  | .errClear => Sys2Proof.Machine.execErrClear s
  | .errRingConsWrite cons => Sys2Proof.Machine.execErrRingConsWrite cons s
  | .alertClear => Sys2Proof.Machine.execAlertClear s
  | .updateReceive list block sigOk norOk dmaOk => Sys2Proof.Machine.execUpdateReceive list block sigOk norOk dmaOk s
  | .updateBlock block norOk dmaOk => Sys2Proof.Machine.execUpdateBlock block norOk dmaOk s
  | .updateActivate => Sys2Proof.Machine.execUpdateActivate s
  | .updateAbort => Sys2Proof.Machine.execUpdateAbort s
  | .updOpRefused => Sys2Proof.Machine.execUpdOpRefused s
  | .drainComplete reads => Sys2Proof.Machine.execDrainComplete reads s
  | .drainTimeout => Sys2Proof.Machine.execDrainTimeout s
  | .imageCommit => Sys2Proof.Machine.execImageCommit s
  | .drvIfWrite version => Sys2Proof.Machine.execDrvIfWrite version s
  | .mctpControl vdm cmd eid => Sys2Proof.Machine.execMctpControl vdm cmd eid s
  | .pldmRequest vdm kind id => Sys2Proof.Machine.execPldmRequest vdm kind id s
  | .eraseSuspended b => Sys2Proof.Machine.execEraseSuspended b s
  | .powerLoss io => Sys2Proof.Machine.execPowerLoss io s
  | .laneFailure p => Sys2Proof.Machine.execLaneFailure p s
  | .flitSlot p step elems => Sys2Proof.Machine.execFlitSlot p step elems s
  | .pcieLinkTrained speed width cfg => Sys2Proof.Machine.execPcieLinkTrained speed width cfg s
  | .tapInstruction instr => Sys2Proof.Machine.execTapInstruction instr s

end Sys2Proof.Machine
end

