-- ==== Sys2Proof/Machine/Tick.lean ====
section
/-! DEFINITION. One K-cycle passes (log entry 2): the unit's timer, the durations of throttle reasons and Keeper's heartbeat
advance, and Keeper writes one waiting trace entry. -/

namespace Sys2Proof.Machine

/-- The µs counters of the active throttle reasons advance (R364). -/
def tickReasons (s : State) : State :=
  overList (List.range 6) (fun r t => if t.flag (thrActive r) then t.inc (Reg.PWR_DUR r) else t) s

/-- KPR_HEARTBEAT: milliseconds since Porter released Keeper; it holds while Keeper is halted (R414). -/
def tickHeartbeat (s : State) : State :=
  if (s.kpr.released || s.ready) && !s.safe then
    s.wr Reg.KPR_HEARTBEAT_MS ((s.timeKc - s.kpr.releaseKc) / 375000 % 2 ^ 32)
  else s

/-- One K-cycle. Nothing counts in a reset or after a thermal trip. -/
def State.tick (s : State) : State :=
  if s.alive then
    let us := s.timeUs
    let s := { s with timeKc := s.timeKc + 1 }
    let s := if s.timeUs = us then s else tickReasons s
    let s := tickHeartbeat s
    if s.ready && !s.safe then dayTrace s else s
  else s

end Sys2Proof.Machine
end

