-- ==== Sys2Proof/Safety.lean ====
section
/-! DEFINITION. What a well-kept state is, and what a command may leave unchanged: the terms in which claims are stated. The
stores are canonical, so that equal contents are equal data. -/

namespace Sys2Proof.Machine

/-- The memory of the part is in canonical form: byte addresses strictly rising, no listed byte 0. -/
def Memory.wf (m : List Host.Cell) : Bool := SMap.wf dramBlank m

/-- The register store is in canonical form: no listed field at what the map gives for reset. -/
def Registers.wf (m : SMap Nat) : Bool := SMap.wf regDefault m

/-- The stores of DRAM and of the registers are canonical. -/
def State.stores (s : State) : Prop := Memory.wf s.dram = true ∧ Registers.wf s.regs = true

/-- A state that a step has left without stopping. -/
def State.stepsTo (s t : State) : Prop := step s = .next t

/-- One byte of DRAM. -/
def State.byteAt (s : State) (a : Nat) : Byte := SMap.get dramBlank s.dram a

/-- Every byte of DRAM is as before. -/
def State.memKept (s t : State) : Prop := ∀ a, t.byteAt a = s.byteAt a

/-- Every byte of DRAM outside `n` bytes at `a` is as before. -/
def State.memKeptBut (s t : State) (a n : Nat) : Prop := ∀ b, (b < a ∨ a + n ≤ b) → t.byteAt b = s.byteAt b

/-- Every register field but those listed is as before. -/
def State.regsKept (s t : State) (fs : List Fld) : Prop :=
  ∀ g : Fld, (∀ f ∈ fs, f.key ≠ g.key) → t.rd g = s.rd g

/-- Nothing but register fields has changed. -/
def State.onlyRegs (s t : State) : Prop := t = { s with regs := t.regs }

/-- Nothing but register fields and what the part sends has changed. -/
def State.onlyRegsSent (s t : State) : Prop := t = { s with regs := t.regs, out := t.out, heldOut := t.heldOut }

/-- The vectors of the 11 blocks and the 8 copy channels are numbers of the vector table: HIF_IVEC_VECTOR is 11 bits
wide. -/
def State.vectorsFit (s : State) : Prop := ∀ i, i < 19 → s.rd (Reg.HIF_IVEC_VECTOR i) < 2048

/-- What every reset leaves of the registers: a field of a class in `gone` reads its reset value, a field of another class
as before; the fields named are the mirrors that the reset writes anew, the maximum dividers of tiles that failed their
start since COLD_RST_N, and the model-slot pointers, whose pending swap takes effect. -/
def State.resetsTo (s t : State) (gone : List ResetCls) : Prop :=
  ∀ g : Fld, (∀ f ∈ [Reg.PWR_CAPS_CEIL_W, Reg.PWR_CAPS_TRIP_C, Reg.PWR_CAP_CTRL_CAP_W, Reg.PWR_STATUS_BRAKE_IN,
      Reg.CHN_STATUS_HEAD_STRAP], f.key ≠ g.key) →
    (∀ m, m < 64 → (Reg.EXP_MSLOT_PENDING m).key ≠ g.key ∧ (Reg.EXP_MSLOT_SET m).key ≠ g.key ∧
      (Reg.EXP_MSLOT_NEXT_SET m).key ≠ g.key) →
    (∀ n ∈ t.chip.badTiles, (Reg.PWR_TILE_MAXDIV n).key ≠ g.key ∧ (Reg.TIL_STATUS_MAXDIV n).key ≠ g.key) →
    t.rd g = if regClass g.key ∈ gone then regDefault g.key else s.rd g

/-- The commands that act on a part whose clocks a thermal trip has stopped: the reset pins, a loss of power, the TAP,
and a trip again. -/
def clockless : Instr → Bool
  | .coldRstAssert .. | .coldRstRelease .. | .perstAssert .. | .perstRelease .. | .powerLoss .. | .tapInstruction ..
  | .thermalTrip .. => true
  | _ => false

/-- A command that stores its fields, shows that Keeper is not ready in `code`, and does nothing else (R457). -/
def State.notReady (s : State) (o : Answer) (code : Fld) : Prop :=
  ∃ t, o = .next t ∧ t.rd code = Code.KPR_E_NOT_READY ∧ s.onlyRegs t

end Sys2Proof.Machine
end

