-- ==== Sys2Proof/Certificates/Slice0/Obligations.lean ====
section
/-! DEFINITION. The statements for the provers: what each command does, what it leaves alone, and what holds of every step.
A completion statement says that the command answers a next state and what that state holds, under conditions on the
state and the operands alone; its frame says what is as before. -/

open Sys2Proof Sys2Proof.Machine

/-- For every command c and state s, a step of s with c at the front of its queue is exec of c on s with the queue's
rest; a step on an empty queue is one K-cycle (the queue and the idle step are the model's choice, log entries 1 and
2). -/
def Obligations.StepRunsFront : Prop :=
  (∀ (c : Instr) (rest : List Instr) (s : State),
    step { s with pending := c :: rest } = exec c { s with pending := rest }) ∧
  (∀ s : State, s.pending = [] → step s = .next s.tick)

/-- With no wait slot armed, SYN_CELL_SET stores the value in its cell and SYN_ADD adds to its cell, saturating at 2^64
− 1; the high half held for the pair is gone and nothing else changes. WAIT_SLOT_ARM of a word that arms slot w on a cell below VALUE stores ARMED, VECTOR and
CELL; on a cell that already meets VALUE, with MSI-X enabled, neither the function nor the vector masked and the link
in D0, the slot fires at once: FIRED
set, ARMED cleared, the vector's message sent. -/
def Obligations.SyncCellsAndWaitSlots : Prop :=
  (∀ (c v : Nat) (s : State), c < 32768 → s.hostOk (Reg.SYN_CELL c).off = true →
    (∀ w, w < 256 → s.flag (Reg.SYN_W_CTRL_ARMED w) = false) →
    ∃ t, exec (.synCellSet c v) s = .next t ∧ t.rd (Reg.SYN_CELL c) = v % 2 ^ 64 ∧
      SMap.get (fun _ => 0) t.hold (Reg.SYN_CELL c).off = 0 ∧ s.regsKept t [Reg.SYN_CELL c] ∧
      t = { s with regs := t.regs, hold := t.hold } ∧ s.memKept t) ∧
  (∀ (c v : Nat) (s : State), c < 32768 → s.hostOk (Reg.SYN_ADD c).off = true →
    (∀ w, w < 256 → s.flag (Reg.SYN_W_CTRL_ARMED w) = false) →
    ∃ t, exec (.synAdd c v) s = .next t ∧ t.rd (Reg.SYN_CELL c) = min (s.rd (Reg.SYN_CELL c) + v) (2 ^ 64 - 1) ∧
      SMap.get (fun _ => 0) t.hold (Reg.SYN_ADD c).off = 0 ∧ s.regsKept t [Reg.SYN_CELL c] ∧
      t = { s with regs := t.regs, hold := t.hold } ∧ s.memKept t) ∧
  (∀ (w word : Nat) (s : State), w < 256 → s.hostOk (Reg.SYN_W_CTRL_ARMED w).off = true → bitOf word 31 = true →
    s.rd (Reg.SYN_CELL (bitsOf word 0 15)) < s.rd (Reg.SYN_W_VALUE w) →
    ∃ t, exec (.waitSlotArm w word) s = .next t ∧ t.rd (Reg.SYN_W_CTRL_ARMED w) = 1 ∧
      t.rd (Reg.SYN_W_CTRL_VECTOR w) = bitsOf word 16 11 ∧ t.rd (Reg.SYN_W_CTRL_CELL w) = bitsOf word 0 15 ∧
      s.regsKept t [Reg.SYN_W_CTRL_ARMED w, Reg.SYN_W_CTRL_FIRED w, Reg.SYN_W_CTRL_VECTOR w,
        Reg.SYN_W_CTRL_CELL w] ∧ s.onlyRegs t) ∧
  (∀ (w word : Nat) (s : State), w < 256 → s.hostOk (Reg.SYN_W_CTRL_ARMED w).off = true → bitOf word 31 = true →
    s.rd (Reg.SYN_W_VALUE w) ≤ s.rd (Reg.SYN_CELL (bitsOf word 0 15)) → s.safe = false →
    s.msixOpen (bitsOf word 16 11) = true →
    ∃ t, exec (.waitSlotArm w word) s = .next t ∧ t.rd (Reg.SYN_W_CTRL_ARMED w) = 0 ∧
      t.rd (Reg.SYN_W_CTRL_FIRED w) = 1 ∧
      t.out = s.out ++ [.msix (bitsOf word 16 11)
        (s.rd (Reg.MSIX_ADDR_LO_ADDR (bitsOf word 16 11)) + 2 ^ 32 * s.rd (Reg.MSIX_ADDR_HI_ADDR (bitsOf word 16 11)))
        (s.rd (Reg.MSIX_DATA_DATA (bitsOf word 16 11)))] ∧
      s.onlyRegsSent t ∧ s.memKept t)

/-- A doorbell that reaches an ENABLED or WAITING request queue with a new TAIL that leaves no more than the ring's
size between HEAD and TAIL takes TAIL and the doorbell's time in HIF_TIME's microseconds, as K-cycles, and nothing else changes; one equal to TAIL has no
effect; one to a queue neither ENABLED nor WAITING is counted in HIF_DB_DROPPED. A head doorbell that stays within the
records written, on a queue that holds no record back, advances the head. -/
def Obligations.Doorbells : Prop :=
  (∀ (q tail : Nat) (x : RqConf) (s : State), s.barOk = true → s.rq q = some x → tail < 2 ^ 32 →
    (s.rd (Reg.HIF_RQ_STATUS_STATE q) = 1 ∨ s.rd (Reg.HIF_RQ_STATUS_STATE q) = 4) →
    tail ≠ s.rd (Reg.HIF_RQ_TAIL_TAIL q) →
    (tail + 2 ^ 32 - s.rd (Reg.HIF_RQ_HEAD_HEAD q)) % 2 ^ 32 ≤ 2 ^ x.sizeLog2 →
    ∃ t, exec (.rqDoorbell q tail) s = .next t ∧ t.rd (Reg.HIF_RQ_TAIL_TAIL q) = tail ∧
      t.rq q = some { x with rung := x.rung ++ [(tail, s.timeUs * 375)] } ∧
      s.regsKept t [Reg.HIF_RQ_TAIL_TAIL q] ∧ t = { s with regs := t.regs, rqs := t.rqs } ∧
      (∀ r, r ≠ q → t.rq r = s.rq r)) ∧
  (∀ (q tail : Nat) (x : RqConf) (s : State), s.barOk = true → s.rq q = some x → tail < 2 ^ 32 →
    (s.rd (Reg.HIF_RQ_STATUS_STATE q) = 1 ∨ s.rd (Reg.HIF_RQ_STATUS_STATE q) = 4) →
    tail = s.rd (Reg.HIF_RQ_TAIL_TAIL q) → exec (.rqDoorbell q tail) s = .next s) ∧
  (∀ (q tail : Nat) (s : State), s.barOk = true → s.rq q = none →
    s.flag Reg.HIF_IRQ_STATUS_DB_DROP = true →
    ∃ t, exec (.rqDoorbell q tail) s = .next t ∧
      t.rd Reg.HIF_DB_DROPPED = (s.rd Reg.HIF_DB_DROPPED + 1) % 2 ^ Reg.HIF_DB_DROPPED.width ∧
      s.regsKept t [Reg.HIF_DB_DROPPED] ∧ s.onlyRegs t) ∧
  (∀ (c head : Nat) (x : CqConf) (s : State), s.barOk = true → s.cq c = some x → x.held = [] →
    x.head ≤ head → head ≤ x.written → head < x.head + 2 ^ 32 →
    ∃ t, exec (.cqHeadDoorbell c head) s = .next t ∧ t.cq c = some { x with head := head } ∧
      t = { s with cqs := t.cqs } ∧ (∀ d, d ≠ c → t.cq d = s.cq d))

/-- With Keeper ready: HIF_CQ_CMD OP 0 on a queue that is not enabled with SIZE_LOG2 from 4 to 16 enables it with what
HIF_CQ_BASE and HIF_CQ_CFG hold; OP 1 on an enabled queue that no request queue reports into disables it; OP 2 applies
VECTOR, IRQ_EN, COAL_COUNT and COAL_US and keeps base and size; OP 3 is refused with HIF_E_QUEUE. HIF_RQ_CMD OP 0 on
a DISABLED queue with a good size, an enabled completion queue and a registered context enables it with HEAD = TAIL =
0; OP 1 on a queue with descriptors in flight puts it in DRAINING, on a queue without in DISABLED; OP 2 on a halted queue enables
it again, or leaves it WAITING where its WAIT still waits (which queues a resume refuses is the model's choice, log entry 21); OP 3 is refused with HIF_E_QUEUE. CODE
reads 0, or the code of the refusal. -/
def Obligations.QueueCommands : Prop :=
  ∀ s : State, s.ready = true →
  (∀ c, c = s.rd Reg.HIF_CQ_SEL_QUEUE → s.hostOk Reg.HIF_CQ_CMD_OP.off = true → c < 4096 →
    (s.cq c = none → 4 ≤ s.rd (Reg.HIF_CQ_CFG_SIZE_LOG2 c) → s.rd (Reg.HIF_CQ_CFG_SIZE_LOG2 c) ≤ 16 →
      ∃ t, exec .cqCreate s = .next t ∧ t.rd (Reg.HIF_CQ_STATUS_ENABLED c) = 1 ∧ t.rd (Reg.HIF_CQ_STATUS_CODE c) = 0 ∧
        t.cq c = some { base := s.rd (Reg.HIF_CQ_BASE c) / 64 * 64, sizeLog2 := s.rd (Reg.HIF_CQ_CFG_SIZE_LOG2 c),
                        vector := s.rd (Reg.HIF_CQ_CFG_VECTOR c), irqEn := s.flag (Reg.HIF_CQ_CFG_IRQ_EN c),
                        coalCount := s.rd (Reg.HIF_CQ_CFG_COAL_COUNT c), coalUs := s.rd (Reg.HIF_CQ_CFG_COAL_US c) } ∧
        t = { s with regs := t.regs, cqs := t.cqs } ∧ (∀ d, d ≠ c → t.cq d = s.cq d)) ∧
    (∀ x, s.cq c = some x → cqUsed s c = false →
      ∃ t, exec .cqDelete s = .next t ∧ t.rd (Reg.HIF_CQ_STATUS_ENABLED c) = 0 ∧ t.rd (Reg.HIF_CQ_STATUS_CODE c) = 0 ∧
        t.cq c = none ∧ t = { s with regs := t.regs, cqs := t.cqs } ∧ (∀ d, d ≠ c → t.cq d = s.cq d)) ∧
    (∀ x, s.cq c = some x →
      ∃ t, exec .cqApply s = .next t ∧ t.rd (Reg.HIF_CQ_STATUS_CODE c) = 0 ∧
        t.cq c = some { x with
                        vector := s.rd (Reg.HIF_CQ_CFG_VECTOR c), irqEn := s.flag (Reg.HIF_CQ_CFG_IRQ_EN c),
                        coalCount := s.rd (Reg.HIF_CQ_CFG_COAL_COUNT c), coalUs := s.rd (Reg.HIF_CQ_CFG_COAL_US c) } ∧
        t = { s with regs := t.regs, cqs := t.cqs } ∧ (∀ d, d ≠ c → t.cq d = s.cq d)) ∧
    (∃ t, exec .cqCmdRefused s = .next t ∧ t.rd (Reg.HIF_CQ_STATUS_CODE c) = Code.HIF_E_QUEUE ∧
      s.regsKept t [Reg.HIF_CQ_CMD_OP, Reg.HIF_CQ_STATUS_CODE c] ∧ s.onlyRegs t)) ∧
  (∀ q, q = s.rd Reg.HIF_RQ_SEL_QUEUE → s.hostOk Reg.HIF_RQ_CMD_OP.off = true → q < 65536 →
    (s.rd (Reg.HIF_RQ_STATUS_STATE q) = 0 → 4 ≤ s.rd (Reg.HIF_RQ_CFG_SIZE_LOG2 q) →
      s.rd (Reg.HIF_RQ_CFG_SIZE_LOG2 q) ≤ 16 → (s.cq (s.rd (Reg.HIF_RQ_CFG_CQ q))).isSome = true →
      (s.rd (Reg.SEC_CTX_STATE (s.rd (Reg.HIF_RQ_CFG_CONTEXT q))) = 1 ∨
        s.rd (Reg.SEC_CTX_STATE (s.rd (Reg.HIF_RQ_CFG_CONTEXT q))) = 2) →
      ∃ t, exec .rqCreate s = .next t ∧ t.rd (Reg.HIF_RQ_STATUS_STATE q) = 1 ∧ t.rd (Reg.HIF_RQ_HEAD_HEAD q) = 0 ∧
        t.rd (Reg.HIF_RQ_TAIL_TAIL q) = 0 ∧ t.rd (Reg.HIF_RQ_STATUS_CODE q) = 0 ∧
        t.rq q = some { base := s.rd (Reg.HIF_RQ_BASE q) / 64 * 64, sizeLog2 := s.rd (Reg.HIF_RQ_CFG_SIZE_LOG2 q),
                        ctx := s.rd (Reg.HIF_RQ_CFG_CONTEXT q), cq := s.rd (Reg.HIF_RQ_CFG_CQ q) } ∧
        t = { s with regs := t.regs, rqs := t.rqs } ∧ (∀ r, r ≠ q → t.rq r = s.rq r)) ∧
    (s.rd (Reg.HIF_RQ_STATUS_STATE q) ≠ 0 → rqBusy s q = true →
      ∃ t, exec .rqDelete s = .next t ∧ t.rd (Reg.HIF_RQ_STATUS_STATE q) = 3 ∧ t.rd (Reg.HIF_RQ_STATUS_CODE q) = 0 ∧
        s.onlyRegs t) ∧
    (s.rd (Reg.HIF_RQ_STATUS_STATE q) ≠ 0 → rqBusy s q = false →
      ∃ t, exec .rqDelete s = .next t ∧ t.rd (Reg.HIF_RQ_STATUS_STATE q) = 0 ∧ t.rd (Reg.HIF_RQ_STATUS_CODE q) = 0 ∧
        t.rq q = none) ∧
    (∀ x, s.rq q = some x → s.rd (Reg.HIF_RQ_STATUS_STATE q) = 2 →
      (s.rd (Reg.SEC_CTX_STATE x.ctx) = 1 ∨ s.rd (Reg.SEC_CTX_STATE x.ctx) = 2) →
      ∃ t, exec .rqResume s = .next t ∧ t.rd (Reg.HIF_RQ_STATUS_STATE q) = (if rqWaits s q then 4 else 1) ∧
        t.rd (Reg.HIF_RQ_HEAD_HEAD q) = s.rd (Reg.HIF_RQ_HEAD_HEAD q) ∧ s.onlyRegs t) ∧
    (∃ t, exec .rqCmdRefused s = .next t ∧ t.rd (Reg.HIF_RQ_STATUS_CODE q) = Code.HIF_E_QUEUE ∧
      s.regsKept t [Reg.HIF_RQ_CMD_OP, Reg.HIF_RQ_STATUS_CODE q] ∧ s.onlyRegs t))

/-- A fetch from an ENABLED queue with a rung descriptor takes the 128 bytes at HEAD: HEAD advances by one modulo 2^32, the
fetch is counted, and an operation with the descriptor's fields begins. An unknown OPCODE and a descriptor out of range
end it with HIF_E_OPCODE and HIF_E_FORMAT. A GENERATE of a context that no partition runs, with its deadline ahead, waits;
one of a running context goes through lookup and admission. A SIGNAL waits for the operations ahead of it; a WAIT puts its
queue in WAITING. A CANCEL without a target ends with HIF_E_NO_TARGET; one whose target is in a step marks it. A failed
fetch halts the queue with HIF_E_FETCH. -/
def Obligations.DescriptorFetch : Prop :=
  ∀ (q : Nat) (bytes prompt : List Byte) (x : RqConf) (s : State), q < 65536 → s.live = true → s.rq q = some x →
    fetchReady s q = true →
  ((takeDesc s q x bytes prompt).1.desc = parseDesc bytes ∧ (takeDesc s q x bytes prompt).1.rq = q ∧
    (takeDesc s q x bytes prompt).1.ctx = x.ctx ∧ (takeDesc s q x bytes prompt).1.id = s.nextOp ∧
    (takeDesc s q x bytes prompt).1.fetchIdx = s.rd (Reg.HIF_RQ_HEAD_HEAD q) ∧
    (takeDesc s q x bytes prompt).2.ops = s.ops ++ [(takeDesc s q x bytes prompt).1] ∧
    (takeDesc s q x bytes prompt).2.rd (Reg.HIF_RQ_HEAD_HEAD q) = (s.rd (Reg.HIF_RQ_HEAD_HEAD q) + 1) % 2 ^ 32 ∧
    s.regsKept (takeDesc s q x bytes prompt).2 [Reg.HIF_RQ_HEAD_HEAD q, Reg.HIF_FETCHED] ∧
    s.memKept (takeDesc s q x bytes prompt).2) ∧
  ((parseDesc bytes).opcode = 0 ∨ 4 < (parseDesc bytes).opcode →
    exec (.opcodeUnknown q bytes) s = .next (endOp (takeDesc s q x bytes []).2 s.nextOp Code.HIF_E_OPCODE)) ∧
  ((parseDesc bytes).opcode = 1 → generateOk bytes (parseDesc bytes) = false →
    exec (.generate q bytes prompt) s = .next (endOp (takeDesc s q x bytes prompt).2 s.nextOp Code.HIF_E_FORMAT)) ∧
  ((parseDesc bytes).opcode = 1 → generateOk bytes (parseDesc bytes) = true →
    (decodePart s x.ctx = none → runPart s x.ctx = none →
      instantPassed (takeDesc s q x bytes prompt).1 s.timeKc = false →
      exec (.generate q bytes prompt) s = .next (takeDesc s q x bytes prompt).2) ∧
    (∀ p, decodePart s x.ctx = some p →
      exec (.generate q bytes prompt) s = .next (admitOp (takeDesc s q x bytes prompt).2 p
        { (takeDesc s q x bytes prompt).1 with
          attach := lookup (takeDesc s q x bytes prompt).2 (takeDesc s q x bytes prompt).1 }))) ∧
  ((parseDesc bytes).opcode = 3 → shortOk bytes (parseDesc bytes) = true →
    exec (.signal q bytes) s =
      .next ((takeDesc s q x bytes []).2.updOp s.nextOp (fun o => { o with phase := .signal }))) ∧
  ((parseDesc bytes).opcode = 4 → shortOk bytes (parseDesc bytes) = true →
    exec (.wait q bytes) s = .next (((takeDesc s q x bytes []).2.updOp s.nextOp (fun o => { o with
      phase := .waitCell })).wr (Reg.HIF_RQ_STATUS_STATE q) 4)) ∧
  ((parseDesc bytes).opcode = 2 → shortOk bytes (parseDesc bytes) = true →
    (cancelTarget (takeDesc s q x bytes []).2 (takeDesc s q x bytes []).1 = none →
      exec (.cancel q bytes) s = .next (endOp (takeDesc s q x bytes []).2 s.nextOp Code.HIF_E_NO_TARGET)) ∧
    (∀ y p, cancelTarget (takeDesc s q x bytes []).2 (takeDesc s q x bytes []).1 = some y → y.inStep = some p →
      y.stop = none →
      exec (.cancel q bytes) s = .next (endOp ((takeDesc s q x bytes []).2.updOp y.id (fun _ => { y with
        stop := some (s.timeKc, Code.HIF_E_CANCELLED) })) s.nextOp 0))) ∧
  exec (.fetchError q) s = .next (rqHalt (s.inc Reg.HIF_FETCH_ERR) q Code.HIF_E_FETCH)

/-- A queue that halts shows HALTED with the code, and sets RQ_HALT; while RQ_HALT was 0, HIF_HALT_FIRST names it. HEAD and
TAIL stay, and so do the operations, the partitions and memory. -/
def Obligations.QueueHalts : Prop :=
  ∀ (q code : Nat) (s : State), q < 65536 → code < 2 ^ 16 → s.vectorsFit →
    (rqHalt s q code).rd (Reg.HIF_RQ_STATUS_STATE q) = 2 ∧ (rqHalt s q code).rd (Reg.HIF_RQ_STATUS_CODE q) = code ∧
    (rqHalt s q code).rd Reg.HIF_IRQ_STATUS_RQ_HALT = 1 ∧
    (s.rd Reg.HIF_IRQ_STATUS_RQ_HALT ≠ 1 → (rqHalt s q code).rd Reg.HIF_HALT_FIRST_QUEUE = q) ∧
    (s.rd Reg.HIF_IRQ_STATUS_RQ_HALT = 1 →
      (rqHalt s q code).rd Reg.HIF_HALT_FIRST_QUEUE = s.rd Reg.HIF_HALT_FIRST_QUEUE) ∧
    (rqHalt s q code).rd (Reg.HIF_RQ_HEAD_HEAD q) = s.rd (Reg.HIF_RQ_HEAD_HEAD q) ∧
    (rqHalt s q code).rd (Reg.HIF_RQ_TAIL_TAIL q) = s.rd (Reg.HIF_RQ_TAIL_TAIL q) ∧
    s.memKept (rqHalt s q code) ∧ (rqHalt s q code).ops = s.ops ∧ (rqHalt s q code).part0 = s.part0 ∧
    (rqHalt s q code).part1 = s.part1

/-- A SIGNAL with no earlier operation of its queue in flight adds to its cell and ends with code 0. A WAIT whose cell has
reached its value ends with code 0 and its queue fetches again. A DRAINING queue without operations becomes DISABLED. A
completion queue with unreported records whose time limit passes sends its message, with MSI-X enabled and neither the
function nor the vector masked. Delivery takes the oldest staged token, its ring not full: its entry in the ring, then the new PROD, and the token count; a fault of the copy leaves it staged. A CONS read
again replaces the operation's copy, outside D3hot. -/
def Obligations.SignalsAndDelivery : Prop :=
  (∀ (n : Nat) (o : Operation) (s : State), s.live = true → s.op n = some o → o.phase = .signal →
    s.ops.any (fun x => x.rq == o.rq && decide (x.id < o.id)) = false →
    exec (.signalComplete n) s = .next (endOp (synAdd s o.desc.syncCell o.desc.syncValue) o.id 0)) ∧
  (∀ (n : Nat) (o : Operation) (s : State), s.live = true → s.op n = some o → o.phase = .waitCell →
    o.desc.syncValue ≤ s.rd (Reg.SYN_CELL o.desc.syncCell) → s.rd (Reg.HIF_RQ_STATUS_STATE o.rq) = 4 →
    exec (.waitSatisfied n) s = .next (endOp (s.wr (Reg.HIF_RQ_STATUS_STATE o.rq) 1) o.id 0)) ∧
  (∀ (q : Nat) (s : State), q < 65536 → s.live = true → s.rd (Reg.HIF_RQ_STATUS_STATE q) = 3 →
    rqBusy s q = false →
    ∃ t, exec (.rqDrained q) s = .next t ∧ t.rd (Reg.HIF_RQ_STATUS_STATE q) = 0 ∧ t.rq q = none ∧
      s.regsKept t [Reg.HIF_RQ_STATUS_STATE q] ∧ t = { s with regs := t.regs, rqs := t.rqs } ∧
      (∀ r, r ≠ q → t.rq r = s.rq r)) ∧
  (∀ (c : Nat) (x : CqConf) (s : State), c < 4096 → s.live = true → s.cq c = some x → x.irqEn = true → x.coalUs ≠ 0 →
    x.unreported ≠ 0 → s.msixOpen x.vector = true → s.chip.d3hot = false →
    ∃ t, exec (.coalesceTimeout c) s = .next t ∧ t.cq c = some { x with unreported := 0 } ∧
      t.out = s.out ++ [.msix x.vector
        (s.rd (Reg.MSIX_ADDR_LO_ADDR x.vector) + 2 ^ 32 * s.rd (Reg.MSIX_ADDR_HI_ADDR x.vector))
        (s.rd (Reg.MSIX_DATA_DATA x.vector))] ∧
      t = { s with cqs := t.cqs, out := t.out } ∧ (∀ d, d ≠ c → t.cq d = s.cq d)) ∧
  (∀ (k : StagedToken) (rest : List StagedToken) (o : Operation) (s : State), s.live = true → s.staged = k :: rest →
    s.op k.op = some o → ringFull o = false → o.phase ≠ .ending → s.chip.d3hot = false →
    ∃ t, exec (.tokenDelivery false) s = .next t ∧ t.staged = rest ∧
      t.out = s.out ++ [.hostWrite (o.desc.tringBase + 64 + 8 * (o.delivered % 2 ^ o.desc.tringLog2))
          (leBytes 4 k.token ++ leBytes 4 k.pos) false,
        .hostWrite o.desc.tringBase (leBytes 4 (o.delivered + 1)) false] ∧
      t.rd Reg.HIF_TOKENS = (s.rd Reg.HIF_TOKENS + 1) % 2 ^ Reg.HIF_TOKENS.width ∧ s.regsKept t [Reg.HIF_TOKENS] ∧
      t = { s with regs := t.regs, staged := t.staged, out := t.out, ops := t.ops }) ∧
  (∀ s : State, exec (.tokenDelivery true) s = .next s) ∧
  (∀ (n cons : Nat) (s : State), s.live = true → s.chip.d3hot = false →
    exec (.tokenRingConsReread n cons) s = .next (s.updOp n (fun o => { o with ringCons := cons % 2 ^ 32 })))

/-- The end of an operation without staged tokens, in a completion queue that holds no record back and has room, writes its
32-byte record at the ring's next place, with PHASE 1 on the first pass over the ring and its complement on the next,
counts it and takes the operation out; with the queue's interrupt off no message follows. With the ring full the record
is held back. -/
def Obligations.CompletionRecords : Prop :=
  (∀ (o : Operation) (ph : Bool) (s : State), (recordOf s o ph).length = 32) ∧
  (∀ (n : Nat) (o : Operation) (x : CqConf) (s : State), s.op n = some o → tokensDue s n = false → o.noRecord = false →
    s.cq o.cq = some x → x.held = [] → x.written - x.head < 2 ^ x.sizeLog2 → x.irqEn = false → o.desc.opcode ≠ 1 →
    s.live = true → s.chip.d3hot = false →
    (complete s n).out = s.out ++ [.hostWrite (x.base + 32 * (x.written % 2 ^ x.sizeLog2))
      (recordOf s o (x.written / 2 ^ x.sizeLog2 % 2 == 0)) true] ∧
    (complete s n).op n = none ∧
    (complete s n).cq o.cq = some { x with written := x.written + 1, unreported := x.unreported + 1 } ∧
    s.regsKept (complete s n) [Reg.HIF_COMPLETIONS] ∧ s.memKept (complete s n)) ∧
  (∀ (n : Nat) (o : Operation) (x : CqConf) (s : State), s.op n = some o → tokensDue s n = false → o.noRecord = false →
    o.cq < 4096 → s.cq o.cq = some x → x.held ≠ [] → x.held.length < 16383 →
    (complete s n).out = s.out ∧ (complete s n).ops = s.ops ∧
    (complete s n).cq o.cq = some { x with held := x.held ++ [o.id] } ∧
    (complete s n).rd (Reg.HIF_CQ_STATUS_HELD o.cq) = x.held.length + 1 ∧
    s.regsKept (complete s n) [Reg.HIF_CQ_STATUS_HELD o.cq, Reg.HIF_CQ_HELD] ∧ s.memKept (complete s n))

/-- A low pulse on COLD_RST_N shorter than 1 µs is ignored. One of 2 µs or longer resets the part: DRAM, queues, operations,
partitions, itinerary slots and contexts are gone, every register field but the journalled ones reads its reset value,
and the pin holds the part. PERST#, a hot reset and a link disable do the same but keep every register that only
COLD_RST_N resets, the timer, and 255 as the maximum divider of a tile that failed its start. A block whose program or
erase the reset meets is INTERRUPTED; the Cellar's other blocks stay as they were. With the brake released, as here, no throttle reason follows. A release lets the pin
go and takes the straps; the log entry on reset says what the model keeps beside the registers. -/
def Obligations.ResetPins : Prop :=
  (∀ (ns : Nat) (s : State), ns < 1000 → exec (.coldRstAssert ns) s = .next s ∧ exec (.perstAssert ns) s = .next s) ∧
  (∀ (ns : Nat) (s : State), 2000 ≤ ns → s.rd Reg.PWR_STATUS_BRAKE_IN = 0 →
    ∃ t, exec (.coldRstAssert ns) s = .next t ∧ t.chip.coldLow = true ∧ t.dram = [] ∧ t.ops = [] ∧ t.rqs = [] ∧
      t.cqs = [] ∧ t.part0 = {} ∧ t.part1 = {} ∧ t.images = [] ∧ t.ctxs = [] ∧ t.timeKc = 0 ∧
      t.kpr.slot0 = s.kpr.slot0 ∧
      (∀ n, n < 64 → t.set n = { s.set n with passKc := 0 }) ∧
      ((∀ b, b < 64 → s.bankOp b = none) → t.cel.blocks = s.cel.blocks) ∧
      (∀ b o, b < 64 → s.bankOp b = some o → (s.pblock o.plane o.block).use ≠ 5 →
        (t.pblock o.plane o.block).use = 6) ∧ t.chip.badTiles = [] ∧
      s.resetsTo t [.warm, .cold]) ∧
  (∀ (ns : Nat) (s : State), 2000 ≤ ns → s.chip.coldLow = false → s.chip.tripped = false →
    s.rd Reg.PWR_STATUS_BRAKE_IN = 0 → s.flag Reg.PWR_THR_ACTIVE_EXTERNAL_BRAKE = false →
    ∃ t, exec (.perstAssert ns) s = .next t ∧ t.chip.perstLow = true ∧ t.dram = [] ∧ t.ops = [] ∧ t.rqs = [] ∧
      t.cqs = [] ∧ t.part0 = {} ∧ t.part1 = {} ∧ t.images = [] ∧ t.ctxs = [] ∧ t.timeKc = s.timeKc ∧
      (∀ n ∈ s.chip.badTiles, n < 32 → t.rd (Reg.PWR_TILE_MAXDIV n) = 255) ∧ s.resetsTo t [.warm]) ∧
  (∀ (c : Instr) (s : State), c = .hotReset ∨ c = .linkDisable → s.alive = true → s.chip.linkUp = true →
    s.rd Reg.PWR_STATUS_BRAKE_IN = 0 → s.flag Reg.PWR_THR_ACTIVE_EXTERNAL_BRAKE = false →
    ∃ t, exec c s = .next t ∧ t.chip.linkUp = false ∧ t.dram = [] ∧ t.ops = [] ∧ t.rqs = [] ∧ t.cqs = [] ∧
      t.part0 = {} ∧ t.part1 = {} ∧ t.images = [] ∧ t.ctxs = [] ∧ t.timeKc = s.timeKc ∧ t.chip.pci = {} ∧
      (∀ n ∈ s.chip.badTiles, n < 32 → t.rd (Reg.PWR_TILE_MAXDIV n) = 255) ∧ s.resetsTo t [.warm]) ∧
  (∀ (x : Straps) (s : State), s.chip.coldLow = true →
    exec (.coldRstRelease x) s = .next ({ s with chip := { s.chip with
      coldLow := false, coreUp := true, ioUp := true, chainHead := x.chainHead, bootSel := x.bootSel
      spiVsel := x.spiVsel } }.wr Reg.CHN_STATUS_HEAD_STRAP (b2n x.chainHead))) ∧
  (∀ (x : Straps) (s : State), s.chip.perstLow = true →
    exec (.perstRelease x) s = .next ({ s with chip := { s.chip with
      perstLow := false, chainHead := x.chainHead, bootSel := x.bootSel, spiVsel := x.spiVsel } }.wr
        Reg.CHN_STATUS_HEAD_STRAP (b2n x.chainHead)))

/-- When the root PLL locks, and the slot that the boot record names has a manifest that passes, Porter releases Keeper
from it with KPR_STATUS.STATE 1. A timeout of the lock holds the part and drives ALERT_N. PCI Express link training
brings the link up, shows speed and width and takes the function's configuration, BAR4's size within 256 MiB to 64 GiB. A loss of the rails leaves the part held in reset with DRAM gone and
THERM_TRIP_N released. An IDCODE instruction shows 0x232009CB (its opcode is the model's choice, log entry 27). An FLR
disables the queues, leaves D3hot, puts the function's configuration at its reset values and frees the mailbox. -/
def Obligations.StartAndLink : Prop :=
  (∀ (reads : List Bool) (r : BootRec) (s : State), s.alive = true → s.chip.coreUp = true → s.chip.pllLocked = false →
    s.chip.pllFailed = false → s.rd Reg.SRM_LC_STATE ≠ 4 → s.chip.spiVsel = false → s.chip.bootSel = false →
    governing s.kpr = some r → r.trial = 0 → slotBoots s r.active (reads.headD true) = true →
    ∃ t, exec (.rootPllLock reads) s = .next t ∧ t.chip.pllLocked = true ∧ t.kpr.released = true ∧
      t.kpr.trying = r.active ∧ t.rd Reg.KPR_STATUS_STATE = 1 ∧ t.dram = s.dram) ∧
  (∀ s : State, s.alive = true → s.chip.pllLocked = false →
    exec .pllLockTimeout s = .next { s with chip := { s.chip with pllFailed := true, alertLow := true } }) ∧
  (∀ (speed width : Nat) (cfg : PciConf) (s : State), s.alive = true → s.chip.coreUp = true →
    ((cfg.msixEn = false ∨ cfg.msixMask = true) →
      exec (.pcieLinkTrained speed width cfg) s = .next ({ s with chip := { s.chip with
        linkUp := true, pci := { cfg with bar4Log2 := max 28 (min 36 cfg.bar4Log2) } } }.wrs
          [(Reg.HIF_LINK_SPEED, speed), (Reg.HIF_LINK_WIDTH, width)])) ∧
    (∃ t, exec (.pcieLinkTrained speed width cfg) s = .next t ∧ t.chip = { s.chip with
        linkUp := true, pci := { cfg with bar4Log2 := max 28 (min 36 cfg.bar4Log2) } } ∧
      t.rd Reg.HIF_LINK_SPEED = speed % 2 ^ Reg.HIF_LINK_SPEED.width ∧
      t.rd Reg.HIF_LINK_WIDTH = width % 2 ^ Reg.HIF_LINK_WIDTH.width ∧
      t = { s with regs := t.regs, out := t.out, heldOut := t.heldOut, chip := t.chip })) ∧
  (∀ (io : Bool) (s : State), ∃ t, exec (.powerLoss io) s = .next t ∧ t.chip.coldLow = true ∧ t.chip.coreUp = false ∧
    t.chip.tripped = false ∧ t.chip.thermTripLow = false ∧ t.chip.ioUp = !io ∧
    t.chip.tripFlag = (s.chip.tripFlag && !io) ∧ t.dram = [] ∧ t.ops = [] ∧ t.rqs = [] ∧ t.cqs = []) ∧
  (∀ (instr : Nat) (s : State), s.chip.ioUp = true →
    (s.rd Reg.SRM_LC_STATE = 0 ∨ s.rd Reg.SRM_LC_STATE = 3 →
      exec (.tapInstruction instr) s = .next { s with
        chip := { s.chip with tapInstr := instr }, resp := if instr = 1 then [0x232009CB] else s.resp }) ∧
    (s.rd Reg.SRM_LC_STATE ≠ 0 → s.rd Reg.SRM_LC_STATE ≠ 3 → instr ≠ 1 →
      exec (.tapInstruction instr) s = .next { s with chip := { s.chip with tapInstr := 0 } })) ∧
  (∀ s : State, s.alive = true → s.chip.linkUp = true →
    ∃ t, exec .flr s = .next t ∧ t.rqs = [] ∧ t.cqs = [] ∧ t.chip.d3hot = false ∧ t.chip.pci = {} ∧ t.sec.peerRoom = none ∧
      t.rd Reg.SEC_MBX_STATUS_BUSY = 0 ∧ t.rd Reg.SEC_MBX_STATUS_CODE = 0)

/-- A released Keeper that reports ready sets KPR_STATUS.READY; in a unit alone or at the head of a chain tiles may then
start, in a unit with room r above 1 only after the stagger. A Keeper not ready in time is tried again from the same
slot, up to three times. Tile n starts after tile n − 1: its MAXDIV is the larger of the fused and the journalled
divider, or 255 where its self-test fails, now or at a start since COLD_RST_N, and it parks itself; a failed self-test
sets its START bit. -/
def Obligations.KeeperReadyAndTiles : Prop :=
  (∀ s : State, s.live = true → s.kpr.released = true → s.ready = false → s.kpr.fallback = false →
    s.chip.tripFlag = false → s.sec.pendTamper = false → s.vectorsFit →
    ∃ t, exec .keeperReady s = .next t ∧ t.kpr.everReady = true ∧ t.rd Reg.KPR_STATUS_READY = 1 ∧
      t.rd Reg.KPR_STATUS_STATE = 2 ∧ t.rd Reg.KPR_IRQ_STATUS_READY = 1 ∧
      (s.kpr.restarting = false → s.chn.room ≤ 1 → t.chip.tileGo = true) ∧
      (1 < s.chn.room → t.chip.tileGo = s.chip.tileGo) ∧ t.dram = s.dram) ∧
  (∀ s : State, s.live = true → s.ready = true → 1 < s.chn.room → s.chip.tileGo = false →
    ∃ t, exec .staggerWait s = .next t ∧ t.chip.tileGo = true ∧ t.dram = s.dram) ∧
  (∀ (reads : List Bool) (s : State), s.live = true → s.kpr.released = true → s.ready = false → s.kpr.attempts < 2 →
    slotBoots s s.kpr.trying (reads.headD true) = true →
    ∃ t, exec (.keeperReadyTimeout reads) s = .next t ∧ t.kpr.released = true ∧ t.kpr.trying = s.kpr.trying ∧
      t.kpr.attempts = s.kpr.attempts + 1) ∧
  (∀ (n : Nat) (pass : Bool) (s : State), s.live = true → s.chip.tileGo = true → s.chip.tilesStarted = n → n < 32 →
    s.vectorsFit →
    ∃ t, exec (.tileStart n pass) s = .next t ∧ t.chip.tilesStarted = n + 1 ∧ t.rd (Reg.TIL_STATUS_STATE n) = 2 ∧
      (pass = false → t.rd (Reg.PWR_TILE_MAXDIV n) = 255 ∧ t.rd (Reg.TIL_ERR_STATUS_START n) = 1 ∧
        n ∈ t.chip.badTiles) ∧
      (n ∈ s.chip.badTiles → t.rd (Reg.PWR_TILE_MAXDIV n) = 255) ∧
      (pass = true → n ∉ s.chip.badTiles → t.rd (Reg.PWR_TILE_MAXDIV n) =
        max (dividers.getD (Config.fusedDiv n % 5) 4) (SMap.get (fun _ => 0) s.pwr.journal n) % 256) ∧
      (pass = true → s.regsKept t [Reg.PWR_TILE_MAXDIV n, Reg.PWR_TILE_FUSED_DIV n, Reg.PWR_TILE_K_MW n,
        Reg.TIL_STATUS_MAXDIV n, Reg.TIL_STATUS_STATE n]) ∧ s.memKept t)

/-- Entering the safe state from outside it sets ERR_SAFE with the class and code of the cause, halts Keeper, drives
ALERT_N low, ends every request without a record and keeps DRAM; in it, a second cause is only reported and ERR_SAFE
keeps the first. An expired watchdog, a handler past its time and a double fault of the handler enter it. -/
def Obligations.SafeStateEntry : Prop :=
  (∀ (r : ErrRec) (s : State), s.safe = false → r.cls < 16 → r.code < 2 ^ 16 → s.vectorsFit →
    (s.enterSafe r).safe = true ∧ (s.enterSafe r).rd Reg.ERR_SAFE_CLASS = r.cls ∧
      (s.enterSafe r).rd Reg.ERR_SAFE_CODE = r.code ∧ (s.enterSafe r).rd Reg.KPR_STATUS_STATE = 6 ∧
      (s.enterSafe r).ops = [] ∧ (s.enterSafe r).staged = [] ∧ (s.enterSafe r).chip.alertLow = true ∧
      s.memKept (s.enterSafe r)) ∧
  (∀ (r : ErrRec) (s : State), s.safe = true → r.cls < 16 → s.vectorsFit →
    s.enterSafe r = s.report { r with sev := 4 } ∧
      (s.enterSafe r).rd Reg.ERR_SAFE_CODE = s.rd Reg.ERR_SAFE_CODE) ∧
  (∀ s : State, s.live = true → s.ready = true →
    exec .watchdogExpiry s = .next (s.enterSafe (errOf Code.KPR_E_WATCHDOG 4))) ∧
  (∀ s : State, s.live = true → s.ready = true → s.err.buffer ≠ [] →
    exec .handlerTimeout s = .next (s.enterSafe (errOf Code.ERR_E_DOUBLE 4))) ∧
  (∀ s : State, s.live = true → s.ready = true →
    exec (.errorHandler true) s = .next (s.enterSafe (errOf Code.ERR_E_DOUBLE 4)))

/-- A report adds 1 to the counter of its class, saturating, becomes the class's last record and, where there was none,
its first, and joins the 64-entry buffer, or, with the buffer full, is counted in ERR_LOST_BUF. A report whose severity
reaches ERR_ALERT_EN.SEV sets ALERT, and drives ALERT_N once Keeper has been ready. Memory and every engine are as
before. -/
def Obligations.ErrorReports : Prop :=
  ∀ (r : ErrRec) (s : State), r.cls < 16 → 2 ≤ r.partition → s.vectorsFit →
    (s.report r).rd (Reg.ERR_CLASS_CNT_COUNT r.cls) = min (s.rd (Reg.ERR_CLASS_CNT_COUNT r.cls) + 1) (2 ^ 32 - 1) ∧
    SMap.get errBlank (s.report r).err.last r.cls = some { r with timeKc := s.timeKc, step := 0 } ∧
    (SMap.get errBlank s.err.first r.cls = none →
      SMap.get errBlank (s.report r).err.first r.cls = some { r with timeKc := s.timeKc, step := 0 }) ∧
    (SMap.get errBlank s.err.first r.cls ≠ none → (s.report r).err.first = s.err.first) ∧
    (s.err.buffer.length < 64 →
      (s.report r).err.buffer = s.err.buffer ++ [{ r with timeKc := s.timeKc, step := 0 }] ∧
      (s.report r).rd Reg.ERR_LOST_BUF_COUNT = s.rd Reg.ERR_LOST_BUF_COUNT) ∧
    (64 ≤ s.err.buffer.length →
      (s.report r).err.buffer = s.err.buffer ∧
      (s.report r).rd Reg.ERR_LOST_BUF_COUNT = min (s.rd Reg.ERR_LOST_BUF_COUNT + 1) (2 ^ 32 - 1)) ∧
    (s.rd Reg.ERR_ALERT_EN_SEV ≤ r.sev → s.kpr.everReady = true → (s.report r).chip.alertLow = true) ∧
    s.memKept (s.report r) ∧ (s.report r).ops = s.ops ∧ (s.report r).part0 = s.part0 ∧ (s.report r).part1 = s.part1

/-- The handler takes the oldest report; one that merges with none is appended to the ring while it holds fewer than
1,024 unconsumed records. A mark appends a TYPE 3 entry at the next sequence number. A fetch copies what its registers
name to the host and ends with 0, or on a PCI Express error with KPR_E_FETCH. ERR_CTRL.CLEAR zeroes the class counters,
the lost counters and the summary table and touches nothing else. ERR_RING_CONS takes a count up to PROD and discards
one beyond. Clearing ALERT releases ALERT_N outside the safe state. -/
def Obligations.ErrorBlock : Prop :=
  (∀ (r : ErrRec) (rest : List ErrRec) (s : State), s.live = true → s.ready = true → s.err.buffer = r :: rest →
    r.rq = 0xFFFF → s.err.dropped = 0 → ringHeld s < 1024 → s.vectorsFit →
    ∃ t, exec (.errorHandler false) s = .next t ∧ t.err.buffer = rest ∧
      t.rd Reg.ERR_RING_PROD_PROD = (s.rd Reg.ERR_RING_PROD_PROD + 1) % 2 ^ 32 ∧
      ringAt t (s.rd Reg.ERR_RING_PROD_PROD) = some { r with seq := s.rd Reg.KPR_DB_SEQ_SEQ } ∧
      t.rd Reg.KPR_DB_SEQ_SEQ = (s.rd Reg.KPR_DB_SEQ_SEQ + 1) % 2 ^ 32 ∧ t.dram = s.dram) ∧
  (∀ (v : Nat) (s : State), s.hostOk Reg.KPR_DB_MARK_VALUE.off = true → s.err.dropped = 0 →
    ∃ t, exec (.daybookMark v) s = .next t ∧
      SMap.get dayBlank t.err.daybook (s.rd Reg.KPR_DB_SEQ_SEQ % 2 ^ 18) = some {
        type := 3
        seq := s.rd Reg.KPR_DB_SEQ_SEQ
        timeKc := s.timeKc
        data := [v % 2 ^ 32, 0, 0, 0] } ∧
      t.rd Reg.KPR_DB_SEQ_SEQ = (s.rd Reg.KPR_DB_SEQ_SEQ + 1) % 2 ^ 32 ∧
      s.regsKept t [Reg.KPR_DB_SEQ_SEQ, Reg.KPR_DB_WRITTEN] ∧ s.memKept t) ∧
  (∀ (src first count : Nat) (s : State), s.hostOk Reg.KPR_FETCH_CMD_SRC.off = true → s.ready = true → src < 2 →
    first < 2 ^ 32 → count ≤ 262144 →
    exec (.daybookFetch src first count true) s = .next ((((s.wrs [(Reg.KPR_FETCH_CMD_SRC, src),
      (Reg.KPR_FETCH_FIRST_FIRST, first), (Reg.KPR_FETCH_COUNT_COUNT, count)]).hostWrite (s.rd Reg.KPR_FETCH_DST)
        (fetchBytes s src first count) false).wr Reg.KPR_FETCH_STATUS_CODE 0).raiseKpr
        Reg.KPR_IRQ_STATUS_FETCH_DONE)) ∧
  (∀ (src first count : Nat) (s : State), s.hostOk Reg.KPR_FETCH_CMD_SRC.off = true → s.ready = true →
    exec (.daybookFetch src first count false) s = .next ((((s.wrs [(Reg.KPR_FETCH_CMD_SRC, src),
      (Reg.KPR_FETCH_FIRST_FIRST, first), (Reg.KPR_FETCH_COUNT_COUNT, count)]).wr Reg.KPR_FETCH_STATUS_CODE
        Code.KPR_E_FETCH).rep Code.KPR_E_FETCH 0).raiseKpr Reg.KPR_IRQ_STATUS_FETCH_DONE)) ∧
  (∀ s : State, s.hostOk Reg.ERR_CTRL_CLEAR.off = true →
    ∃ t, exec .errClear s = .next t ∧ t.err = { s.err with first := [], last := [] } ∧
      (∀ c, c < 16 → t.rd (Reg.ERR_CLASS_CNT_COUNT c) = 0) ∧ t.rd Reg.ERR_LOST_BUF_COUNT = 0 ∧
      t.rd Reg.ERR_LOST_RING_COUNT = 0 ∧
      s.regsKept t ([Reg.ERR_LOST_BUF_COUNT, Reg.ERR_LOST_RING_COUNT] ++
        (List.range 16).map Reg.ERR_CLASS_CNT_COUNT) ∧ t = { s with regs := t.regs, err := t.err }) ∧
  (∀ (n : Nat) (s : State), s.hostOk Reg.ERR_RING_CONS_CONS.off = true → n < 2 ^ 32 →
    ((n + 2 ^ 32 - s.rd Reg.ERR_RING_CONS_CONS) % 2 ^ 32 ≤ ringHeld s →
      exec (.errRingConsWrite n) s = .next (s.wr Reg.ERR_RING_CONS_CONS n)) ∧
    (ringHeld s < (n + 2 ^ 32 - s.rd Reg.ERR_RING_CONS_CONS) % 2 ^ 32 → exec (.errRingConsWrite n) s = .next s)) ∧
  (∀ s : State, s.hostOk Reg.ERR_IRQ_STATUS_ALERT.off = true → s.safe = false → s.rd Reg.KPR_STATUS_STATE ≠ 5 →
    exec .alertClear s = .next { s.wr Reg.ERR_IRQ_STATUS_ALERT 0 with chip := { s.chip with alertLow := false } })

/-- A version inside HOST_IF_MIN to HOST_IF_MAX is stored and leaves IF_MISMATCH clear; one outside sets it and records
KPR_E_HOSTIF with severity 0. Over an enabled binding Keeper takes an MCTP control message or a PLDM request, counts
it and answers (the bytes of an answer are the model's choice, log entry 26); with the binding off nothing happens. -/
def Obligations.ManagementInterface : Prop :=
  (∀ (v : Nat) (s : State), s.hostOk Reg.KPR_DRV_IF_VERSION.off = true → s.ready = true → v < 65536 →
    (s.rd Reg.KPR_HOSTIF_MIN ≤ v → v ≤ s.rd Reg.KPR_HOSTIF_MAX →
      exec (.drvIfWrite v) s = .next ((s.wr Reg.KPR_DRV_IF_VERSION v).wr Reg.KPR_STATUS_IF_MISMATCH 0)) ∧
    (v < s.rd Reg.KPR_HOSTIF_MIN ∨ s.rd Reg.KPR_HOSTIF_MAX < v →
      exec (.drvIfWrite v) s = .next (((s.wr Reg.KPR_DRV_IF_VERSION v).wr Reg.KPR_STATUS_IF_MISMATCH 1).rep
        Code.KPR_E_HOSTIF 0))) ∧
  (∀ (eid : Nat) (s : State), s.live = true → s.ready = true → s.flag Reg.KPR_MCTP_CFG_SMB_EN = true → eid < 256 →
    exec (.mctpControl false 1 eid) s = .next (((s.inc Reg.KPR_MCTP_RX).wr Reg.KPR_MCTP_EID_EID eid).emit
      (.mctp [1, 0, BitVec.ofNat 8 eid]))) ∧
  (∀ (kind eid : Nat) (s : State), s.live = true → s.flag Reg.KPR_MCTP_CFG_SMB_EN = false →
    exec (.mctpControl false kind eid) s = .next s ∧ exec (.pldmRequest false kind eid) s = .next s) ∧
  (∀ s : State, s.live = true → s.ready = true → s.flag Reg.KPR_MCTP_CFG_SMB_EN = true →
    exec (.pldmRequest false 0 1) s = .next ((s.inc Reg.KPR_MCTP_RX).emit
      (.mctp ([0, 0, 1] ++ leBytes 8 (s.rd Reg.PWR_TEMP_TJ_C)))))

/-- With no receipt or drain running, no verified image and no image on trial (log entry 102), a receive command whose DMA
delivers a well-formed, signed manifest that binds to this unit erases the spare slot and begins the receipt; a PCI Express error ends it with KPR_E_UPD_DMA. A transport block with a bad CRC or number fails the
receipt with KPR_E_UPD_CRC; a good one before the last is applied to the output and awaits the next. A RELAY message's
block is received as one that the host gives: index 0 is a manifest block, another index a transport block of the package
in progress. OP 1 on a verified
image begins the drain; OP 2 ends a receipt, empties the spare slot and returns to idle; OP 3 is refused with
KPR_E_UPD_FORMAT. A drain with nothing left restarts Keeper from the new slot on trial; its timeout ends what is in
flight and stops the partitions; the commit of a trial start clears TRIAL. -/
def Obligations.FirmwareUpdate : Prop :=
  (∀ (list : Bool) (block : List Byte) (s : State), s.hostOk Reg.KPR_UPD_CMD_OP.off = true → s.ready = true →
    updHeld s = false → s.rd Reg.KPR_UPD_STATUS_STATE ≠ 3 → s.flag Reg.KPR_UPD_CFG_RELAY = false →
    manifestOk s block = true → s.rd Reg.KPR_UPD_LEN_LEN = 1 + (parseManifest block).patchBlocks →
    slotUsable s (parseManifest block).signerSlot = true → bindCode s (parseManifest block) = 0 →
    ∃ t, exec (.updateReceive list block true true true) s = .next t ∧ t.kpr.upd = some (parseManifest block) ∧
      t.kpr.updNext = 1 ∧ t.kpr.slot (spareSlot s) = none ∧ t.rd Reg.KPR_UPD_STATUS_STATE = 1 ∧
      t.rd Reg.KPR_UPD_STATUS_CODE = 0 ∧ s.memKept t ∧ t.ops = s.ops) ∧
  (∀ (block : List Byte) (norOk : Bool) (m : Manifest) (s : State), s.live = true → s.kpr.upd = some m →
    s.flag Reg.KPR_UPD_STATUS_RELAYED = false → blockCrc block = false →
    exec (.updateBlock block norOk true) s = .next (updFail s Code.KPR_E_UPD_CRC)) ∧
  (∀ (block : List Byte) (norOk : Bool) (m : Manifest) (x : PatchAt) (s : State), s.live = true →
    s.kpr.upd = some m → s.flag Reg.KPR_UPD_STATUS_RELAYED = false → s.flag Reg.KPR_UPD_CFG_RELAY = false →
    blockCrc block = true → recField block 0 4 = s.kpr.updNext → s.kpr.updApply = true → s.kpr.updNext ≠ m.patchBlocks →
    1 ≤ recField block 4 2 → recField block 4 2 ≤ 4084 → recField block 6 2 = 0 →
    x = ((block.drop 8).take (recField block 4 2)).foldl
      (patchByte (if s.kpr.trying = 0 then s.kpr.image0 else s.kpr.image1) s.kpr.running.resultLen m.resultLen)
      { out := s.kpr.updOut, head := s.kpr.updHead, insert := s.kpr.updInsert, ended := s.kpr.updEnded, good := true } →
    x.good = true →
    exec (.updateBlock block norOk true) s = .next { s.add Reg.KPR_UPD_PROGRESS_APPLIED 1 with kpr := { s.kpr with
      updOut := x.out, updHead := x.head, updInsert := x.insert, updEnded := x.ended, updNext := s.kpr.updNext + 1 } }) ∧
  (∀ (p : Nat) (sigOk norOk : Bool) (m : ChainMsg) (s : State), s.live = true → s.ready = true →
    (s.port p).inbox.find? (fun x => x.msgType == 0x30) = some m →
    (m.addr % 2 ^ 32 = 0 → updHeld s = false → s.rd Reg.KPR_UPD_STATUS_STATE ≠ 3 →
      exec (.relay p sigOk norOk) s = .next (updManifestBlock (State.wr { s.updPort p (fun x =>
        { x with inbox := dropFirst m x.inbox }) with kpr := { s.kpr with
          relayId := m.addr / 2 ^ 40 % 2 ^ 24, relayRoom := m.addr / 2 ^ 32 % 256 } }
        Reg.KPR_UPD_STATUS_RELAYED 1) m.payload none sigOk norOk)) ∧
    (m.addr % 2 ^ 32 ≠ 0 → s.flag Reg.KPR_UPD_STATUS_RELAYED = true → s.kpr.relayId = m.addr / 2 ^ 40 % 2 ^ 24 →
      s.kpr.relayRoom = m.addr / 2 ^ 32 % 256 → s.kpr.upd.isSome = true →
      exec (.relay p sigOk norOk) s = .next (updBlock (s.updPort p (fun x =>
        { x with inbox := dropFirst m x.inbox })) m.payload norOk))) ∧
  (∀ s : State, s.hostOk Reg.KPR_UPD_CMD_OP.off = true → s.ready = true →
    (s.rd Reg.KPR_UPD_STATUS_STATE = 3 →
      exec .updateActivate s = .next (drainBegin (updCmd s 1 (s.flag Reg.KPR_UPD_CMD_SRC_LIST)))) ∧
    (updRuns s = true → s.rd Reg.KPR_STATUS_STATE ≠ 3 →
      ∃ t, exec .updateAbort s = .next t ∧ t.kpr.upd = none ∧ t.kpr.slot (spareSlot s) = none ∧
        t.rd Reg.KPR_UPD_STATUS_STATE = 0 ∧ t.rd Reg.KPR_UPD_STATUS_CODE = 0 ∧
        t = { s with regs := t.regs, kpr := t.kpr }) ∧
    exec .updOpRefused s = .next (((updCmd s 3 (s.flag Reg.KPR_UPD_CMD_SRC_LIST)).wr Reg.KPR_UPD_STATUS_CODE
      Code.KPR_E_UPD_FORMAT).rep Code.KPR_E_UPD_FORMAT 0)) ∧
  (∀ (reads : List Bool) (s : State), s.live = true → s.rd Reg.KPR_STATUS_STATE = 3 → drainOver s = true →
    exec (.drainComplete reads) s = .next (restart s reads)) ∧
  (∀ s : State, s.live = true → s.rd Reg.KPR_STATUS_STATE = 3 → s.ops = [] →
    exec .drainTimeout s = .next (overList [0, 1] (fun p t => if (t.part p).busy then stopPart t p false 0 else t) s)) ∧
  (∀ (r : BootRec) (s : State), s.live = true → s.ready = true → s.flag Reg.KPR_STATUS_TRIAL = true →
    governing s.kpr = some r →
    exec .imageCommit s = .next
      ({ s with kpr := putBoot s.kpr { r with trial := 0 } }.wr Reg.KPR_STATUS_TRIAL 0))

/-- A load command on a slot that is not VALID and has no context bound sets LOADING and clears CODE, DETAIL and the
progress; while a load runs another is discarded with ITN_E_LOAD_BUSY. The first 256 bytes are stored and checked: where
they pass, only the progress follows. The end of the DMA leaves the image's bytes in the slot, which is then
VALIDATING. Validation leaves the slot VALID with the image, or FAILED with the code and DETAIL of the first check that
fails. A DMA error and an abort wipe what arrived and leave the slot EMPTY. FREE empties a slot with no context bound.
SLOT_SIZE changes only with every slot EMPTY. -/
def Obligations.ItinerarySlots : Prop :=
  (∀ (k : Nat) (list : Bool) (s : State), k < 8 → s.hostOk Reg.ITN_LOAD_CTRL_SLOT.off = true → s.ready = true →
    loadRunning s = false → s.rd (Reg.ITN_SLOT_BOUND_COUNT k) = 0 → s.rd (Reg.ITN_SLOT_STATE k) ≠ 3 →
    ∃ t, exec (.itnLoadGo k list) s = .next t ∧ t.rd (Reg.ITN_SLOT_STATE k) = 1 ∧
      t.rd Reg.ITN_LOAD_STATUS_STATE = 1 ∧ t.rd Reg.ITN_LOAD_STATUS_SLOT = k ∧ t.rd Reg.ITN_LOAD_STATUS_CODE = 0 ∧
      t.rd Reg.ITN_LOAD_DETAIL_DETAIL = 0 ∧ t.rd Reg.ITN_LOAD_PROGRESS_BYTES = 0 ∧ t.image k = none ∧
      t.loadLen = s.rd Reg.ITN_LOAD_LEN_LEN * 4096 ∧
      t = { s with regs := t.regs, images := t.images, loadLen := t.loadLen } ∧ s.memKept t) ∧
  (∀ (k : Nat) (list : Bool) (s : State), k < 8 → s.hostOk Reg.ITN_LOAD_CTRL_SLOT.off = true → s.ready = true →
    loadRunning s = true →
    exec (.itnLoadGo k list) s = .next (((s.wr Reg.ITN_LOAD_CTRL_SLOT k).wr Reg.ITN_LOAD_CTRL_SRC_LIST (b2n list)).wr
      Reg.ITN_LOAD_STATUS_CODE Code.ITN_E_LOAD_BUSY)) ∧
  (∀ (bytes : List Byte) (s : State), s.live = true → s.rd Reg.ITN_LOAD_STATUS_STATE = 1 →
    headerChecks s bytes s.loadLen = none →
    exec (.headerArrived bytes) s = .next ((s.mwrite (slotBase s (loadSlot s)) bytes).wr Reg.ITN_LOAD_PROGRESS_BYTES
      (minNat 256 s.loadLen))) ∧
  (∀ (bytes : List Byte) (s : State), s.live = true → s.rd Reg.ITN_LOAD_STATUS_STATE = 1 → loadSlot s < 8 →
    ∃ t, exec (.itnDmaDone bytes) s = .next t ∧ t.rd (Reg.ITN_SLOT_STATE (loadSlot s)) = 2 ∧
      t.rd Reg.ITN_LOAD_STATUS_STATE = 2 ∧
      t.mread (slotBase s (loadSlot s)) (min bytes.length s.loadLen) = bytes.take s.loadLen ∧
      s.memKeptBut t (slotBase s (loadSlot s)) s.loadLen ∧ t = { s with regs := t.regs, dram := t.dram }) ∧
  (∀ s : State, s.live = true → s.rd Reg.ITN_LOAD_STATUS_STATE = 2 →
    exec .validationDone s = .next (match validate s (s.mread (slotBase s (loadSlot s)) s.loadLen) s.loadLen with
      | some (c, d) => loadEnd s 4 none c d
      | none => loadEnd (s.wr Reg.ITN_LOAD_PROGRESS_BYTES s.loadLen) 3
          (some (readImage (s.mread (slotBase s (loadSlot s)) s.loadLen))) 0 0)) ∧
  (∀ (off : Nat) (s : State), s.live = true → s.rd Reg.ITN_LOAD_STATUS_STATE = 1 →
    exec (.itnLoadDmaError off) s = .next (loadEnd (wipeLoad s) 0 none Code.ITN_E_DMA (off / 4096))) ∧
  (∀ s : State, s.hostOk Reg.ITN_LOAD_CTRL_SLOT.off = true → loadRunning s = true →
    exec .itnLoadAbort s = .next (loadEnd (wipeLoad s) 0 none Code.ITN_E_ABORTED 0)) ∧
  (∀ (k : Nat) (s : State), k < 8 → s.hostOk (Reg.ITN_SLOT_FREE k).off = true →
    s.rd (Reg.ITN_SLOT_BOUND_COUNT k) = 0 → (s.rd (Reg.ITN_SLOT_STATE k) = 3 ∨ s.rd (Reg.ITN_SLOT_STATE k) = 4) →
    ∃ t, exec (.slotFree k) s = .next t ∧ t.rd (Reg.ITN_SLOT_STATE k) = 0 ∧ t.image k = none ∧
      s.regsKept t [Reg.ITN_SLOT_STATE k, Reg.ITN_SLOT_PARTS k] ∧ t = { s with regs := t.regs, images := t.images }) ∧
  (∀ (size : Nat) (s : State), size < 4 → s.hostOk Reg.ITN_CFG_SLOT_SIZE.off = true →
    (∀ k, k < 8 → s.rd (Reg.ITN_SLOT_STATE k) = 0) →
    usedAbove s (granAvailOf size (s.rd Reg.MEM_CFG_SETREC_GIB)) = false →
    exec (.slotSizeWrite size) s = .next (s.wr Reg.ITN_CFG_SLOT_SIZE size))

/-- At the end of a load or validation its slot takes the state and image named, ITN_LOAD_STATUS reads DONE with the code,
DETAIL reads as given and LOAD_DONE is set; DRAM and the partitions are as before. -/
def Obligations.LoadEnds : Prop :=
  ∀ (state code detail : Nat) (im : Option Image) (s : State), state < 8 → code < 2 ^ 16 → detail < 2 ^ 32 →
    loadSlot s < 8 → s.vectorsFit →
    (loadEnd s state im code detail).rd (Reg.ITN_SLOT_STATE (loadSlot s)) = state ∧
    (loadEnd s state im code detail).rd Reg.ITN_LOAD_STATUS_STATE = 3 ∧
    (loadEnd s state im code detail).rd Reg.ITN_LOAD_STATUS_CODE = code ∧
    (loadEnd s state im code detail).rd Reg.ITN_LOAD_DETAIL_DETAIL = detail ∧
    (loadEnd s state im code detail).rd Reg.ITN_IRQ_STATUS_LOAD_DONE = 1 ∧
    (loadEnd s state im code detail).image (loadSlot s) = im ∧ s.memKept (loadEnd s state im code detail) ∧
    (loadEnd s state im code detail).part0 = s.part0 ∧ (loadEnd s state im code detail).part1 = s.part1

/-- With Keeper ready, a bind of a registered context that neither runs nor is pending to a VALID slot, and an unbind, end
with code 0; the context then names the slot, or none, and each slot's count follows. A bind to a slot that is not
VALID, and OP 2 or 3, are refused with ITN_E_BIND. Memory and partitions are as before. -/
def Obligations.Binding : Prop :=
  ∀ (c : Nat) (s : State), c < 4096 → s.hostOk Reg.ITN_BIND_OP.off = true → s.ready = true →
    runningOrPending s c = false → s.vectorsFit →
  (∀ k, k < 8 → registered s c = true → s.rd (Reg.ITN_SLOT_STATE k) = 3 → s.flag (Reg.SEC_CTX_BOUND c) = false →
    ∃ t, exec (.itnBind k c) s = .next t ∧ t.rd (Reg.SEC_CTX_BOUND c) = 1 ∧ t.rd (Reg.SEC_CTX_SLOT c) = k ∧
      t.rd (Reg.ITN_SLOT_BOUND_COUNT k) =
        (s.rd (Reg.ITN_SLOT_BOUND_COUNT k) + 1) % 2 ^ (Reg.ITN_SLOT_BOUND_COUNT k).width ∧
      t.rd Reg.ITN_BIND_STATUS_CODE = 0 ∧ s.memKept t ∧ t.part0 = s.part0 ∧ t.part1 = s.part1) ∧
  (∀ k, k < 8 → s.rd (Reg.ITN_SLOT_STATE k) ≠ 3 →
    ∃ t, exec (.itnBind k c) s = .next t ∧ t.rd Reg.ITN_BIND_STATUS_CODE = Code.ITN_E_BIND ∧
      t.rd (Reg.SEC_CTX_BOUND c) = s.rd (Reg.SEC_CTX_BOUND c) ∧ s.memKept t) ∧
  (∀ k, k < 8 → s.flag (Reg.SEC_CTX_BOUND c) = true → s.rd (Reg.SEC_CTX_SLOT c) = k →
    ∃ t, exec (.itnUnbind c) s = .next t ∧ t.rd (Reg.SEC_CTX_BOUND c) = 0 ∧
      t.rd (Reg.ITN_SLOT_BOUND_COUNT k) =
        (s.rd (Reg.ITN_SLOT_BOUND_COUNT k) - 1) % 2 ^ (Reg.ITN_SLOT_BOUND_COUNT k).width ∧
      t.rd Reg.ITN_BIND_STATUS_CODE = 0 ∧ s.memKept t ∧ t.part0 = s.part0 ∧ t.part1 = s.part1) ∧
  (∀ op, op = 2 ∨ op = 3 →
    ∃ t, exec (.bindOpRefused op c) s = .next t ∧ t.rd Reg.ITN_BIND_STATUS_CODE = Code.ITN_E_BIND ∧
      t.rd (Reg.SEC_CTX_BOUND c) = s.rd (Reg.SEC_CTX_BOUND c) ∧ s.memKept t)

/-- With Keeper ready: an activation whose checks pass puts its context on an IDLE partition at once, waiting at its first
boundary with the context's slot; on a partition inside a step, with nothing pending, it becomes pending, its save region
is pinned, and the step goes on; no pin of the running context goes. One that fails a check leaves the partition and reports the code. A STOP inside a step is pending until the
boundary; a partition that is IDLE stays so. An urgent activation before the scatter abandons the step, and an urgent
stop too; a request of the step that a CANCEL had stopped ends then. -/
def Obligations.Activation : Prop :=
  (∀ (p c k : Nat) (im : Image) (s : State), p < 2 → c < 4096 → s.hostOk (Reg.ITN_P_CTRL_CONTEXT p).off = true →
    s.ready = true → boundSlot s c = some k → s.image k = some im → (s.part p).stage = .idle →
    activationCode (s.wr (Reg.ITN_P_CTRL_CONTEXT p) c) p c = 0 →
    ∃ t, exec (.activation p c) s = .next t ∧ t = startIdle (s.wr (Reg.ITN_P_CTRL_CONTEXT p) c) p c ∧
      (t.part p).stage = .waiting ∧ (t.part p).ctx = c ∧ (t.part p).slot = k ∧
      (t.part p).tileMask = (im.parts.getD p {}).desc.tileMask) ∧
  (∀ (p c : Nat) (s : State), p < 2 → c < 4096 → s.hostOk (Reg.ITN_P_CTRL_CONTEXT p).off = true → s.ready = true →
    (s.part p).inStep = true → (s.part p).pendStop = false → (s.part p).pendCtx = none →
    activationCode (s.wr (Reg.ITN_P_CTRL_CONTEXT p) c) p c = 0 →
    ∃ t, exec (.activation p c) s = .next t ∧
      t.part p = { s.part p with pendCtx := some c, pins := (t.part p).pins } ∧
      (∀ q ∈ (s.part p).pins, q.ctx = (s.part p).ctx → q ∈ (t.part p).pins) ∧
      (∀ k im new, boundSlot s c = some k → s.image k = some im →
        savePins s c (im.parts.getD p {}).desc.role (maskTiles (im.parts.getD p {}).desc.tileMask).length = some new →
        (s.part p).pins.length + new.length ≤ 2 ^ 20 → ((s.part p).pins.any (fun q => q.kind == .save && q.ctx == c)) = false →
        (t.part p).pins = (s.part p).pins ++ new) ∧
      t.rd (Reg.ITN_P_STATUS_PENDING p) = 1 ∧
      s.regsKept t [Reg.ITN_P_CTRL_CONTEXT p, Reg.ITN_P_STATUS_PENDING p, Reg.XLT_PINS] ∧ s.memKept t) ∧
  (∀ (p c : Nat) (s : State), p < 2 → c < 4096 → s.hostOk (Reg.ITN_P_CTRL_CONTEXT p).off = true → s.ready = true →
    activationCode (s.wr (Reg.ITN_P_CTRL_CONTEXT p) c) p c ≠ 0 →
    exec (.activation p c) s = .next (partRefuse (s.wr (Reg.ITN_P_CTRL_CONTEXT p) c) p c
      (activationCode (s.wr (Reg.ITN_P_CTRL_CONTEXT p) c) p c))) ∧
  (∀ (p : Nat) (s : State), p < 2 → s.hostOk (Reg.ITN_P_CTRL_CONTEXT p).off = true → s.ready = true →
    (s.part p).inStep = true → (s.part p).pendCtx = none → (s.span p).running = false →
    ∃ t, exec (.partitionStop p) s = .next t ∧ t.part p = { s.part p with pendStop := true } ∧
      t.rd (Reg.ITN_P_STATUS_PENDING p) = 1 ∧ s.regsKept t [Reg.ITN_P_STATUS_PENDING p] ∧ s.memKept t) ∧
  (∀ (p : Nat) (s : State), p < 2 → s.hostOk (Reg.ITN_P_CTRL_CONTEXT p).off = true → s.ready = true →
    (s.part p).stage = .idle → exec (.partitionStop p) s = .next s) ∧
  (∀ (p c beats : Nat) (s u : State), p < 2 → c < 4096 → s.hostOk (Reg.SRV_P_URGENT_CONTEXT p).off = true →
    s.ready = true → (s.part p).beforeScatter = true → (s.part p).ctx ≠ c → (s.part p).pendStop = false →
    (s.part p).pendCtx = none → (s.span p).running = false →
    activationCode (s.wr (Reg.SRV_P_URGENT_CONTEXT p) c) p c = 0 →
    u = ((queueCtx (s.wr (Reg.SRV_P_URGENT_CONTEXT p) c) p c).updPart p (fun y => { y with urgent := true })).add
      Reg.MEM_BKG_AB_PREEMPT (s.part p).bookings.length →
    exec (.urgentPreempt p c beats) s =
      .next (boundary (endStopped (abandon (dropStall u p beats) p) (stepOps s p)) p)) ∧
  (∀ (p beats : Nat) (s u : State), p < 2 → s.hostOk (Reg.SRV_P_URGENT_CONTEXT p).off = true → s.ready = true →
    (s.part p).beforeScatter = true → (s.part p).pendCtx = none → (s.span p).running = false →
    u = ((pendSync (s.updPart p (fun y => { y with pendStop := true })) p).updPart p
      (fun y => { y with urgent := true })).add Reg.MEM_BKG_AB_PREEMPT (s.part p).bookings.length →
    exec (.urgentStop p beats) s =
      .next (boundary (endStopped (abandon (dropStall u p beats) p) (stepOps s p)) p))

/-- Work that reaches a waiting partition with nothing pending has its deadlines checked, its admission run and its arrays
ramped up. With the start of the part done, candidates, full duty, no stall and no bank that holds it, segment 0 begins and
forms the plan, or at a later stage of a span adopts it; the wait of its arrays and of its banks is counted, and the requests of a context's first step whose
instant has passed end first. A bank that holds it leaves the partition waiting. The seal beat checks the deadlines of
every running context, runs admission and closes the plan. At segment 1 a tile whose fill entries have run is filled, and
every tile binds its thread slots. -/
def Obligations.StepBegins : Prop :=
  (∀ (p : Nat) (s : State), p < 2 → s.live = true → (s.part p).stage = .waiting → (s.part p).pendCtx = none →
    (s.part p).pendStop = false → (s.part p).stopCode = 0 →
    exec (.workArrives p) s = .next (wake (admitWaiting (deadlinePass s (s.part p).ctx) p) p)) ∧
  (∀ (p : Nat) (tables inputs : List Nat) (bad : List (Nat × Bool)) (s : State), p < 2 → s.live = true →
    startDone s = true → (s.part p).stage = .waiting → (s.part p).stall = {} → ramped s p = true →
    (s.part p).pendCtx = none → (s.part p).pendStop = false → (s.part p).stopCode = 0 →
    (spanLater s p = true ∨ candidates s p ≠ []) → spanReady s p = true →
    (bankHolds s p = true →
      exec (.stepStart p tables inputs bad) s =
        .next (s.updPart p (fun y => { y with heldKc := some (y.heldKc.getD s.timeKc) }))) ∧
    (bankHolds s p = false →
      let v := countHold (countWait (if (s.part p).fresh then deadlinePass s (s.part p).ctx else s) p) p
      let u := v.updPart p (fun y => { y with
        stage := .prologue, fresh := false, seg := 0, plan := [], exempt := otherReason v
        stepBeats := v.rd (Reg.ITN_P_STALL_TOTAL p), retryBeats := v.rd (Reg.ITN_P_STALL_RETRY p) })
      let w := overList (u.part p).tiles (fun n t => t.updTile n (fun x => { x with
        fillDone := [], arr0 := x.arr0.newGap, arr1 := x.arr1.newGap })) (setTileStates u p 5)
      let f := (if spanLater w p then adoptPlan else formPlan) { tables := tables, inputs := inputs, bad := bad } w p
      exec (.stepStart p tables inputs bad) s = .next (f.s.updPart p (fun y => { y with plan := f.plan })))) ∧
  (∀ (p : Nat) (s : State), p < 2 → s.live = true → (s.part p).stage = .prologue → (s.part p).stall = {} →
    exec (.sealBeat p) s = .next ((admitWaiting (deadlineAll s) p).updPart p (fun y => { y with
      stage := .sealed
      beat := y.beat + (prologueBeats ((admitWaiting (deadlineAll s) p).partImage p) - 16) }))) ∧
  (∀ (p : Nat) (s : State), p < 2 → s.live = true → (s.part p).stage = .sealed → (s.part p).stall = {} →
    (s.part p).plan ≠ [] →
    ∃ t, exec (.segmentOneStart p) s = .next t ∧ (t.part p).stage = .body ∧ (t.part p).seg = 1 ∧
      (t.part p).beat = (s.part p).beat + 16 ∧ (t.part p).plan = (s.part p).plan ∧
      (∀ n, n ∈ (s.part p).tiles → (t.tile n).filled = ((s.tile n).filled ||
          (fillEntries (s.partImage p) n).all (fun e => (s.tile n).fillDone.contains e)) ∧ (t.tile n).scratch = (s.tile n).scratch ∧
        t.rd (Reg.TIL_THREADS_BOUND n) = boundThreads (s.part p).plan.length (((tileKernels (s.partImage p) n).getD {}).dir) %
          2 ^ (Reg.TIL_THREADS_BOUND n).width) ∧ s.memKept t)

/-- The scatter begins with every request slot deciding its booking. A booking of at most 64 lines, that no stall keeps from
its issue, whose watches are clean, whose bytes nothing holds and whose check lines match commits its lines; a dirty watch on
its bytes aborts it, counts the conflict, cleans the watches and makes the step exempt, and the eighth abort is Keeper's; a
check line that differs leaves it open, the abort counted; more lines or an uncorrectable line end its slot. Open
bookings at the last beat stall the partition with cause booking. A parity error of the booking buffer enters the safe
state. With no booking open and no stall, the scatter's end counts the step and reaches the boundary. -/
def Obligations.Scatter : Prop :=
  (∀ (p : Nat) (tile : Nat) (logits : List RowExpr) (et rt : ScrRef) (s : State), p < 2 → s.live = true →
    (s.part p).stage = .body → (s.part p).stall = {} →
    exec (.scatterBegin p tile logits et rt) s = .next (spanScatter ((List.range (s.part p).plan.length).foldl
      (scatterSlot p (logits.map (evalRow s p tile 3)) (tableAt (s.tile tile) et) (tableAt (s.tile tile) rt)) (s.updPart p (fun y => { y with
        stage := .scatter, seg := (s.partImage p).segs.length - 1
        beat := y.beat + bodyBeats (s.partImage p) y.plan }))) p)) ∧
  (∀ (p i : Nat) (b : Booking) (s : State), p < 2 → s.live = true → (s.part p).stage = .scatter → i < 96 →
    (s.part p).bookings[i]? = some b → b.aborts < 8 → issueHeld (s.part p) b = false →
    (bookSize b.lines b.refs ≤ 64 →
      ((∀ w ∈ (s.part p).watches, w.owner = b.owner → w.dirty = false) → b.lines.any (lineHeld s) = false →
        (checksOk s b.lines = true → exec (.bookingIssue p i false) s = .next (commitBooking s p b)) ∧
        (checksOk s b.lines = false → exec (.bookingIssue p i false) s = .next (s.inc Reg.MEM_BKG_AB_CHECK))) ∧
      exec (.bookingIssue p i true) s = .next (faultBooking s p b Code.XLT_E_UNCORR)) ∧
    (64 < bookSize b.lines b.refs → ∀ fault,
      exec (.bookingIssue p i fault) s = .next (faultBooking s p b Code.MEM_E_BOOK_SIZE))) ∧
  (∀ (p i : Nat) (fault : Bool) (b : Booking) (s : State), p < 2 → s.live = true →
    (s.part p).bookings[i]? = some b → issueHeld (s.part p) b = true →
    exec (.bookingIssue p i fault) s = .next s) ∧
  (∀ (p i : Nat) (b : Booking) (w : Watch) (s : State), p < 2 → s.live = true → (s.part p).stage = .scatter → i < 96 →
    (s.part p).bookings[i]? = some b → b.aborts < 7 → issueHeld (s.part p) b = false → bookSize b.lines b.refs ≤ 64 →
    w ∈ (s.part p).watches →
    w.owner = b.owner → w.dirty = true → (∃ l ∈ b.lines, w.meets l = true) →
    ∃ t, exec (.bookingIssue p i false) s = .next t ∧
      t.rd Reg.MEM_BKG_AB_CONFLICT = (s.rd Reg.MEM_BKG_AB_CONFLICT + 1) % 2 ^ Reg.MEM_BKG_AB_CONFLICT.width ∧
      s.regsKept t [Reg.MEM_BKG_AB_CONFLICT] ∧ (t.part p).exempt = true ∧
      (∀ v ∈ (t.part p).watches, v.owner = b.owner → v.dirty = false) ∧ s.memKept t ∧ t.ops = s.ops) ∧
  (∀ (p : Nat) (b : Booking) (s : State), p < 2 → s.live = true →
    (s.part p).bookings.find? (fun x => decide (8 ≤ x.aborts)) = some b →
    exec (.bookingFallback p) s = .next (unhold (commitBooking
      { s with holdRanges := s.holdRanges.filter (fun r => !(holdOf (s.part p).watches b).contains r) } p b))) ∧
  (∀ s : State, s.live = true →
    exec .bookingBufferParity s = .next (s.enterSafe (errOf Code.MEM_E_BOOK_PARITY 4))) ∧
  (∀ (p : Nat) (s : State), p < 2 → s.live = true → (s.part p).stage = .scatter → (s.part p).bookings ≠ [] →
    ∃ t, exec (.scatterOverrun p) s = .next t ∧ (t.part p).stall.booking = true ∧
      (t.part p).bookings = (s.part p).bookings ∧ (t.part p).plan = (s.part p).plan ∧
      t.rd (Reg.ITN_P_STATUS_STATE p) = 3 ∧ (∀ n ∈ (s.part p).tiles, t.rd (Reg.TIL_STATUS_STATE n) = 6) ∧
      s.memKept t) ∧
  (∀ (p : Nat) (s u v : State), p < 2 → s.live = true → (s.part p).stage = .scatter → (s.part p).bookings = [] →
    (s.part p).stall = {} → s.rd Reg.KPR_TRACE_MASK = 0 → u = measureStep (s.inc (Reg.ITN_P_STEPS p)) p →
    v = { u with
      ops := u.ops.map (fun (o : Operation) => if o.inStep == some p then { o with inStep := none } else o) } →
    exec (.scatterComplete p) s = .next (boundary ((dropWork (spanFree (closeGaps v p) p) p).updPart p (fun y => { y.dropStep with
      stage := .waiting, seg := 0, beat := y.beat + (v.partImage p).desc.tScatter })) p))

/-- At the end of a save to a stop, the carry set and the region header are written, or the fault is recorded, and the
banks go to their phase-0 owners and the partition parks, IDLE; at the end of a save for a switch, the incoming context is switched in. A restore that passes
its checks restores the tiles and one that fails is recorded with ITN_E_SAVE; either way the context reports code 0 and
reaches its first boundary. -/
def Obligations.SaveAndRestore : Prop :=
  (∀ (p : Nat) (fault : Bool) (s : State), p < 2 → s.live = true → (s.part p).stage = .saving →
    ((s.part p).incoming = none →
      exec (.saveDone p fault) s = .next (idlePending (parkPart
        (handBack ((if fault then saveFault s p else writeSave s p).updPart p Part.dropStep) p) p (s.part p).outCode) p)) ∧
    (∀ c, (s.part p).incoming = some c →
      exec (.saveDone p fault) s = .next (switchIn
        ((if fault then saveFault s p else writeSave s p).updPart p Part.dropStep) p c))) ∧
  (∀ (p : Nat) (s : State), p < 2 → s.live = true → (s.part p).stage = .restoring →
    ((restore s p).1 = true →
      exec (.restoreDone p false) s = .next (boundary (partResult (restore s p).2 p 0) p)) ∧
    exec (.restoreDone p true) s = .next (boundary (partResult (saveFault s p) p 0) p))

/-- A phase boundary of a segment that runs gives every bank of its tile the owner of the phase, and a bank that changes
owner reads zeros. An array pass with a good buffer, whose run's row groups all fit and lie in banks of its feeder, ends the
array's gap at full duty, adds the rows that the feeder reads to the tally and counts live groups, padding rows and filler.
A load from the rack takes its oldest block; one from scratch reads a bank that the array's feeder owns; each counts one
load, and changes no register but those counters and no DRAM. A scratch line that cannot be corrected reads as zeros and is
a fault. A key slab is loaded transposed: the weight of input row k and column c is the code of
element k of token c. -/
def Obligations.TileTimetable : Prop :=
  (∀ (p tile seg start : Nat) (e : PhaseEntry) (s : State), p < 2 → s.live = true → (s.part p).stall = {} →
    segRuns (s.part p) (s.partImage p) seg 0 = true →
    (phasesOf (s.partImage p) tile seg).find? (fun x => x.start == start) = some e →
    ∃ t, exec (.phaseBoundary p tile seg start) s = .next t ∧
      (∀ b, b < 32 → (t.tile tile).owner b = ownerOf e.owners b) ∧
      (∀ b l, b < 32 → l < 4096 → (s.tile tile).owner b ≠ ownerOf e.owners b → (t.tile tile).isWritten b l = false) ∧
      (∀ b l, b < 32 → l < 4096 → (s.tile tile).owner b = ownerOf e.owners b →
        (t.tile tile).isWritten b l = (s.tile tile).isWritten b l) ∧
      (∀ n, n ≠ tile → t.tile n = s.tile n) ∧ t = { s with tiles := t.tiles }) ∧
  (∀ (p i rep half n a fit : Nat) (groups : List FeedGroup) (e : TimeEntry) (k : KernelEntry) (rows : List (Option Nat))
    (s u : State), p < 2 → s.live = true → entryNow s p i rep 0 = some e → e.index < 64 → n = e.index / 2 →
    a = e.index % 2 → kernelOf (s.partImage p) n e.opRef = some k →
    rows = passSlots (s.part p).plan ((s.partImage p).segs.getD e.seg {}) rep → rows.length = 64 * fit →
    fit * (if 4 ≤ k.mode then 4 else 1) ≤ e.len →
    (if e.flags % 2 = 0 then ((s.tile n).arr a).badBuf0 else ((s.tile n).arr a).badBuf1) = false →
    (∀ g ∈ groups, feedOwned (s.tile n) a g = true) → u = closeGap s p n a (some (i, rep)) →
    exec (.arrayPass p i rep half groups false none) s = .next ((((u.updTile n (fun x => x.updArr a
        (passRows k.mode half (e.flags % 2) (bitsOf k.flags 2 2) rows
          ((List.range rows.length).map (feedRow (u.tile n) a k.mode groups))
          ((List.range rows.length).map (feedZero (u.tile n) (s.partImage p) a groups))))).add
        (Reg.TIL_ARR_LIVE n a) fit).add
        (Reg.TIL_ARR_PAD n a) (rows.filter (·.isNone)).length).add
        (Reg.TIL_ARR_FILLER n a) (e.len - fit * (if 4 ≤ k.mode then 4 else 1)))) ∧
  (∀ (p n a : Nat) (last : Option (Nat × Nat)) (s : State),
    (((closeGap s p n a last).tile n).arr a).duty = 16 ∧
    (((closeGap s p n a last).tile n).arr a).tally = ((s.tile n).arr a).tally ∧
    (∀ b i, ((closeGap s p n a last).tile n).byte b i = (s.tile n).byte b i) ∧
    s.regsKept (closeGap s p n a last) [Reg.TIL_ARR_RAMP n a, Reg.TIL_ARR_FILLER n a, Reg.TIL_ARR_GATED n a] ∧
    closeGap s p n a last = { s with regs := (closeGap s p n a last).regs, tiles := (closeGap s p n a last).tiles }) ∧
  (∀ (p i rep bank line form : Nat) (badLine : Option Nat) (e : TimeEntry) (k : KernelEntry) (b : RackBlock)
    (rest : List RackBlock) (s : State), p < 2 → s.live = true → entryNow s p i rep 1 = some e →
    kernelOf (s.partImage p) (e.index / 2) e.opRef = some k → k.mode = 0 →
    ((s.tile (e.index / 2)).arr (e.index % 2)).rack = b :: rest →
    ∃ t, exec (.weightBufferLoad p i rep bank line form badLine) s = .next t ∧
      ((t.tile (e.index / 2)).arr (e.index % 2)).rack = rest ∧
      (e.flags % 2 = 0 → ((t.tile (e.index / 2)).arr (e.index % 2)).buf0 = b.bytes ∧
        ((t.tile (e.index / 2)).arr (e.index % 2)).trail0 = b.trailer) ∧
      (e.flags % 2 = 1 → ((t.tile (e.index / 2)).arr (e.index % 2)).buf1 = b.bytes ∧
        ((t.tile (e.index / 2)).arr (e.index % 2)).trail1 = b.trailer) ∧
      s.regsKept t [Reg.TIL_ARR_LOADS (e.index / 2) (e.index % 2)] ∧
      t = { s with regs := t.regs, tiles := t.tiles }) ∧
  (∀ (p i rep bank line form n a : Nat) (e : TimeEntry) (k : KernelEntry) (s : State), p < 2 → s.live = true →
    entryNow s p i rep 1 = some e → n = e.index / 2 → a = e.index % 2 →
    kernelOf (s.partImage p) n e.opRef = some k → k.mode ≠ 0 → (s.tile n).owner bank = 1 + a →
    (form < 2 →
      exec (.weightBufferLoad p i rep bank line form none) s = .next (loadBuffer s n a (e.flags % 2)
        ((List.range 4096).map (fun j => (s.tile n).byte bank (line * 64 + (0 + j))))
        ((List.range (if form = 1 then 384 else 192)).map (fun j => (s.tile n).byte bank (line * 64 + (4096 + j)))) false)) ∧
    (form = 2 → (s.partImage p).kvBits = 8 →
      exec (.weightBufferLoad p i rep bank line form none) s = .next (loadBuffer s n a (e.flags % 2)
        (keySlab 8 (fun j => (s.tile n).byte bank (line * 64 + j)))
        ((List.range 128).map (fun j => (s.tile n).byte bank (line * 64 + (4096 + j)))) true)) ∧
    (∀ (l : Nat) (x : List Nat × List Nat),
      x = scratchLoad form (s.partImage p).kvBits (fun j => ((s.tile n).loseLine bank l).byte bank (line * 64 + j)) →
      exec (.weightBufferLoad p i rep bank line form (some l)) s = .next (scratchFault
        (loadBuffer s n a (e.flags % 2) x.1 x.2 (decide (2 ≤ form))) p n bank l))) ∧
  (∀ (slab : Nat → Nat) (k c : Nat), k < 64 → c < 64 →
    weightCode 4 (nth (keySlab 8 slab)) k c = signedCode 8 (slab (64 * c + k)) ∧
    weightCode 5 (nth (keySlab 4 slab)) k c =
      signedCode 4 (if k % 2 = 0 then slab (32 * c + k / 2) else slab (32 * c + k / 2) / 16))

/-- An entry of class 6 or 7 runs its thread slots and then has its kernel's effect and faults, stage by stage; a per-row
kernel leaves out the request slots that have ended; a fill entry passes idle while its tile is filled. A padding row that a
kernel converts is not counted. A thread of one row that reaches its bound stops, zeros taking the place of its outputs,
is recorded in TIL_ERR_STATUS and ends its request slot with TIL_E_OVERRUN. An access later than its allowance, one that
is refused and one that meets an uncorrectable line end the request slots they carried, zeros in place of the data,
counted in XLT_LATE, XLT_FAULTS or MEM_DRAM_UNCORR. A slot's first code stands, and while a slot of the step is live no
other slot changes. -/
def Obligations.KernelsAndSlotFaults : Prop :=
  (∀ (p i rep cls owner source : Nat) (runs : List KernelRun) (e : TimeEntry) (k : TileKernels) (v : Nat × Nat × Nat)
    (c : Instr) (s u : State), p < 2 → s.live = true →
    ((c = .elementPipelineEntry p i rep runs ∧ cls = 6 ∧ owner = 3 ∧ source = 2) ∨
      (c = .tileDmaEntry p i rep runs ∧ cls = 7 ∧ owner = 4 ∧ source = 3)) →
    entryNow s p i rep cls = some e → tileKernels (s.partImage p) e.index = some k → k.invocations[e.opRef]? = some v →
    u = runs.foldl (runStage p e.index owner source
      { t := e, kernel := k.dir.getD v.1 {}, first := v.2.1, count := v.2.2, base := threadBase k v.1 + v.2.1, rep := rep })
      (runThreads s p e.index (threadBase k v.1 + v.2.1) v.2.2) →
    ((fillEntries (s.partImage p) e.index).contains i = false → exec c s = .next u) ∧
    ((fillEntries (s.partImage p) e.index).contains i = true → (s.tile e.index).filled = true → exec c s = .next s) ∧
    ((fillEntries (s.partImage p) e.index).contains i = true → (s.tile e.index).filled = false →
      exec c s = .next (u.updTile e.index (fun x => { x with fillDone := x.fillDone ++ [i] })))) ∧
  (∀ (p n owner i : Nat) (v : EntryRun) (r : KernelRun) (x : Slot) (w : ScrWrite) (s : State), bitOf v.kernel.flags 1 = true →
    (s.part p).plan[i]? = some x → x.fault.isSome = true → w ∈ (liveRun s p n owner v r).writes → w.slot ≠ some i) ∧
  (∀ (s0 : State) (p n owner : Nat) (f : ConvWork) (w : ConvRow), w.slot = none →
    (convertOne s0 p n owner f w).s = f.s) ∧
  (∀ (p n i : Nat) (zeros : List ZeroRun) (th : Thread) (s u : State), p < 2 → s.live = true →
    (s.part p).inStep = true → n ∈ (s.part p).tiles → SMap.get threadBlank (s.tile n).threads i = th → th.row ≠ 0xFF →
    u = zeroRuns s (if dmaThread s p n i then 4 else 3) (zeros.filter (fun z => z.tile == n)) →
    exec (.threadOverrun p n i zeros) s = .next (slotFault (tileNote (u.updTile n (fun x => { x with
      threads := SMap.set threadBlank x.threads i { th with state := 3 } })) n (Reg.TIL_ERR_STATUS_OVERRUN n)
      (if dmaThread s p n i then 3 else 2) th.row i)
      p th.row { errOf Code.TIL_E_OVERRUN 1 with partition := p, tile := n })) ∧
  (∀ (p code : Nat) (slots : List Nat) (zeros : List ZeroRun) (s u : State), p < 2 → s.live = true →
    (s.part p).inStep = true → u = zeroRuns s 4 (zeros.filter (fun z => (s.part p).tiles.contains z.tile)) →
    exec (.allowanceExpiry p slots zeros) s = .next (someFault (u.inc Reg.XLT_LATE) p slots
      { errOf Code.XLT_E_LATE 1 with partition := p }) ∧
    (code ∈ accessCodes → code ≠ Code.XLT_E_UNCORR → code ≠ Code.XLT_E_TIER2 → code ≠ Code.XLT_E_TIER3 →
      exec (.tierAccessFault p code slots zeros) s = .next (someFault (u.inc Reg.XLT_FAULTS) p slots
        { errOf code 1 with partition := p })) ∧
    exec (.tierAccessFault p Code.XLT_E_UNCORR slots zeros) s = .next (someFault (u.inc Reg.MEM_DRAM_UNCORR) p slots
      { errOf Code.XLT_E_UNCORR 1 with partition := p })) ∧
  (∀ (p i : Nat) (r : ErrRec) (x : Slot) (o : Operation) (s : State), p < 2 → (s.part p).plan[i]? = some x →
    s.op x.op = some o → allEnded ((s.part p).plan.set i { x with fault := if x.fault.isNone then some r.code else x.fault }) = false →
    (((slotFault s p i r).part p).plan[i]?).map (·.fault) =
      some (if x.fault.isNone then some r.code else x.fault) ∧
    (∀ j, j ≠ i → ((slotFault s p i r).part p).plan[j]? = (s.part p).plan[j]?) ∧
    (slotFault s p i r).ops = s.ops ∧ s.memKept (slotFault s p i r))

/-- A ramp step in a gap of a running step changes one array's duty by one sixteenth and counts it, down as often as the
gap's length gives and then up as often, and no more. A stall whose causes have cleared ends: its beats are added to the
total once, the partition runs on at segment and beat as before, and its tiles run, their arrays at the duty at which the
stall found them. A lockstep error of a running partition's tile enters the safe state. A beat of the transparent test in
its place that finds nothing moves the test on by 8 lines, after a bank's last to the tile's next bank, counts each region
and leaves every byte of scratch and memory as it was. -/
def Obligations.RampsAndStalls : Prop :=
  (∀ (tile arr p k : Nat) (y : Arr) (s : State), s.live = true → arr < 2 → partOfTile s tile = some p →
    (s.part p).inStep = true → (s.part p).stall = {} → y = (s.tile tile).arr arr →
    k = gapSteps (s.rd (Reg.ITN_P_STATUS_DIVIDER p)) (gapNow s p tile arr) →
    (y.gapDown = k → y.gapUp < k → y.duty < 16 →
      exec (.rampStep tile arr true) s = .next ((s.updTile tile (fun t => t.updArr arr (fun a => { a with
        duty := y.duty + 1, gapUp := a.gapUp + 1 }))).inc (Reg.TIL_ARR_RAMP tile arr))) ∧
    (y.gapDown < k → y.gapUp = 0 → 0 < y.duty →
      exec (.rampStep tile arr false) s = .next ((s.updTile tile (fun t => t.updArr arr (fun a => { a with
        duty := y.duty - 1, gapDown := a.gapDown + 1 }))).inc (Reg.TIL_ARR_RAMP tile arr))) ∧
    (k ≤ y.gapDown → exec (.rampStep tile arr false) s = .next s) ∧
    (k ≤ y.gapUp → exec (.rampStep tile arr true) s = .next s)) ∧
  (∀ (p beats : Nat) (s : State), p < 2 → s.live = true → (s.part p).inStep = true → (s.part p).stall.any = false →
    (s.part p).stall.seen ≠ [] →
    ∃ t, exec (.stallEnd p beats) s = .next t ∧ (t.part p).stall = {} ∧ (t.part p).seg = (s.part p).seg ∧
      (t.part p).beat = (s.part p).beat ∧ (t.part p).plan = (s.part p).plan ∧
      t.rd (Reg.ITN_P_STALL_TOTAL p) = (s.rd (Reg.ITN_P_STALL_TOTAL p) + beats) % 2 ^ (Reg.ITN_P_STALL_TOTAL p).width ∧
      t.rd (Reg.ITN_P_STATUS_STATE p) = 2 ∧
      (∀ n ∈ (s.part p).tiles, t.rd (Reg.TIL_STATUS_STATE n) = 5 ∧ ((t.tile n).arr 0).duty = ((s.tile n).arr 0).gapDuty ∧
        ((t.tile n).arr 1).duty = ((s.tile n).arr 1).gapDuty) ∧ s.memKept t) ∧
  (∀ (tile p : Nat) (s : State), s.live = true → partOfTile s tile = some p →
    exec (.lockstepError tile) s = .next (s.enterSafe { errOf Code.ERR_E_LOCKSTEP 4 with partition := p, tile := tile })) ∧
  (∀ (tile bank line seg beat p : Nat) (im : Image) (s : State), s.live = true → partOfTile s tile = some p →
    testPlace s = some (tile, bank, line) → s.flag Reg.MEM_SCR_TEST_CTRL_ENABLE = true →
    (s.part p).inStep = true → (s.part p).stall = {} → s.image (s.part p).slot = some im →
    segRuns (s.part p) (s.partImage p) seg 0 = true → testWindow (s.partImage p) im.windowLog2 tile seg beat = true →
    ∃ t, exec (.transparentTestBeat tile bank seg beat false false) s = .next t ∧
      (t.tile tile).testLine = (if 4088 ≤ line then 0 else line + 8) ∧
      (t.tile tile).testBank = (if 4088 ≤ line then (bank + 1) % 32 else bank) ∧
      (t.tile tile).scratch = (s.tile tile).scratch ∧ (t.tile tile).written = (s.tile tile).written ∧
      (∀ n, n ≠ tile → t.tile n = s.tile n) ∧
      t.rd Reg.MEM_SCR_TESTED =
        (if line % 64 = 56 then (s.rd Reg.MEM_SCR_TESTED + 1) % 2 ^ Reg.MEM_SCR_TESTED.width else s.rd Reg.MEM_SCR_TESTED) ∧
      s.regsKept t [Reg.MEM_SCR_TESTED] ∧ t = { s with regs := t.regs, tiles := t.tiles, chip := t.chip })

/-- A read of one of the three data windows returns the word that its selector names and adds one to WORD. A 4-byte read of
the low half of a pair takes the snapshot of its upper half. Every other register read that the part answers leaves the
part unchanged but for the answer itself: one that touches no low half of a pair and no data window, and the aligned
8-byte read of a pair. -/
def Obligations.RegisterReads : Prop :=
  ∀ s : State,
  (readOk s 0x1000064 = true →
    ∃ t, exec (.dataWindowRead 0x1000064) s = .next t ∧
      t.resp = [calWord (s.rd Reg.CEL_CAL_SEL_DIE) (s.rd Reg.CEL_CAL_SEL_WORD) % 2 ^ 32] ∧
      t.rd Reg.CEL_CAL_SEL_WORD = (s.rd Reg.CEL_CAL_SEL_WORD + 1) % 2 ^ Reg.CEL_CAL_SEL_WORD.width ∧
      s.regsKept t [Reg.CEL_CAL_SEL_WORD] ∧ t = { s with regs := t.regs, resp := t.resp }) ∧
  (readOk s 0x200001C = true →
    ∃ t, exec (.dataWindowRead 0x200001C) s = .next t ∧ t.resp = [rosterWord s % 2 ^ 32] ∧
      t.rd Reg.CHN_ROSTER_SEL_WORD = (s.rd Reg.CHN_ROSTER_SEL_WORD + 1) % 2 ^ Reg.CHN_ROSTER_SEL_WORD.width ∧
      s.regsKept t [Reg.CHN_ROSTER_SEL_WORD] ∧ t = { s with regs := t.regs, resp := t.resp }) ∧
  (readOk s 0x2C00024 = true →
    ∃ t, exec (.dataWindowRead 0x2C00024) s = .next t ∧
      t.resp = [recordWord (sumRecord s) (s.rd Reg.ERR_SUM_SEL_WORD) % 2 ^ 32] ∧
      t.rd Reg.ERR_SUM_SEL_WORD = (s.rd Reg.ERR_SUM_SEL_WORD + 1) % 2 ^ Reg.ERR_SUM_SEL_WORD.width ∧
      s.regsKept t [Reg.ERR_SUM_SEL_WORD] ∧ t = { s with regs := t.regs, resp := t.resp }) ∧
  (∀ (off : Nat) (r : RegRow), readOk s off = true → barReg off = some r → r.pair = true → off % 4 = 0 →
    exec (.pairLoRead off 4) s = .next { s with
      resp := [readReg s off r % 2 ^ 32], snap := SMap.set halfBlank s.snap off (readReg s off r / 2 ^ 32) }) ∧
  (∀ (off n : Nat), readOk s off = true →
    (∀ w ∈ touched off n, w ≠ 0x1000064 ∧ w ≠ 0x200001C ∧ w ≠ 0x2C00024 ∧
      ∀ r, barReg w = some r → r.pair = false) →
    ∃ t, exec (.pairLoRead off n) s = .next t ∧ t.resp.length = (touched off n).length ∧
      t = { s with resp := t.resp }) ∧
  (∀ (off : Nat) (r : RegRow), readOk s off = true → barReg off = some r → r.pair = true →
    exec (.pairLoRead off 8) s = .next { s with
      resp := [readReg s off r % 2 ^ 32, readReg s off r / 2 ^ 32] })

/-- The low half of every pair lies at a multiple of 8. A 4-byte read of the upper half answers the snapshot, 0 where none
has been taken. A 4-byte write of the upper half is held and changes no register; a 4-byte write of the lower half
commits it with the held half above it, and an aligned 8-byte write commits its value; either clears the holding
register. A pair of one writable field, of no bus address and no sync cell, then holds the value committed. -/
def Obligations.RegisterPairs : Prop :=
  (∀ (off : Nat) (r : RegRow), barReg off = some r → r.pair = true → off % 8 = 0) ∧
  (∀ (off : Nat) (r : RegRow) (s : State), barReg off = some r → r.pair = true →
    (readOk s (off + 4) = true →
      exec (.pairLoRead (off + 4) 4) s = .next { s with resp := [SMap.get halfBlank s.snap off] }) ∧
    (s.snap = [] → SMap.get halfBlank s.snap off = 0) ∧
    (∀ v, s.hostOk (off + 4) = true →
      exec (.pairHiWrite (off + 4) v) s = .next { s with hold := SMap.set halfBlank s.hold off (v % 2 ^ 32) }) ∧
    (∀ v, s.hostOk off = true →
      exec (.pairLoWrite off v) s =
        .next (commitPair s off (v % 2 ^ 32 + 2 ^ 32 * SMap.get halfBlank s.hold off) r) ∧
      exec (.registerWrite off 8 255 v) s = .next (commitPair s off (v % 2 ^ 64) r)) ∧
    (∀ (v : Nat) (f : FieldRow), r.fields = [f] → f.acc = .rw → lineAligned off = false →
      (off < 0x410000 ∨ 0x4A0000 ≤ off) →
      (commitPair s off v r).rd ⟨homeOff s off, f.lo, f.width⟩ = bitsOf v f.lo f.width % 2 ^ f.width ∧
      SMap.get halfBlank (commitPair s off v r).hold off = 0 ∧
      s.regsKept (commitPair s off v r) [⟨homeOff s off, f.lo, f.width⟩] ∧
      commitPair s off v r = { s with regs := (commitPair s off v r).regs, hold := (commitPair s off v r).hold }))

/-- A 4-byte write at a multiple of 4 with every byte enabled writes its register: a selector takes its field, a write to a
read-only register changes nothing, a 1 clears an event bit and a 0 leaves it. One with some of its bytes enabled is
discarded, recorded and reported; where no register is implemented a write has no effect. A poisoned write to BAR0 or
BAR2, and a BAR2 write that is neither 4 nor 8 bytes, are discarded too. A discarded write sets PARTIAL, sends the AER
message and changes neither memory nor any engine. -/
def Obligations.RegisterWrites : Prop :=
  ∀ s : State,
  (∀ v, s.hostOk Reg.HIF_RQ_SEL_QUEUE.off = true →
    exec (.registerWrite Reg.HIF_RQ_SEL_QUEUE.off 4 15 v) s = .next (s.wr Reg.HIF_RQ_SEL_QUEUE v)) ∧
  (∀ v, s.hostOk Reg.GEN_ID_FAMILY.off = true → exec (.registerWrite Reg.GEN_ID_FAMILY.off 4 15 v) s = .next s) ∧
  (∀ v, s.hostOk Reg.MEM_IRQ_STATUS_GRANT_DONE.off = true →
    ∃ t, exec (.registerWrite Reg.MEM_IRQ_STATUS_GRANT_DONE.off 4 15 v) s = .next t ∧
      t.rd Reg.MEM_IRQ_STATUS_GRANT_DONE =
        (if bitOf v Reg.MEM_IRQ_STATUS_GRANT_DONE.lo then 0 else s.rd Reg.MEM_IRQ_STATUS_GRANT_DONE) ∧
      t.rd Reg.MEM_IRQ_STATUS_SCRUB_DONE =
        (if bitOf v Reg.MEM_IRQ_STATUS_SCRUB_DONE.lo then 0 else s.rd Reg.MEM_IRQ_STATUS_SCRUB_DONE) ∧ s.onlyRegs t) ∧
  (∀ off be v, s.hostOk off = true → off % 4 = 0 → (wordReg off).isSome = true → 0 < be → be < 15 →
    exec (.registerWrite off 4 be v) s = .next (discardWrite s)) ∧
  (∀ off size be v, s.hostOk off = true → (∀ w ∈ touched off size, wordReg w = none) →
    exec (.registerWrite off size be v) s = .next s) ∧
  (∀ bar size, s.barOk = true → bar = 0 ∨ bar = 2 →
    exec (.poisonedWrite true bar size) s = .next (discardWrite s)) ∧
  (∀ size, s.barOk = true → size ≠ 4 → size ≠ 8 →
    exec (.poisonedWrite false 2 size) s = .next (discardWrite s)) ∧
  (s.live = true → s.chip.d3hot = false → s.vectorsFit →
    (discardWrite s).rd Reg.HIF_IRQ_STATUS_PARTIAL = 1 ∧ .aer ∈ (discardWrite s).out ∧ s.memKept (discardWrite s) ∧
    (discardWrite s).ops = s.ops ∧ (discardWrite s).part0 = s.part0 ∧ (discardWrite s).part1 = s.part1)

/-- Entry to D3hot and the return to D0 change no register, queue, partition, context or memory. In D3hot token, record and
MSI-X writes are held in order and no descriptor is fetched; the return sends what was held, in order. A tier-2 access
that D3hot refuses ends the slots it serves with XLT_E_TIER2, zeros in place of the data. -/
def Obligations.PowerManagementState : Prop :=
  (∀ s : State, s.alive = true → s.chip.linkUp = true →
    exec .d3hotEntry s = .next { s with chip := { s.chip with d3hot := true } }) ∧
  (∀ s : State, s.alive = true → s.chip.d3hot = true → s.safe = false →
    exec .d0Return s = .next { s with
      chip := { s.chip with d3hot := false }, out := s.out ++ s.heldOut, heldOut := [] }) ∧
  (∀ (e : Emit) (s : State), s.chip.tripped = false → s.safe = false → s.chip.d3hot = true → emitToHost e = true →
    s.emit e = { s with heldOut := s.heldOut ++ [e] }) ∧
  (∀ (q : Nat) (s : State), s.chip.d3hot = true → fetchReady s q = false) ∧
  (∀ (p : Nat) (slots : List Nat) (zeros : List ZeroRun) (s : State), p < 2 → s.live = true → s.chip.d3hot = true →
    (s.part p).inStep = true →
    exec (.tierAccessFault p Code.XLT_E_TIER2 slots zeros) s = .next (someFault (zeroRuns s 4
      (zeros.filter (fun z => (s.part p).tiles.contains z.tile))) p slots
      { errOf Code.XLT_E_TIER2 1 with partition := p }))

/-- A class-4 entry whose plane is free and whose bank is not busy puts its page read in flight and counts the entry;
on a plane that is still read the partition stalls for read retry and the entry waits; a busy bank, or a page of an
interrupted block, is a bus fault. A read that ends good, at the first try, counts one read of its block and delivers
its page; with nothing in flight on a plane its end has no effect. A read of a mapped tier-1 page in an interval that R172
permits answers the stored bytes, and one whose access is refused answers zeros. -/
def Obligations.CellarReads : Prop :=
  (∀ (p plane k : Nat) (q : Nat × Nat) (s : State), p < 2 → s.live = true → (s.part p).inStep = true →
    (s.part p).stall = {} → plane < 1024 →
    SMap.get countBlank (s.part p).issued plane <
      ((s.partImage p).entries.filter (fun e => e.cls == 4 && e.index == plane)).length →
    s.bankBusy (plane / 16) = false → s.cel.inFlight.any (fun r => r.plane == plane) = false →
    setOnPlane s p plane = some k → runPage s k plane (SMap.get countBlank (s.part p).issued plane) = some q →
    SMap.get countBlank (s.part p).issued plane < runLen (s.set k) plane →
    ((s.pblock plane (s.physOf plane q.1)).use = 6 →
      exec (.cellarPageRead p plane) s = .next (busFault (s.updPart p (fun y => { y with
        issued := SMap.set countBlank y.issued plane (SMap.get countBlank (s.part p).issued plane + 1) })) p plane)) ∧
    ((s.pblock plane (s.physOf plane q.1)).use ≠ 6 →
      ∃ t, exec (.cellarPageRead p plane) s = .next t ∧
        t.cel.inFlight = s.cel.inFlight ++ [{
          plane := plane
          part := p
          set := k
          n := SMap.get countBlank (s.part p).issued plane }] ∧
        SMap.get countBlank (t.part p).issued plane = SMap.get countBlank (s.part p).issued plane + 1 ∧
        t.regs = s.regs ∧ s.memKept t)) ∧
  (∀ (p plane : Nat) (s : State), p < 2 → s.live = true → (s.part p).inStep = true → (s.part p).stall = {} →
    SMap.get countBlank (s.part p).issued plane <
      ((s.partImage p).entries.filter (fun e => e.cls == 4 && e.index == plane)).length →
    (s.bankBusy (plane / 16) = true → exec (.cellarPageRead p plane) s = .next (busFault s p plane)) ∧
    (s.bankBusy (plane / 16) = false → s.cel.inFlight.any (fun r => r.plane == plane) = true →
      ∃ t, exec (.cellarPageRead p plane) s = .next t ∧ (t.part p).stall.retry = true ∧
        plane ∈ (t.part p).waitPlanes ∧ (t.part p).issued = (s.part p).issued ∧ t.cel = s.cel ∧ s.memKept t)) ∧
  (∀ (plane : Nat) (r : ReadOp) (q : Nat × Nat) (s : State), s.live = true →
    s.cel.inFlight.find? (fun x => x.plane == plane) = some r → runPage s r.set r.plane r.n = some q → r.part < 2 →
    ∃ t, exec (.cellarReadDone plane 0) s = .next t ∧
      t.cel.inFlight = s.cel.inFlight.filter (fun x => x.plane != plane) ∧
      t.rd Reg.CEL_READS = (s.rd Reg.CEL_READS + 1) % 2 ^ Reg.CEL_READS.width ∧ s.regsKept t [Reg.CEL_READS] ∧
      (r.live = true → SMap.get countBlank (t.part r.part).arrived plane = r.n + 1) ∧ s.memKept t) ∧
  (∀ (plane outcome : Nat) (r : ReadOp) (s : State), s.live = true →
    s.cel.inFlight.find? (fun x => x.plane == plane) = some r → runPage s r.set r.plane r.n = none →
    exec (.cellarReadDone plane outcome) s =
      .next { s with cel := { s.cel with inFlight := s.cel.inFlight.filter (fun x => x.plane != plane) } }) ∧
  (∀ (plane outcome : Nat) (s : State), s.live = true → s.cel.inFlight.find? (fun x => x.plane == plane) = none →
    exec (.cellarReadDone plane outcome) s = .next s) ∧
  (∀ (c va n : Nat) (pos : List Nat) (l : Leaf) (q r : Nat × Nat) (s : State), s.live = true →
    (∀ w ∈ s.walks, w.ctx = c → w.leaf.covers va = true → w.leaf = l) → walk s c va false = .ok l → l.tier = 1 →
    dataPage (s.set ((l.addr + (va - l.va)) / 2 ^ 40)).planes (s.set ((l.addr + (va - l.va)) / 2 ^ 40)).pages
      ((l.addr + (va - l.va)) % 2 ^ 40 / 16384) = some q →
    s.bankBusy (q.1 / 16) = false → permits s (q.1 / 16) pos 8000 = true →
    runPage s ((l.addr + (va - l.va)) / 2 ^ 40) q.1 q.2 = some r →
    ∃ t, exec (.tier1Read c va n 0 pos) s = .next t ∧
      t.resp = (tier1Bytes s (l.addr + (va - l.va)) n).map (·.toNat) ∧
      t.rd Reg.CEL_READS = (s.rd Reg.CEL_READS + 1) % 2 ^ Reg.CEL_READS.width ∧
      s.regsKept t [Reg.CEL_READS, Reg.XLT_WALKS] ∧ s.memKept t) ∧
  (∀ (c va n outcome code : Nat) (pos : List Nat) (s : State), s.live = true →
    (∀ w ∈ s.walks, w.ctx = c → w.leaf.covers va = false) → walk s c va false = .no code →
    ∃ t, exec (.tier1Read c va n outcome pos) s = .next t ∧ t.resp = List.replicate n 0 ∧
      s.regsKept t [Reg.XLT_WALKS, Reg.XLT_FAULTS] ∧ t = { s with regs := t.regs, resp := t.resp } ∧ s.memKept t)

/-- A bank with no operation begins a program of the running install, or an erase of a block that waits for one, where no
read of it is in flight and no partition's next read of it comes sooner than the operation's limit; elsewhere the start
does nothing. A program of an install's stripe that ends in time stores the stripe with its parity page, the
exclusive-or of its data pages; one of a relocation notes its time and moves on to the next page; one that overruns
retires its block. An erase that is asked to suspend stays busy until the die has done so; one that ends good counts one
cycle of its block and zeroes its counters; one past its limit retires the block. -/
def Obligations.CellarOperations : Prop :=
  (∀ (b : Nat) (pos : List Nat) (q : Nat × Nat) (s : State), s.live = true → s.bankOp b = none →
    relocOf s b = none → installTarget s b = some q →
    ∀ outcome, exec (.programStart b outcome pos) s = .next (if permits s b pos 900000 then s.setBankOp b (some {
      erase := false
      plane := 16 * b + 15
      block := s.physOf (16 * b + 15) q.1 }) else s)) ∧
  (∀ (b us10 : Nat) (o : BankOp) (r : Reloc) (s : State), s.live = true → s.bankOp b = some o → o.erase = false →
    o.dead = false → us10 ≤ 60 → s.rd Reg.KPR_TRACE_MASK = 0 →
    s.cel.relocs.find? (fun r => r.plane == o.plane && r.dst == o.block) = some r → r.page < 255 →
    ∃ t, exec (.programDone b us10 true) s = .next t ∧ t.bankOp b = none ∧
      t.pblock o.plane o.block = { s.pblock o.plane o.block with prog10us := us10 } ∧
      { r with page := r.page + 1 } ∈ t.cel.relocs ∧ t.cel.data = s.cel.data ∧ t = { s with cel := t.cel }) ∧
  (∀ (b us10 set k l q : Nat) (o : BankOp) (s : State), s.live = true → s.bankOp b = some o → o.erase = false →
    o.dead = false → us10 ≤ 60 → s.rd Reg.KPR_TRACE_MASK = 0 →
    s.cel.relocs.find? (fun r => r.plane == o.plane && r.dst == o.block) = none → s.exp.inst = some (set, k) →
    installTarget s b = some (l, q) → s.exp.todo.filter (fun x => x != (b, l, q)) ≠ [] → b < 64 → l < 120 → q < 256 →
    ∃ t, exec (.programDone b us10 true) s = .next t ∧ t.bankOp b = none ∧
      t.exp.todo = s.exp.todo.filter (fun x => x != (b, l, q)) ∧
      (∀ i, i < 16384 → SMap.get celBlank t.cel.data (celKey (16 * b + 15) l q i) =
        (stripeData b l).foldl (fun v plane => v ^^^ SMap.get celBlank t.cel.data (celKey plane l q i)) 0) ∧
      s.regsKept t [Reg.EXP_INST_PROGRESS] ∧ s.memKept t) ∧
  (∀ (b : Nat) (o : BankOp) (s : State), s.live = true → s.bankOp b = some o → o.erase = false → o.dead = false →
    exec (.programOverrun b) s = .next (programFail s b o none)) ∧
  (∀ (b : Nat) (pos : List Nat) (x : Stale) (s : State), s.live = true → s.bankOp b = none →
    s.cel.stale.find? (fun y => y.plane / 16 == b) = some x →
    exec (.eraseStart b pos) s = .next (if permits s b pos 190000 then s.setBankOp b (some {
      erase := true
      plane := x.plane
      block := x.block }) else s)) ∧
  (∀ (b : Nat) (o : BankOp) (s : State), s.live = true → s.bankOp b = some o → o.erase = true → o.suspended = false →
    o.dead = false →
    exec (.eraseSuspend b) s = .next (s.setBankOp b (some { o with suspending := true })) ∧
    (o.suspending = true →
      exec (.eraseSuspended b) s = .next (s.setBankOp b (some { o with suspending := false, suspended := true }))) ∧
    exec (.eraseOverrun b) s = .next (dropStale (retire (s.setBankOp b none) o.plane o.block Code.CEL_E_ERASE)
      o.plane o.block) ∧
    (s.cel.stale.find? (fun x => x.plane == o.plane && x.block == o.block) = none →
      ∃ t, exec (.eraseDone b true) s = .next t ∧ t.bankOp b = none ∧
        (t.pblock o.plane o.block).pe = (s.pblock o.plane o.block).pe + 1 ∧
        (t.pblock o.plane o.block).sweeps = 0 ∧ (t.pblock o.plane o.block).queued = 0 ∧
        s.regsKept t [Reg.CEL_ERASES] ∧ s.memKept t))

/-- A block whose counter has reached its threshold is queued for relocation, and one at 1.5 times it is queued at once and
its bank holds the partitions that read it. Checkpoints keep every counter; a shutdown checkpoint while the brake is stuck marks the shutdown
orderly. THRESH_K is clamped to 1,000 to 6,000. A query of a physical block answers its counters, state and stage. The
start, once the tiles have started, ends ready, and with a bad calibration row in PHASE 5. -/
def Obligations.CellarUpkeep : Prop :=
  (∀ (plane b : Nat) (s : State), s.live = true → (s.pblock plane b).use = 1 → (s.pblock plane b).queued = 0 →
    (s.pblock plane b).stage = 0 → refreshAt s ≤ sweepsOf s (s.pblock plane b) →
    exec (.refreshThreshold plane b) s = .next (s.updBlock plane b (fun y => { y with queued := 1 }))) ∧
  (∀ (plane b : Nat) (s : State), s.live = true → (s.pblock plane b).use = 1 →
    3 * refreshAt s ≤ 2 * sweepsOf s (s.pblock plane b) →
    ∃ t, exec (.forcedRelocation plane b) s = .next t ∧ (t.pblock plane b).queued ≠ 0 ∧
      plane / 16 ∈ t.cel.forced ∧ t.cel.data = s.cel.data ∧ t = { s with cel := t.cel }) ∧
  (∀ s : State, s.live = true →
    ∃ t, exec .disturbCheckpoint s = .next t ∧ t.cel.orderly = false ∧
      (∀ e ∈ t.cel.blocks, e.2.ckpt = e.2.sweeps) ∧ t.cel.data = s.cel.data ∧ t = { s with cel := t.cel }) ∧
  (∀ s : State, s.live = true → s.pwr.brakeStuck = true →
    ∃ t, exec .shutdownCheckpoint s = .next t ∧ t.cel.orderly = true ∧
      (∀ e ∈ t.cel.blocks, e.2.ckpt = e.2.sweeps) ∧ t.cel.data = s.cel.data ∧ t = { s with cel := t.cel }) ∧
  (∀ (v : Nat) (s : State), s.hostOk Reg.CEL_DISTURB_CFG_THRESH_K.off = true →
    exec (.threshKWrite v) s = .next (s.wr Reg.CEL_DISTURB_CFG_THRESH_K (min (max v 1000) 6000))) ∧
  (∀ (plane b : Nat) (s : State), s.hostOk Reg.CEL_BQ_SEL_PLANE.off = true → s.ready = true → plane < 1024 → b < 128 →
    ∃ t, exec (.blockQuery plane true b) s = .next t ∧
      t.rd Reg.CEL_BQ_DATA0_PE = min (s.pblock plane b).pe 65535 ∧
      t.rd Reg.CEL_BQ_DATA0_SWEEPS_K = min (sweepsOf s (s.pblock plane b) / 1000) 65535 ∧
      t.rd Reg.CEL_BQ_DATA1_PBLOCK = b ∧ s.onlyRegs t) ∧
  (∀ (bad : List Nat) (scan : Bool) (lost factory : List (Nat × Nat)) (s : State), s.live = true → s.ready = true → s.chip.tilesStarted = 32 →
    s.rd Reg.CEL_STATUS_PHASE = 0 →
    (∀ d l, exec (.cellarStart (d :: l) bad scan lost factory) s = .next (((s.wr Reg.CEL_STATUS_PHASE 5).report
      (errOf Code.CEL_E_CALIB 0)).raiseCel Reg.CEL_IRQ_STATUS_READY)) ∧
    (s.vectorsFit → s.cel.bankOps = [] → s.cel.relocs = [] →
      ∃ t, exec (.cellarStart [] bad false lost factory) s = .next t ∧ t.rd Reg.CEL_STATUS_PHASE = 4 ∧
        t.rd Reg.CEL_IRQ_STATUS_READY = 1 ∧ t.cel.orderly = false ∧
        t.cel.margin = s.cel.margin + (if s.cel.orderly then 0 else 30000) ∧ s.memKept t))

/-- A rebuilt block of a running step leaves its expander's buffer, which then takes blocks that waited for room, is counted
and joins its array's rack, and nothing of memory changes; a block of a step that was abandoned is counted and discarded; with two blocks in the rack it waits. A
malformed delta block and one whose epoch no table slot carries are rebuilt as zeros with EXP_E_DECODE and EXP_E_EPOCH.
A weight that is no escape lies between −7 and 7, and a rebuilt delta block is 2,048 bytes. -/
def Obligations.BlockRebuild : Prop :=
  (∀ (arr p : Nat) (b : BufBlock) (more : List BufBlock) (s : State), s.live = true → arr < 64 →
    s.exp.buffered.filter (fun x => x.arr == arr) = b :: more → partOfTile s (arr / 2) = some p → b.live = true →
    ((s.tile (arr / 2)).arr (arr % 2)).rack.length < 2 → (s.part p).waitRacks = [] →
    (rebuild s b.set b.base b.block).fault = none →
    ∃ t, exec (.blockRebuild arr false false) s = .next t ∧
      dropBuffered 1 arr s.exp.buffered <+: t.exp.buffered ∧ t.exp = { s.exp with buffered := t.exp.buffered } ∧
      ((t.tile (arr / 2)).arr (arr % 2)).rack = ((s.tile (arr / 2)).arr (arr % 2)).rack ++ [{
        block := b.block, bytes := (rebuild s b.set b.base b.block).bytes
        trailer := (rebuild s b.set b.base b.block).trailer }] ∧
      t.rd Reg.EXP_BLOCKS = (s.rd Reg.EXP_BLOCKS + 1) % 2 ^ Reg.EXP_BLOCKS.width ∧
      s.regsKept t [Reg.EXP_BLOCKS, Reg.EXP_EXC, Reg.EXP_ESCAPES, Reg.EXP_CLAMPS] ∧
      (∀ k, k < 2 → t.part k = { s.part k with seqNo := (t.part k).seqNo, late := (t.part k).late }) ∧
      t = { s with regs := t.regs, exp := t.exp, tiles := t.tiles, part0 := t.part0, part1 := t.part1 }) ∧
  (∀ (arr p : Nat) (pair bad : Bool) (b : BufBlock) (more : List BufBlock) (s : State), s.live = true →
    s.exp.buffered.filter (fun x => x.arr == arr) = b :: more → partOfTile s (arr / 2) = some p →
    (b.live = false → exec (.blockRebuild arr pair bad) s = .next (overList [0, 1]
      (fun p t => bufferAll (bufferLate t p) p) (discardBlock { s with exp := { s.exp with
        buffered := dropBuffered 1 arr s.exp.buffered } } b bad))) ∧
    (b.live = true → 2 ≤ ((s.tile (arr / 2)).arr (arr % 2)).rack.length →
      exec (.blockRebuild arr pair bad) s = .next (overList [0, 1] (fun p t => bufferAll (bufferLate t p) p) s))) ∧
  (∀ (set j : Nat) (base : Option Nat) (s : State), 2 ≤ (s.set set).form →
    bitOf ((s.set set).index.getD j 0) 63 = false →
    (malformed (s.set set).form j (blockOf s set j) = true →
      rebuild s set base j = zeroBlock Code.EXP_E_DECODE) ∧
    (malformed (s.set set).form j (blockOf s set j) = false →
      tableSlot s (nth (blockOf s set j) 1) (nth (blockOf s set j) 2) = none →
      rebuild s set base j = zeroBlock Code.EXP_E_EPOCH)) ∧
  (∀ (form : Nat) (table base bs sides : List Nat) (pos : Nat), nth bs (0x80 + wordOf form pos) ≠ 0xFF →
    -7 ≤ (deltaCode form table base bs sides pos).1 ∧ (deltaCode form table base bs sides pos).1 ≤ 7) ∧
  (∀ (form : Nat) (table base bs : List Nat), (deltaBlock form table base bs).bytes.length = 2048 ∧
    ∀ b ∈ (deltaBlock form table base bs).bytes, b < 256)

/-- A load command on a table slot that nothing refers to, with an epoch not 0 and not the other slot's, from the host,
sets BUSY and clears CODE; while a load runs another only stores its fields; a slot in use is refused with
EXP_E_SLOT_BUSY. The image's arrival with the length and CRC it should have writes the table and its tag, and a load
from a set that image of the set; a bad CRC and a DMA error leave table and tag as they were. -/
def Obligations.DecodeTables : Prop :=
  (∀ (set id slot epoch : Nat) (s : State), s.hostOk Reg.EXP_TBL_CMD_SET.off = true → s.ready = true →
    s.exp.tblBusy = false → id < 32 → slot < 2 → 0 < epoch → epoch < 256 → tableRefs s id slot = 0 →
    s.rd (tagFld id (1 - slot)) ≠ epoch →
    ∃ t, exec (.tableLoad false set id slot epoch) s = .next t ∧ t.rd Reg.EXP_TBL_STATUS_BUSY = 1 ∧
      t.rd Reg.EXP_TBL_STATUS_CODE = 0 ∧ t.exp = { s.exp with
        tblBusy := true, tblSet := none, tblId := id, tblSlot := slot, tblEpoch := epoch } ∧
      t = { s with regs := t.regs, exp := t.exp }) ∧
  (∀ (fromSet : Bool) (set id slot epoch : Nat) (s : State), s.hostOk Reg.EXP_TBL_CMD_SET.off = true →
    s.ready = true → s.exp.tblBusy = true →
    exec (.tableLoad fromSet set id slot epoch) s = .next (s.wrs [(Reg.EXP_TBL_CMD_FROM_SET, b2n fromSet),
      (Reg.EXP_TBL_CMD_SET, set), (Reg.EXP_TBL_CMD_TABLE_ID, id), (Reg.EXP_TBL_CMD_SLOT, slot),
      (Reg.EXP_TBL_CMD_EPOCH, epoch)])) ∧
  (∀ (image : List Byte) (s : State), s.live = true → s.exp.tblBusy = true → s.exp.tblSet = none →
    image.length = 2048 → crc32c image = s.rd Reg.EXP_TBL_CRC_CRC → s.exp.tblId < 32 → s.exp.tblSlot < 2 →
    s.exp.tblEpoch < 256 → s.vectorsFit →
    ∃ t, exec (.tableLoadDone image false) s = .next t ∧
      t.table s.exp.tblId s.exp.tblSlot = image.map (·.toNat) ∧
      t.rd (tagFld s.exp.tblId s.exp.tblSlot) = s.exp.tblEpoch ∧ t.rd Reg.EXP_TBL_STATUS_BUSY = 0 ∧
      t.rd Reg.EXP_TBL_STATUS_CODE = 0 ∧ t.exp.tblBusy = false ∧ s.memKept t) ∧
  (∀ (image : List Byte) (s : State), s.live = true → s.exp.tblBusy = true → s.exp.tblSet = none →
    exec (.tableLoadDone image true) s = .next (tableEnd s Code.EXP_E_DMA) ∧
    (image.length ≠ 2048 ∨ crc32c image ≠ s.rd Reg.EXP_TBL_CRC_CRC →
      exec (.tableLoadDone image false) s = .next (tableEnd s Code.EXP_E_TABLE))) ∧
  (∀ (code : Nat) (s : State), (tableEnd s code).exp.tables = s.exp.tables ∧ s.memKept (tableEnd s code))

/-- An install of a FREE set whose metadata pass, with room for its index and its blocks, allocates its numbers and awaits
its first shard; metadata that fail end it with EXP_E_IMAGE and a DMA error with EXP_E_DMA, the set FREE. A shard with the
length and digest it should have is staged and its stripes are due; while one is due the next shard waits; with the
last stripe of a shard the next is due, or after the last shard the set is READY; a wrong digest fails the install; an
abort ends it at the shard boundary. Removal of a set that nothing points to and that is no base puts it in
REMOVING and returns its blocks; one in use is refused. OP 3 is refused with EXP_E_IMAGE. -/
def Obligations.SetInstallation : Prop :=
  (∀ (set : Nat) (list : Bool) (head : List Byte) (d k : List (Nat × Nat)) (s : State), set < 64 →
    s.hostOk Reg.EXP_INST_CMD_OP.off = true → s.ready = true → instRuns s = false → (s.set set).state = 0 →
    metaGood head (readMeta head) = true →
    indexBytes s + 8 * (readMeta head).core.blocks ≤ indexRoom (s.rd Reg.MEM_CFG_SETREC_GIB) →
    dataAlloc s (readMeta head).core = some d → metaAlloc s (readMeta head).core d (metaBytes (readMeta head).core) = some k →
    ∃ t, exec (.install set list head false) s = .next t ∧ t.exp.inst = some (set, 0) ∧
      t.rd Reg.EXP_INST_STATUS_STATE = 2 ∧ t.rd Reg.EXP_INST_STATUS_CODE = 0 ∧ t.rd Reg.EXP_INST_PROGRESS = 0 ∧
      t.set set = { (readMeta head).core with lblocks := sumNat ((d ++ k).map (fun q => numberPlanes q.2)) } ∧
      (∀ n, n ≠ set → t.set n = s.set n) ∧ t = { s with regs := t.regs, exp := t.exp, cel := t.cel }) ∧
  (∀ (set : Nat) (list : Bool) (head : List Byte) (s u : State), set < 64 →
    s.hostOk Reg.EXP_INST_CMD_OP.off = true → s.ready = true → instRuns s = false → (s.set set).state = 0 →
    u = (instCmd s 0 list set).wrs [(Reg.EXP_INST_STATUS_STATE, 1), (Reg.EXP_INST_STATUS_SET, set),
      (Reg.EXP_INST_STATUS_CODE, 0), (Reg.EXP_INST_PROGRESS, 0)] →
    exec (.install set list head true) s = .next (instEnd u Code.EXP_E_DMA) ∧
    (metaGood head (readMeta head) = false →
      exec (.install set list head false) s = .next (instEnd u Code.EXP_E_IMAGE))) ∧
  (∀ (set k : Nat) (data digest : List Byte) (s : State), s.live = true → s.exp.inst = some (set, k) →
    (s.exp.todo ≠ [] → ∀ fault, exec (.installShard data digest fault) s = .next s) ∧
    (s.exp.todo = [] →
      exec (.installShard data digest true) s = .next (instFail s set Code.EXP_E_DMA) ∧
      (data.length ≠ min (2 ^ 26) ((s.set set).dataBytes - k * 2 ^ 26) ∨ shake256 data ≠ digest →
        exec (.installShard data digest false) s =
          .next (instFail (s.raiseExp Reg.EXP_IRQ_STATUS_DIGEST_FAIL) set Code.EXP_E_DIGEST)) ∧
      (data.length = min (2 ^ 26) ((s.set set).dataBytes - k * 2 ^ 26) → shake256 data = digest →
        shardStripes s set k (ceilDiv data.length 16384) ≠ [] →
        ∃ t, exec (.installShard data digest false) s = .next t ∧ t.exp.shard = data ∧
          t.exp.todo = shardStripes s set k (ceilDiv data.length 16384) ∧ t.exp.inst = some (set, k) ∧
          t.set set = { s.set set with digests := (s.set set).digests ++ [digest] } ∧ t = { s with exp := t.exp }))) ∧
  (∀ (b us10 set k l q : Nat) (o : BankOp) (s : State), s.live = true → s.bankOp b = some o → o.erase = false →
    o.dead = false → us10 ≤ 60 → s.rd Reg.KPR_TRACE_MASK = 0 →
    s.cel.relocs.find? (fun r => r.plane == o.plane && r.dst == o.block) = none → s.exp.inst = some (set, k) →
    s.exp.todo = [(b, l, q)] →
    (s.exp.instAbort = true → s.vectorsFit →
      ∃ t, exec (.programDone b us10 true) s = .next t ∧ t.exp.inst = none ∧ t.exp.todo = [] ∧
        t.exp.instAbort = false ∧ t.rd Reg.EXP_INST_STATUS_CODE = Code.EXP_E_ABORTED ∧
        t.rd Reg.EXP_IRQ_STATUS_INST_DONE = 1 ∧ s.memKept t) ∧
    (s.exp.instAbort = false →
      ∃ t, exec (.programDone b us10 true) s = .next t ∧ t.exp.todo = [] ∧ t.exp.shard = [] ∧
        t.rd Reg.EXP_INST_PROGRESS = (s.rd Reg.EXP_INST_PROGRESS + 16384 * shardPages s set k b l q) %
          2 ^ Reg.EXP_INST_PROGRESS.width ∧
        (k + 1 < shardCount (s.set set) → t.exp.inst = some (set, k + 1)) ∧
        (shardCount (s.set set) ≤ k + 1 → t.exp.inst = none ∧ (t.set set).state = 3))) ∧
  (∀ (set k : Nat) (s : State), s.hostOk Reg.EXP_INST_CMD_OP.off = true → s.exp.inst = some (set, k) →
    exec .installAbort s = .next { s with exp := { s.exp with instAbort := true } }) ∧
  (∀ (set : Nat) (s u : State), set < 64 → s.hostOk Reg.EXP_INST_CMD_OP.off = true → s.ready = true →
    instRuns s = false →
    u = (instCmd s 1 false set).wrs [(Reg.EXP_INST_STATUS_SET, set), (Reg.EXP_INST_STATUS_CODE, 0)] →
    (setPointed s set = true ∨ isBase s set = true →
      exec (.setRemove set) s = .next (instEnd u Code.EXP_E_SET_BUSY)) ∧
    (setPointed s set = false → isBase s set = false → (s.set set).state = 3 →
      exec (.setRemove set) s = .next (returnBlocks ((u.setSet set { s.set set with state := 5 }).wr
        Reg.EXP_INST_STATUS_STATE 3) set)) ∧
    exec (.instOpRefused set) s = .next (instEnd ((instCmd s 3 false set).wr Reg.EXP_INST_STATUS_SET set)
      Code.EXP_E_IMAGE))

/-- A re-check of a READY set sweeps its blocks once and ends with code 0 where the set matches its digests, and else with
EXP_E_DIGEST and the set impaired. A periodic pass over READY sets that match clears the age of every one and sets
RECHECK_DONE. At the start, with the Cellar mounted and Keeper ready, a READY set whose metadata match stays, a set in
CHECKING whose shards match too is READY, a set that does not match is impaired, and the check is done. -/
def Obligations.SetChecks : Prop :=
  (∀ (set : Nat) (bad : Bool) (s u : State), set < 64 → s.hostOk Reg.EXP_INST_CMD_OP.off = true → s.ready = true →
    instRuns s = false → (s.set set).state = 3 →
    u = passSet ((instCmd s 2 false set).wr Reg.EXP_INST_STATUS_SET set) set →
    (metaWrong s set bad = false → shardsWrong s set false = false →
      exec (.recheckNow set bad) s = .next (instEnd u 0)) ∧
    (metaWrong s set bad = true ∨ shardsWrong s set false = true →
      exec (.recheckNow set bad) s = .next (instEnd (digestFail u set) Code.EXP_E_DIGEST))) ∧
  (∀ (n : Nat) (s : State), s.live = true → s.ready = true → n < 64 → (s.set n).state = 3 →
    ageHours s ≤ s.rd Reg.EXP_RECHECK_CFG_HOURS → s.vectorsFit →
    (∀ k, k < 64 → (s.set k).state = 3 → metaWrong s k false = false ∧ shardsWrong s k false = false) →
    ∃ t, exec (.periodicRecheck []) s = .next t ∧ ageHours t = 0 ∧ t.rd Reg.EXP_IRQ_STATUS_RECHECK_DONE = 1 ∧
      (∀ k, k < 64 → (s.set k).state = 3 → t.set k = { s.set k with passKc := s.timeKc }) ∧
      (∀ k, (s.set k).state ≠ 3 → t.set k = s.set k) ∧ s.memKept t) ∧
  (∀ s : State, s.live = true → s.ready = true → s.rd Reg.CEL_STATUS_PHASE = 4 →
    (∀ n, n < 64 → (s.set n).state = 0) →
    exec (.setCheck [] []) s = .next { s with chip := { s.chip with setsChecked := true } }) ∧
  (∀ (n : Nat) (bad : List Nat) (s : State), s.live = true → s.ready = true → s.rd Reg.CEL_STATUS_PHASE = 4 → n < 64 →
    (s.set n).state = 2 ∨ (s.set n).state = 3 → (∀ k, k < 64 → k ≠ n → (s.set k).state = 0) →
    (metaWrong s n (bad.contains n) = true → exec (.setCheck bad []) s =
      .next { digestFail (sweepMeta s n) n with chip := { (digestFail (sweepMeta s n) n).chip with setsChecked := true } }) ∧
    (metaWrong s n (bad.contains n) = false → (s.set n).state = 3 → exec (.setCheck bad []) s =
      .next { sweepMeta s n with chip := { s.chip with setsChecked := true } }) ∧
    (metaWrong s n (bad.contains n) = false → (s.set n).state = 2 → shardsWrong s n false = false →
      exec (.setCheck bad []) s = .next { (sweepData (sweepMeta s n) n).setSet n { s.set n with
        state := 3, passKc := s.timeKc } with chip := { s.chip with setsChecked := true } }))

/-- Setting a model slot that no running partition uses to a READY set takes effect at once: VALID and SET. In use, a set
that fits is pending as NEXT_SET while the partitions run their steps, and one that does not fit is refused with
EXP_E_SWAP and the slot unchanged; so is a set that is not READY. Clearing an unused slot empties it; one in use is
refused with EXP_E_SET_BUSY. -/
def Obligations.ModelSlots : Prop :=
  ∀ (m set : Nat) (s : State), m < 64 → set < 64 → s.hostOk Reg.EXP_MSLOT_CMD_SET.off = true → s.ready = true →
  ((s.set set).state = 3 → slotUsers s m = [] →
    ∃ t, exec (.modelSlotSet m set) s = .next t ∧ t.rd (Reg.EXP_MSLOT_VALID m) = 1 ∧
      t.rd (Reg.EXP_MSLOT_SET m) = set ∧ t.rd Reg.EXP_MSLOT_STATUS_CODE = 0 ∧
      s.regsKept t [Reg.EXP_MSLOT_CMD_CLEAR, Reg.EXP_MSLOT_CMD_MODEL_SLOT, Reg.EXP_MSLOT_CMD_SET,
        Reg.EXP_MSLOT_STATUS_CODE, Reg.EXP_MSLOT_VALID m, Reg.EXP_MSLOT_SET m] ∧ s.onlyRegs t) ∧
  ((s.set set).state = 3 → slotUsers s m ≠ [] → swapFits s m set = true →
    (∀ p ∈ slotUsers s m, (s.part p).stage ≠ .waiting) →
    ∃ t, exec (.modelSlotSet m set) s = .next t ∧ t.rd (Reg.EXP_MSLOT_PENDING m) = 1 ∧
      t.rd (Reg.EXP_MSLOT_NEXT_SET m) = set ∧ t.rd (Reg.EXP_MSLOT_SET m) = s.rd (Reg.EXP_MSLOT_SET m) ∧
      s.onlyRegs t) ∧
  ((s.set set).state ≠ 3 ∨ (slotUsers s m ≠ [] ∧ swapFits s m set = false) →
    ∃ t, exec (.modelSlotSet m set) s = .next t ∧ t.rd Reg.EXP_MSLOT_STATUS_CODE = Code.EXP_E_SWAP ∧
      s.regsKept t [Reg.EXP_MSLOT_CMD_CLEAR, Reg.EXP_MSLOT_CMD_MODEL_SLOT, Reg.EXP_MSLOT_CMD_SET,
        Reg.EXP_MSLOT_STATUS_CODE] ∧ s.onlyRegs t) ∧
  (slotUsers s m = [] →
    ∃ t, exec (.modelSlotClear m) s = .next t ∧ t.rd (Reg.EXP_MSLOT_VALID m) = 0 ∧ t.rd (Reg.EXP_MSLOT_SET m) = 0 ∧
      t.rd (Reg.EXP_MSLOT_PENDING m) = 0 ∧ t.rd Reg.EXP_MSLOT_STATUS_CODE = 0 ∧ s.onlyRegs t) ∧
  (slotUsers s m ≠ [] →
    ∃ t, exec (.modelSlotClear m) s = .next t ∧ t.rd Reg.EXP_MSLOT_STATUS_CODE = Code.EXP_E_SET_BUSY ∧
      t.rd (Reg.EXP_MSLOT_VALID m) = s.rd (Reg.EXP_MSLOT_VALID m) ∧
      t.rd (Reg.EXP_MSLOT_SET m) = s.rd (Reg.EXP_MSLOT_SET m) ∧ s.onlyRegs t)

/-- With Keeper ready, a grant of free granules to a registered context makes it the owner of each and of no other, and a
revoke of granules that it owns and nothing pins leaves them awaiting scrub; a grant of a granule that is not free and a
revoke of one that is not the context's are refused with MEM_E_GRANULE, and owners stay. A query shows the owner of
FIRST. A scrub zeroes the lowest awaiting granule and nothing else and frees it. None but the scrub changes memory. -/
def Obligations.Granules : Prop :=
  (∀ (ctx first count : Nat) (s : State), ctx < 4096 → s.hostOk Reg.MEM_GRANT_CMD_OP.off = true → s.ready = true →
    s.vectorsFit → first = s.rd Reg.MEM_GRANT_FIRST_FIRST → count = s.rd Reg.MEM_GRANT_COUNT_COUNT →
    grantBad s ctx first count = false →
    (granCount s first count (fun _ => true) = 0 →
      ∃ t, exec (.grant ctx) s = .next t ∧ t.rd Reg.MEM_GRANT_STATUS_CODE = 0 ∧
        t.rd Reg.MEM_IRQ_STATUS_GRANT_DONE = 1 ∧
        (∀ g, first ≤ g → g < first + count → t.granule g = .owned ctx) ∧
        (∀ g, (g < first ∨ first + count ≤ g) → t.granule g = s.granule g) ∧ s.memKept t ∧ t.ops = s.ops) ∧
    (granCount s first count (fun _ => true) ≠ 0 →
      ∃ t, exec (.grant ctx) s = .next t ∧ t.rd Reg.MEM_GRANT_STATUS_CODE = Code.MEM_E_GRANULE ∧ t.gran = s.gran ∧
        s.memKept t) ∧
    (granCount s first count (fun v => v == .owned ctx) = count → runPinned s ctx first count = false →
      ∃ t, exec (.revoke ctx) s = .next t ∧ t.rd Reg.MEM_GRANT_STATUS_CODE = 0 ∧
        (∀ g, first ≤ g → g < first + count → t.granule g = .scrub none) ∧
        (∀ g, (g < first ∨ first + count ≤ g) → t.granule g = s.granule g) ∧ s.memKept t ∧ t.ops = s.ops) ∧
    (granCount s first count (fun v => v == .owned ctx) ≠ count →
      ∃ t, exec (.revoke ctx) s = .next t ∧ t.rd Reg.MEM_GRANT_STATUS_CODE = Code.MEM_E_GRANULE ∧ t.gran = s.gran ∧
        s.memKept t)) ∧
  (∀ (ctx : Nat) (s : State), s.hostOk Reg.MEM_GRANT_CMD_OP.off = true → s.ready = true → s.vectorsFit →
    (∀ c, c < 4096 → s.granule (s.rd Reg.MEM_GRANT_FIRST_FIRST) = .owned c →
      ∃ t, exec (.grantQuery ctx) s = .next t ∧ t.rd Reg.MEM_GRANT_STATUS_OWNED = 1 ∧
        t.rd Reg.MEM_GRANT_STATUS_OWNER = c ∧ t.rd Reg.MEM_GRANT_STATUS_CODE = 0 ∧ t.gran = s.gran ∧ s.memKept t) ∧
    (s.granule (s.rd Reg.MEM_GRANT_FIRST_FIRST) = .free →
      ∃ t, exec (.grantQuery ctx) s = .next t ∧ t.rd Reg.MEM_GRANT_STATUS_OWNED = 0 ∧
        t.rd Reg.MEM_GRANT_STATUS_CODE = 0 ∧ t.gran = s.gran ∧ s.memKept t) ∧
    (∃ t, exec (.grantOpRefused ctx) s = .next t ∧ t.rd Reg.MEM_GRANT_STATUS_CODE = Code.MEM_E_GRANULE ∧
      t.gran = s.gran ∧ s.memKept t)) ∧
  (∀ (g : Nat) (s : State), s.live = true → nextScrub s = some g → s.granule g = .scrub none → s.vectorsFit →
    ∃ t, exec .scrubGranule s = .next t ∧ t.granule g = .free ∧ (∀ h, h ≠ g → t.granule h = s.granule h) ∧
      (∀ a, g * 2 ^ 21 ≤ a → a < (g + 1) * 2 ^ 21 → t.byteAt a = 0) ∧ s.memKeptBut t (g * 2 ^ 21) (2 ^ 21) ∧
      t.rd Reg.MEM_SCRUB_BYTES = (s.rd Reg.MEM_SCRUB_BYTES + 2 ^ 21) % 2 ^ Reg.MEM_SCRUB_BYTES.width ∧ t.ops = s.ops)

/-- SETREC_GIB is stored as 1 to 6 where no owned or awaiting granule would lie above the smaller space, no install runs and
the index copies fit. XLT_INVALIDATE drops every cached walk of its context and none of another. A read through a
disabled BAR4 window answers zeros; one that the walk refuses, or that meets an uncorrectable line, answers zeros and
records why; one of a tier-0 page answers its bytes, and a write of such a page stores its bytes there and nowhere else. -/
def Obligations.RegionsAndWindow : Prop :=
  (∀ (gib : Nat) (s : State), s.hostOk Reg.MEM_CFG_SETREC_GIB.off = true → 1 ≤ gib → gib ≤ 6 →
    usedAbove s (granAvailOf (s.rd Reg.ITN_CFG_SLOT_SIZE) gib) = false → s.exp.inst = none → s.exp.removing = none →
    indexBytes s ≤ indexRoom gib →
    ∃ t, exec (.setrecWrite gib) s = .next t ∧ t.rd Reg.MEM_CFG_SETREC_GIB = gib ∧
      s.regsKept t [Reg.MEM_CFG_SETREC_GIB] ∧ s.onlyRegs t) ∧
  (∀ (ctx : Nat) (s : State), ctx < 4096 → s.hostOk Reg.XLT_INV_CMD_CONTEXT.off = true →
    ∃ t, exec (.xltInvalidate ctx) s = .next t ∧ (∀ c ∈ t.walks, c.ctx ≠ ctx) ∧
      (∀ c ∈ s.walks, c.ctx ≠ ctx → c ∈ t.walks) ∧ (∀ c ∈ t.walks, c ∈ s.walks) ∧
      s.regsKept t [Reg.XLT_INV_CMD_CONTEXT] ∧ t = { s with regs := t.regs, walks := t.walks }) ∧
  (∀ (off n corr : Nat) (ext : List Byte) (fail : Bool) (s : State), s.barOk = true →
    s.flag Reg.XLT_BAR4_CTRL_ENABLE = false →
    exec (.bar4Access false off n ext fail corr) s = .next { countCorr s corr with resp := List.replicate n 0 } ∧
    exec (.bar4Access true off n ext fail corr) s = .next (countCorr s corr)) ∧
  (∀ (off n c corr : Nat) (bs : List Byte) (fail : Bool) (s : State), s.barOk = true →
    s.flag Reg.XLT_BAR4_CTRL_ENABLE = true → s.walks = [] → c < 2 ^ 16 →
    walk s (s.rd Reg.XLT_BAR4_CTRL_CONTEXT) (bar4Va s off) false = .no c →
    ∃ t, exec (.bar4Access false off n bs fail corr) s = .next t ∧ t.resp = List.replicate n 0 ∧
      t.rd Reg.XLT_BAR4_STATUS_FAULT = 1 ∧ t.rd Reg.XLT_BAR4_STATUS_CODE = c ∧
      s.regsKept t [Reg.MEM_DRAM_CORR, Reg.XLT_WALKS, Reg.XLT_FAULTS, Reg.XLT_BAR4_STATUS_FAULT,
        Reg.XLT_BAR4_STATUS_CODE] ∧
      t = { s with regs := t.regs, resp := t.resp }) ∧
  (∀ (off n corr : Nat) (l : Leaf) (ext : List Byte) (s : State), s.barOk = true →
    s.flag Reg.XLT_BAR4_CTRL_ENABLE = true → s.walks = [] → l.tier = 0 →
    walk s (s.rd Reg.XLT_BAR4_CTRL_CONTEXT) (bar4Va s off) false = .ok l →
    (∃ t, exec (.bar4Access false off n ext false corr) s = .next t ∧
      t.resp = (s.mread (l.addr + (bar4Va s off - l.va)) n).map (fun b => b.toNat) ∧
      t.rd Reg.MEM_DRAM_CORR = (s.rd Reg.MEM_DRAM_CORR + corr) % 2 ^ Reg.MEM_DRAM_CORR.width ∧
      s.regsKept t [Reg.MEM_DRAM_CORR, Reg.XLT_WALKS] ∧ t = { s with regs := t.regs, resp := t.resp, walks := t.walks }) ∧
    (∃ t, exec (.bar4Access false off n ext true corr) s = .next t ∧ t.resp = List.replicate n 0 ∧
      t.rd Reg.MEM_DRAM_UNCORR = (s.rd Reg.MEM_DRAM_UNCORR + 1) % 2 ^ Reg.MEM_DRAM_UNCORR.width ∧
      t.rd Reg.XLT_BAR4_STATUS_FAULT = 1 ∧ t.rd Reg.XLT_BAR4_STATUS_CODE = Code.XLT_E_UNCORR ∧
      t = { s with regs := t.regs, resp := t.resp, walks := t.walks })) ∧
  (∀ (off n corr : Nat) (l : Leaf) (bs : List Byte) (s : State), s.barOk = true →
    s.flag Reg.XLT_BAR4_CTRL_ENABLE = true → s.walks = [] → s.mig = none → s.holdRanges = [] → l.tier = 0 →
    walk s (s.rd Reg.XLT_BAR4_CTRL_CONTEXT) (bar4Va s off) true = .ok l →
    ∃ t, exec (.bar4Access true off n bs false corr) s = .next t ∧
      t.mread (l.addr + (bar4Va s off - l.va)) bs.length = bs ∧
      s.memKeptBut t (l.addr + (bar4Va s off - l.va)) bs.length ∧
      s.regsKept t [Reg.MEM_DRAM_CORR, Reg.XLT_WALKS] ∧ t.ops = s.ops)

/-- A migration whose pages are present leaves of one size, to tier 0 granules that its context owns, starts with BUSY set
and its counters 0; one while another runs, and one to tier 1 or 3, are refused with MEM_E_MIGRATE. Its next page is
marked first; a page that may move is then copied, its entry replaced by a booking that checks it, and counted, and one
that has been pinned since is skipped; a failed access, and a read of host memory in D3hot, end the migration with the
code of the tier. An abort ends it at once between pages and after the page in hand. -/
def Obligations.Migration : Prop :=
  (∀ (ctx : Nat) (l : Leaf) (s : State), ctx < 4096 → s.hostOk Reg.MEM_MIG_CMD_CONTEXT.off = true → s.ready = true →
    s.mig = none → 0 < s.rd Reg.MEM_MIG_PAGES_PAGES → s.rd Reg.MEM_MIG_PAGES_PAGES ≤ 2 ^ 20 →
    s.rd Reg.MEM_MIG_VA < 2 ^ 52 → s.rd Reg.MEM_MIG_DST < 2 ^ 52 → walk s ctx (s.rd Reg.MEM_MIG_VA) false = .ok l →
    migPages s ctx (s.rd Reg.MEM_MIG_VA) l.size (s.rd Reg.MEM_MIG_PAGES_PAGES) = true →
    s.rd Reg.MEM_MIG_VA % l.size = 0 → s.rd Reg.MEM_MIG_DST % l.size = 0 →
    s.rd Reg.MEM_MIG_DST + s.rd Reg.MEM_MIG_PAGES_PAGES * l.size ≤ 2 ^ 52 →
    ownsRange s ctx (s.rd Reg.MEM_MIG_DST) (s.rd Reg.MEM_MIG_PAGES_PAGES * l.size) = true →
    ∃ t, exec (.migrate 0 ctx) s = .next t ∧ t.rd Reg.MEM_MIG_STATUS_BUSY = 1 ∧ t.rd Reg.MEM_MIG_STATUS_CODE = 0 ∧
      t.rd Reg.MEM_MIG_MOVED_PAGES = 0 ∧ t.rd Reg.MEM_MIG_SKIPPED_PAGES = 0 ∧
      t.mig = some { ctx := ctx, dstTier := 0, va := s.rd Reg.MEM_MIG_VA, dst := s.rd Reg.MEM_MIG_DST
                     left := s.rd Reg.MEM_MIG_PAGES_PAGES, size := l.size } ∧
      t = { s with regs := t.regs, mig := t.mig }) ∧
  (∀ (tier ctx : Nat) (s u : State), s.hostOk Reg.MEM_MIG_CMD_CONTEXT.off = true → s.ready = true → ctx < 4096 →
    tier < 4 → s.mig.isSome = true ∨ tier = 1 ∨ tier = 3 →
    u = s.wrs [(Reg.MEM_MIG_CMD_DST_TIER, tier), (Reg.MEM_MIG_CMD_CONTEXT, ctx)] →
    exec (.migrate tier ctx) s = .next ((u.wr Reg.MEM_MIG_STATUS_CODE Code.MEM_E_MIGRATE).rep Code.MEM_E_MIGRATE 0)) ∧
  (∀ (m : Mig) (l : Leaf) (ext : List Byte) (corr : Nat) (s : State), s.live = true → s.mig = some m → m.page = none →
    walk s m.ctx m.va false = .ok l → migSkips s m.ctx l = false →
    exec (.migratePage ext false false corr) s =
      .next { (countCorr s corr).inc Reg.XLT_WALKS with mig := some { m with page := some l } }) ∧
  (∀ (m : Mig) (l : Leaf) (ext : List Byte) (corr : Nat) (s : State), s.live = true → s.mig = some m →
    m.page = some l → migSkips s m.ctx l = true →
    ∀ rdFail wrFail, exec (.migratePage ext rdFail wrFail corr) s = .next (migSkip (countCorr s corr) m l)) ∧
  (∀ (m : Mig) (l : Leaf) (ext : List Byte) (corr : Nat) (s u v : State), s.live = true → s.mig = some m →
    m.page = some l → migSkips s m.ctx l = false → m.dstTier = 0 →
    (s.chip.d3hot = false ∨ l.tier ≠ 2 → u = agentWrite (countCorr s corr) m.dst (leafRead s l 0 l.size ext) →
      keeperBook u (checkLines l.entPa (leBytes 8 l.raw) ++ writeLines l.entPa (leBytes 8 (movedEntry l.raw 0 m.dst))) [] =
        (0, v) →
      exec (.migratePage ext false false corr) s = .next (unmark (migNext { (v.inc Reg.MEM_MIG_MOVED_PAGES).add
        Reg.MEM_MIG_BYTES l.size with walks := v.walks.filter (fun c => !(c.ctx == m.ctx && c.leaf.va == l.va)) } m)
          0 0 m.dst)) ∧
    exec (.migratePage ext true false corr) s = .next (unmark (migEnd (countUncorr (countCorr s corr) l.tier)
      (tierError l.tier)) l.tier l.room l.addr) ∧
    (s.chip.d3hot = true → l.tier = 2 → exec (.migratePage ext false false corr) s =
      .next (unmark (migEnd (countCorr s corr) Code.XLT_E_TIER2) 2 l.room l.addr)) ∧
    (s.chip.d3hot = false ∨ l.tier ≠ 2 → exec (.migratePage ext false true corr) s =
      .next (unmark (migEnd (countUncorr (countCorr s corr) 0) Code.XLT_E_UNCORR) l.tier l.room l.addr))) ∧
  (∀ (m : Mig) (s : State), s.hostOk Reg.MEM_MIG_CMD_CONTEXT.off = true → s.mig = some m →
    (m.page = none → exec .migrateAbort s = .next (migEnd s Code.MEM_E_ABORTED)) ∧
    (m.page ≠ none → exec .migrateAbort s = .next { s with mig := some { m with abort := true } })) ∧
  (∀ (code : Nat) (s : State), s.vectorsFit → code < 2 ^ 16 → s.rd Reg.KPR_TRACE_MASK = 0 →
    (migEnd s code).mig = none ∧ (migEnd s code).rd Reg.MEM_MIG_STATUS_BUSY = 0 ∧
    (migEnd s code).rd Reg.MEM_MIG_STATUS_CODE = code ∧ (migEnd s code).rd Reg.MEM_IRQ_STATUS_MIG_DONE = 1 ∧
    s.memKept (migEnd s code))

/-- A fill descriptor to physical addresses that its context owns, with no signal and no interrupt, on a running channel
with a descriptor waiting, writes byte i mod 8 of its pattern at each of its LEN bytes and changes no other byte; CONS
advances, CODE reads 0 and the bytes are counted. -/
def Obligations.FillWritesPattern : Prop :=
  ∀ (c corr : Nat) (bytes : List Byte) (d : CopyDesc) (s : State), c < 8 → s.live = true → s.chip.d3hot = false →
    chRuns s c = true → s.rd (Reg.MEM_CH_STATUS_BUSY c) = 0 → 0 < chWaiting s c → chWaiting s c ≤ chSize s c → bytes.length = 64 → d = parseCopy bytes →
    copyBad s d = false → d.op = 1 → d.dstKind = 2 → d.flags = 0 → s.mig = none → s.holdRanges = [] →
    chHeld s c = false →
    (∀ i, i < d.len → owns s d.context (d.dst + i) = true) →
    ∃ t, exec (.copyDescriptor c bytes [] none none corr) s = .next t ∧
      (∀ i, i < d.len → t.byteAt (d.dst + i) = (leBytes 8 d.pattern).getD (i % 8) 0) ∧ s.memKeptBut t d.dst d.len ∧
      t.rd (Reg.MEM_CH_CONS_CONS c) = (s.rd (Reg.MEM_CH_CONS_CONS c) + 1) % 2 ^ 32 ∧
      t.rd (Reg.MEM_CH_STATUS_HALTED c) = 0 ∧ t.rd (Reg.MEM_CH_STATUS_CODE c) = 0 ∧
      t.rd Reg.MEM_COPY_BYTES = (s.rd Reg.MEM_COPY_BYTES + d.len) % 2 ^ Reg.MEM_COPY_BYTES.width ∧ t.chan c = none ∧
      t.ops = s.ops ∧ t.gran = s.gran

/-- A PROD that leaves no more than the ring's size waiting is stored; one that leaves more halts a running channel with
MEM_E_COPY_FORMAT. A malformed descriptor and a failed read of the ring halt it with FAULT_OFF 0. A resume carries the
descriptor in hand on from FAULT_OFF; a skip advances CONS and clears HALTED, CODE and FAULT_OFF without touching
memory; a disable with nothing waiting, or of a halted channel, clears CONS, PROD and ENABLE. -/
def Obligations.CopyChannels : Prop :=
  ∀ (c : Nat) (s : State), c < 8 →
  (∀ prod, s.hostOk (Reg.MEM_CH_PROD_PROD c).off = true →
    (chSize s c < chWaiting (s.wr (Reg.MEM_CH_PROD_PROD c) prod) c → chRuns s c = true →
      exec (.copyProdWrite c prod) s =
        .next (chHalt (s.wr (Reg.MEM_CH_PROD_PROD c) prod) c Code.MEM_E_COPY_FORMAT 0)) ∧
    (chWaiting (s.wr (Reg.MEM_CH_PROD_PROD c) prod) c ≤ chSize s c →
      exec (.copyProdWrite c prod) s = .next (s.wr (Reg.MEM_CH_PROD_PROD c) prod))) ∧
  (∀ (bytes ext : List Byte) (rd wr : Option Nat) (corr : Nat) (u : State), s.live = true → s.chip.d3hot = false →
    chRuns s c = true → s.rd (Reg.MEM_CH_STATUS_BUSY c) = 0 → 0 < chWaiting s c → chWaiting s c ≤ chSize s c →
    (bytes.length < 64 → exec (.copyDescriptor c bytes ext rd wr corr) s =
      .next (chHalt (countCorr s corr) c Code.MEM_E_DMA 0)) ∧
    (64 ≤ bytes.length → copyBad s (parseCopy bytes) = true →
      u = ((countCorr s corr).setChan c (some (parseCopy bytes))).wrs [(Reg.MEM_CH_TAG c, (parseCopy bytes).tag),
        (Reg.MEM_CH_STATUS_HALTED c, 0), (Reg.MEM_CH_STATUS_CODE c, 0)] →
      exec (.copyDescriptor c bytes ext rd wr corr) s = .next (chHalt u c Code.MEM_E_COPY_FORMAT 0))) ∧
  (∀ (code off : Nat), code < 2 ^ 16 → off < 2 ^ 32 → s.vectorsFit →
    (chHalt s c code off).rd (Reg.MEM_CH_STATUS_HALTED c) = 1 ∧ (chHalt s c code off).rd (Reg.MEM_CH_STATUS_CODE c) = code ∧
    (chHalt s c code off).rd (Reg.MEM_CH_FAULT_OFF c) = off ∧
    (chHalt s c code off).rd Reg.MEM_IRQ_STATUS_COPY_HALT = 1 ∧
    (chHalt s c code off).rd (Reg.MEM_CH_CONS_CONS c) = s.rd (Reg.MEM_CH_CONS_CONS c) ∧ s.memKept (chHalt s c code off)) ∧
  (∀ (d : CopyDesc) (bytes ext : List Byte) (rd wr : Option Nat) (corr : Nat), s.hostOk (Reg.MEM_CH_CTRL_RESUME c).off = true →
    s.rd (Reg.MEM_CH_STATUS_HALTED c) = 1 → s.chan c = some d →
    exec (.copyResume c bytes ext rd wr corr) s =
      .next (copyRun (countCorr s corr) c d (s.rd (Reg.MEM_CH_FAULT_OFF c)) ext rd wr)) ∧
  (s.hostOk (Reg.MEM_CH_CTRL_SKIP c).off = true → s.rd (Reg.MEM_CH_STATUS_HALTED c) = 1 →
    ∃ t, exec (.copySkip c) s = .next t ∧ t.rd (Reg.MEM_CH_STATUS_HALTED c) = 0 ∧ t.rd (Reg.MEM_CH_STATUS_CODE c) = 0 ∧
      t.rd (Reg.MEM_CH_FAULT_OFF c) = 0 ∧ t.chan c = none ∧
      t.rd (Reg.MEM_CH_CONS_CONS c) = (s.rd (Reg.MEM_CH_CONS_CONS c) + 1) % 2 ^ 32 ∧
      t = { s with regs := t.regs, chans := t.chans }) ∧
  (s.hostOk (Reg.MEM_CH_CFG_ENABLE c).off = true →
    (chWaiting s c = 0 ∨ s.rd (Reg.MEM_CH_STATUS_HALTED c) = 1) →
    ∃ t, exec (.copyDisable c) s = .next t ∧ t.rd (Reg.MEM_CH_CFG_ENABLE c) = 0 ∧
      t.rd (Reg.MEM_CH_STATUS_HALTED c) = 0 ∧ t.rd (Reg.MEM_CH_CONS_CONS c) = 0 ∧ t.rd (Reg.MEM_CH_PROD_PROD c) = 0 ∧
      t.chan c = none ∧ t = { s with regs := t.regs, chans := t.chans })

/-- An attach maps the blocks that its walk attached and moves the request on to prefill or decode with what it attached;
a refused walk and an uncorrectable line end the request. The copy of a shared block ends with nothing to copy, waits
with the pages that it has copied, or ends the request. A release
that frees its pages ends with its final booking and leaves the list; one that meets a fault is recorded and leaves it;
one that meets a full return ring is held, and
goes on when the host advances the ring. The final booking and the mark of an ending record write only within the
record: LENGTH 0, or the request's code. -/
def Obligations.SequenceLife : Prop :=
  (∀ (n pa a : Nat) (o : Operation) (b : Book) (w : Work) (s t : State), s.live = true → s.op n = some o →
    o.seqPa = some pa → bookOf s o.ctx = some b → o.phase = .attaching → (runPart s o.ctx).isSome = true →
    attachFrom o b (geo s o.ctx) (s.mnat pa 8) o.attach 0 (rootKey s o.ctx) s = (w, a, t) →
    exec (.attach n false) s = .next (match w with
      | .done => (attachFinal t o pa a).updOp o.id (fun _ => { o with
          prefillPos := 64 * a, length := 64 * a, shared := a != 0
          reserveN := o.reserveN + (o.attach - a) * (geo s o.ctx).tokblkPages
          phase := { o with prefillPos := 64 * a }.nextPhase })
      | .fail c => endRequest (t.report (opErr o c 1)) o c
      | .wait => t)) ∧
  (∀ (n : Nat) (o : Operation) (s : State), s.live = true → s.op n = some o →
    (o.phase = .attaching → exec (.attach n true) s = .next (keeperFault s o)) ∧
    (o.copyBlock.isSome = true → exec (.kvBlockCopy n true) s = .next (keeperFault s o))) ∧
  (∀ (n blk pa k : Nat) (o : Operation) (w : Work) (s t : State), s.live = true → s.op n = some o → o.seqPa = some pa →
    o.copyBlock = some blk → (runPart s o.ctx).isSome = true → copyShared s o.ctx pa blk o.copied = (w, k, t) →
    exec (.kvBlockCopy n false) s = .next (match w with
      | .done => t.updOp o.id (fun x => { x with copyBlock := none, copied := 0 })
      | .wait => t.updOp o.id (fun x => { x with copied := k })
      | .fail c => endRequest (t.report (opErr o c 1)) o c)) ∧
  (∀ (ctx seq : Nat) (x : Release) (pages : List Nat) (s t : State), s.live = true →
    s.releases.find? (fun y => y.ctx == ctx && y.seqIndex == seq && !y.held) = some x →
    pages = (pagesDown (s.mnat x.seqPa 8) x.tokblk (minNat (maxNat (s.mnat (x.seqPa + 24) 4 + 1) x.mapped)
      x.maxBlocks)).filter (fun va =>
      decide (va < s.mnat x.seqPa 8 + s.mnat (x.seqPa + 24) 4 * x.tokblk * 65536) || (rangeEntry s x.ctx va).isLeft) →
    (freePages x.ctx pages s = (.done, t) →
      exec (.sequenceRelease ctx seq false) s = .next (releaseFinal (dropRelease t x) x.seqPa)) ∧
    (∀ c, freePages x.ctx pages s = (.fail c, t) →
      exec (.sequenceRelease ctx seq false) s = .next (releaseFault t x c)) ∧
    exec (.sequenceRelease ctx seq true) s = .next (releaseFault (uncorrBook s) x Code.XLT_E_UNCORR)) ∧
  (∀ (ctx : Nat) (x : Release) (s : State), s.live = true →
    s.releases.filter (fun y => y.ctx == ctx && y.held) = [x] →
    exec (.releaseResume ctx) s = .next (releaseRun { s with
      releases := s.releases.map (fun z => if z = x then { x with held := false } else z) } { x with held := false })) ∧
  (∀ (pa : Nat) (s : State), pa % 64 = 0 → s.holdRanges = [] → s.mig = none →
    (releaseFinal s pa).mnat (pa + 8) 4 = 0 ∧ (releaseFinal s pa).mnat (pa + 16) 2 % 4 = 0 ∧
    (releaseFinal s pa).mnat (pa + 18) 1 = 0xFF ∧ (releaseFinal s pa).mnat (pa + 20) 8 = 0 ∧
    s.memKeptBut (releaseFinal s pa) (pa + 8) 20) ∧
  (∀ (pa code : Nat) (s : State), pa % 64 = 0 → code < 2 ^ 16 → s.holdRanges = [] → s.mig = none →
    (markReleasing s pa code).mnat (pa + 28) 2 = code ∧ bitOf ((markReleasing s pa code).mnat (pa + 16) 2) 1 = true ∧
    (∀ i, i ≠ 1 → bitOf ((markReleasing s pa code).mnat (pa + 16) 2) i = bitOf (s.mnat (pa + 16) 2) i) ∧
    s.memKeptBut (markReleasing s pa code) (pa + 16) 14)

/-- A registered context with a region is enabled and disabled by command with code 0, and flushed leaf by leaf; without a
region, and for OP 3, SRV_E_GB. Publication passes over blocks that the sequence shares, and publishes the next block
that the committed length completes. An eviction that a full ring held is completed first; with no MAX_FRAMES, or with no
more frames held than it allows, nothing is evicted; above it the oldest leaf goes. -/
def Obligations.GuestBook : Prop :=
  (∀ (b : Book) (ctx : Nat) (s : State), ctx = s.rd Reg.SRV_GB_SEL_CONTEXT → ctx < 4096 →
    s.hostOk Reg.SRV_GB_CMD_OP.off = true → s.ready = true → bookOf s ctx = some b → registered s ctx = true →
    (∃ t, exec .gbEnable s = .next t ∧ SMap.get (fun _ => 0) t.gbOn ctx = 1 ∧
      t.rd (Reg.SRV_GB_STATUS_CODE ctx) = 0 ∧ s.regsKept t [Reg.SRV_GB_CMD_OP, Reg.SRV_GB_STATUS_CODE ctx] ∧
      t = { s with regs := t.regs, gbOn := t.gbOn }) ∧
    (∃ t, exec .gbDisable s = .next t ∧ SMap.get (fun _ => 0) t.gbOn ctx = 0 ∧
      t.rd (Reg.SRV_GB_STATUS_CODE ctx) = 0 ∧ s.regsKept t [Reg.SRV_GB_CMD_OP, Reg.SRV_GB_STATUS_CODE ctx] ∧
      t = { s with regs := t.regs, gbOn := t.gbOn }) ∧
    exec .gbFlush s = .next (flushLoop ctx b b.e ((s.wr Reg.SRV_GB_CMD_OP 0).wr (Reg.SRV_GB_STATUS_CODE ctx) 0))) ∧
  (∀ (c : Instr) (ctx : Nat) (s : State), ctx = s.rd Reg.SRV_GB_SEL_CONTEXT → ctx < 4096 →
    s.hostOk Reg.SRV_GB_CMD_OP.off = true → s.ready = true →
    (c = .gbOpRefused ∨ ((c = .gbFlush ∨ c = .gbEnable ∨ c = .gbDisable) ∧ bookOf s ctx = none)) →
    ∃ t, exec c s = .next t ∧ t.rd (Reg.SRV_GB_STATUS_CODE ctx) = Code.SRV_E_GB ∧
      s.regsKept t [Reg.SRV_GB_CMD_OP, Reg.SRV_GB_STATUS_CODE ctx] ∧ s.onlyRegs t) ∧
  (∀ (n j pa : Nat) (o : Operation) (s : State), s.live = true → s.op n = some o → o.publish = some j →
    o.seqPa = some pa → j < promptBlocks o → 64 * (j + 1) ≤ o.length → gbEnabled s o.ctx = true →
    (runPart s o.ctx).isSome = true →
    (j < s.mnat (pa + 22) 2 →
      exec (.publication n) s = .next (s.updOp o.id (fun x => { x with publish := some (s.mnat (pa + 22) 2) }))) ∧
    (s.mnat (pa + 22) 2 ≤ j →
      exec (.publication n) s = .next ((publishBlock s o pa j).2.updOp o.id (fun x => { x with
        publish := (publishBlock s o pa j).1 })))) ∧
  (∀ (ctx : Nat) (s : State), s.live = true → bookOf s ctx = none → exec (.eviction ctx) s = .next s) ∧
  (∀ (ctx : Nat) (b : Book) (s : State), s.live = true → bookOf s ctx = some b →
    (∀ i, (List.range b.e).find? (fun i => (readHead s ctx b i).state == 3) = some i →
      exec (.eviction ctx) s = .next (evictEntry s ctx b i).2) ∧
    ((List.range b.e).find? (fun i => (readHead s ctx b i).state == 3) = none →
      (s.rd (Reg.SRV_GB_CFG_MAX_FRAMES ctx) = 0 ∨ gbHeld s ctx ≤ s.rd (Reg.SRV_GB_CFG_MAX_FRAMES ctx) →
        exec (.eviction ctx) s = .next s) ∧
      (∀ i, 0 < s.rd (Reg.SRV_GB_CFG_MAX_FRAMES ctx) → s.rd (Reg.SRV_GB_CFG_MAX_FRAMES ctx) < gbHeld s ctx →
        oldestLeaf s ctx b (List.range b.e) = some i → exec (.eviction ctx) s = .next (evictEntry s ctx b i).2)))

/-- A deadline check of a unit in which no request outside a step is past its instant, and none is marked to stop, changes
nothing; the first request past its instant, alone in a running context, ends with SRV_E_DEADLINE. SRV_EVAL of a cap
from 90 W to the ceiling answers VALID with the cap divider, and of another cap SRV_E_EVAL with VALID 0. -/
def Obligations.DeadlinesAndEval : Prop :=
  (∀ s : State, s.live = true → (∀ o ∈ s.ops, o.alive = true → o.inStep = none → stopCodeAt o s.timeKc = none) →
    exec .deadlineCheck s = .next s) ∧
  (∀ (o : Operation) (s : State), s.live = true → (s.part 0).busy = true → (s.part 1).busy = false → s.ops = [o] →
    o.ctx = (s.part 0).ctx → o.alive = true → o.inStep = none → o.stop = none → 0 < o.desc.deadlineUs →
    o.ringKc + o.desc.deadlineUs * 375 ≤ s.timeKc →
    exec .deadlineCheck s = .next (endRequest s o Code.SRV_E_DEADLINE)) ∧
  (∀ (cap p : Nat) (s : State), s.hostOk Reg.SRV_EVAL_CTRL_GO.off = true → s.ready = true →
    cap = s.rd Reg.SRV_EVAL_CTRL_CAP_W → p = s.rd Reg.SRV_EVAL_CTRL_PART →
    (90 ≤ cap → cap ≤ s.rd Reg.SRM_LIMITS0_CEIL_W → capDivOf s (evalMasks s) p cap < 256 →
      ∃ t, exec .srvEval s = .next t ∧ t.rd Reg.SRV_EVAL_STATUS_VALID = 1 ∧
        t.rd Reg.SRV_EVAL_STATUS_DIVIDER = capDivOf s (evalMasks s) p cap ∧ t.rd Reg.SRV_EVAL_STATUS_CODE = 0 ∧
        (p, cap) ∈ t.pwr.queried ∧ t = { s with regs := t.regs, pwr := t.pwr }) ∧
    (cap < 90 ∨ s.rd Reg.SRM_LIMITS0_CEIL_W < cap →
      ∃ t, exec .srvEval s = .next t ∧ t.rd Reg.SRV_EVAL_STATUS_VALID = 0 ∧
        t.rd Reg.SRV_EVAL_STATUS_CODE = Code.SRV_E_EVAL ∧
        s.regsKept t [Reg.SRV_EVAL_STATUS_VALID, Reg.SRV_EVAL_STATUS_CODE] ∧ s.onlyRegs t))

/-- A cap written in watts is stored in CAP_W: as 90 where it is below 90, as the ceiling with CLAMPED set where it is above
the ceiling, else as written. Where the new cap would give a running partition a cap divider above its DIV_LIMIT the
write is refused with PWR_E_CAP_LIMIT and CAP_W stays. The cap in force stays until the next loop period, which takes
CAP_W (with the brake released: the brake's hold is R374's). -/
def Obligations.CapWrites : Prop :=
  (∀ (v cap : Nat) (s : State), s.hostOk Reg.PWR_CAP_CTRL_CAP_W.off = true → 90 ≤ s.rd Reg.SRM_LIMITS0_CEIL_W →
    s.rd Reg.SRM_LIMITS0_CEIL_W < 256 →
    cap = (if v < 90 then 90 else if s.rd Reg.SRM_LIMITS0_CEIL_W < v then s.rd Reg.SRM_LIMITS0_CEIL_W else v) →
    ((∀ p, p < 2 → (s.part p).busy = true → capDivOf s (mapMasks s) p cap ≤ (s.part p).divLimit) →
      ∃ t, exec (.capWrite v) s = .next t ∧ t.rd Reg.PWR_CAP_CTRL_CAP_W = cap ∧ t.rd Reg.PWR_CAP_CTRL_CODE = 0 ∧
        (s.rd Reg.SRM_LIMITS0_CEIL_W < v → t.rd Reg.PWR_CAP_CTRL_CLAMPED = 1) ∧ t.pwr.capNow = s.pwr.capNow ∧
        s.regsKept t [Reg.PWR_CAP_CTRL_CAP_W, Reg.PWR_CAP_CTRL_CODE, Reg.PWR_CAP_CTRL_CLAMPED] ∧ s.onlyRegs t) ∧
    (∀ p, p < 2 → (s.part p).busy = true → (s.part p).divLimit < capDivOf s (mapMasks s) p cap → s.vectorsFit →
      ∃ t, exec (.capWrite v) s = .next t ∧ t.rd Reg.PWR_CAP_CTRL_CODE = Code.PWR_E_CAP_LIMIT ∧
        t.rd Reg.PWR_CAP_CTRL_CAP_W = s.rd Reg.PWR_CAP_CTRL_CAP_W ∧ t.pwr = s.pwr ∧ s.memKept t)) ∧
  (∀ (m : PowerSample) (ok : Bool) (s : State), s.live = true → s.ready = true → s.flag Reg.PWR_STATUS_BRAKE_IN = false →
    s.rd Reg.PWR_CAP_CTRL_CAP_W ≤ s.rd Reg.SRM_LIMITS0_CEIL_W → s.vectorsFit →
    ∃ t, exec (.powerLoopTick m ok) s = .next t ∧ t.pwr.capNow = s.rd Reg.PWR_CAP_CTRL_CAP_W ∧ s.memKept t)

/-- The divider that a partition goes to never exceeds its DIV_LIMIT. A slow-down at a boundary puts the partition at it at
once and settles the voltage after. A divider change shows in the partition's and its tiles' registers and is counted.
A speed-up whose voltage has settled takes its divider. A partition that is IDLE takes no change, and no speed-up
waiting means nothing to settle. A write of FORCE_DIV stores a divider of the set, or 0 for another value. An ageing
sample without low margin changes no divider; the sixtieth low sample of a started tile raises its MAXDIV. -/
def Obligations.DividersAndAgeing : Prop :=
  (∀ (p : Nat) (s : State), target s p ≤ (s.part p).divLimit) ∧
  (∀ (p : Nat) (ok : Bool) (s : State), p < 2 → s.live = true →
    ((s.part p).busy = true → divOf s p < target s p →
      exec (.dividerChange p ok) s = .next (voltSettle (setDivider { s with pwr := s.pwr.setWait p none } p
        (target s p)) ok)) ∧
    ((s.part p).busy = false → exec (.dividerChange p ok) s = .next s) ∧
    (∀ d, s.pwr.wait p = some d → (s.part p).busy = true → target s p ≤ d → d < divOf s p →
      exec (.voltageSettled p ok) s = .next (voltSettle (setDivider { s with pwr := s.pwr.setWait p none } p d) ok)) ∧
    (s.pwr.wait p = none → exec (.voltageSettled p ok) s = .next s)) ∧
  (∀ (p d : Nat) (s : State), p < 2 → d < 256 → s.rd Reg.KPR_TRACE_MASK = 0 →
    (setDivider s p d).rd (Reg.ITN_P_STATUS_DIVIDER p) = d ∧
    (∀ n, n ∈ (s.part p).tiles → (setDivider s p d).rd (Reg.TIL_STATUS_DIV n) = d) ∧
    (setDivider s p d).rd (Reg.PWR_P_CHANGES p) = (s.rd (Reg.PWR_P_CHANGES p) + 1) % 2 ^ (Reg.PWR_P_CHANGES p).width ∧
    (setDivider s p d).pwr.wait p = none ∧ s.memKept (setDivider s p d) ∧ (setDivider s p d).ops = s.ops ∧
    ((s.part p).stage = .waiting → ((setDivider s p d).part p).stall = (s.part p).stall)) ∧
  (∀ (p v : Nat) (s : State), p < 2 → s.hostOk (Reg.PWR_P_DIV_FORCE_DIV p).off = true →
    exec (.forceDivWrite p v) s = .next (powerAct (s.wr (Reg.PWR_P_DIV_FORCE_DIV p)
      (if v = 4 ∨ v = 5 ∨ v = 6 ∨ v = 8 ∨ v = 12 then v else 0)))) ∧
  (∀ s : State, s.live = true → s.ready = true →
    ∃ t, exec (.ageingSample 0) s = .next t ∧ (∀ n, n < 32 → tileStarted s n = true →
      SMap.get (fun _ => 0) t.pwr.lowMargin n = 0) ∧ t = { s with pwr := { s.pwr with lowMargin := t.pwr.lowMargin } }) ∧
  (∀ (n : Nat) (s : State), n < 32 → tileStarted s n = true → s.rd (Reg.PWR_TILE_MAXDIV n) < 12 →
    SMap.get (fun _ => 0) s.pwr.lowMargin n = 59 → ageTile (2 ^ n) n s = raiseMaxDiv s n) ∧
  (∀ s : State, s.live = true → s.ready = false → exec (.powerLoopTick {} true) s = .next s)

/-- CURRENT_LIMIT, and a stepping reason that repeats, add a step for every running partition; the hardware rule of THERMAL,
the brake and a rail fault require divider 12; a reason that clears asks no more. A droop of a started tile or a hub
stalls the partitions it acts on and is counted, one of a tile of no running partition is ignored; when the last
detector of a partition clears, its cause clears. A filtered brake level shows in BRAKE_IN; a glitch is counted and a
stuck brake is recorded once. A thermal trip stops the clocks, drives THERM_TRIP_N and loses the link. -/
def Obligations.ThrottleAndTrip : Prop :=
  (∀ s : State, s.live = true →
    (s.pwr.curOn = false →
      exec .currentLimit s = .next (powerAct (stepAll { s with pwr := { s.pwr with curOn := true } } 1))) ∧
    (s.pwr.curOn = true → exec .currentLimit s = .next s) ∧
    exec .thermalHwThrottle s = .next (powerAct { s with pwr := { s.pwr with thermHw := true } }) ∧
    (∀ r, stepActive s r = true → exec (.throttleRepeat r) s = .next (powerAct (stepAll s r))) ∧
    (∀ r, stepActive s r = false → exec (.throttleRepeat r) s = .next s) ∧
    exec (.throttleClear 2 true) s = .next (powerAct { s with pwr := { s.pwr with thermHw := false } }) ∧
    exec (.throttleClear 1 false) s = .next (powerAct (stepNone { s with pwr := { s.pwr with curOn := false } } 1)) ∧
    (s.ready = true → s.pwr.railOut = false →
      exec .railFault s = .next (powerAct (({ s with pwr := { s.pwr with railOut := true } }.rep Code.PWR_E_RAIL
        0).raisePwr Reg.PWR_IRQ_STATUS_RAIL)))) ∧
  (∀ (p : Nat) (s : State), s.pwr.thermHw = true ∨ s.flag Reg.PWR_STATUS_BRAKE_IN = true ∨ s.pwr.railOut = true →
    12 ≤ need s p) ∧
  (∀ (r p : Nat) (s : State), p < 2 → (stepNone s r).pwr.step r p = 0) ∧
  (∀ (d : Nat) (s : State), s.live = true →
    (d ≠ 32 → droopHits s d 0 = false → droopHits s d 1 = false → exec (.droopFire d) s = .next s) ∧
    (droopHits s d 0 = true → droopHits s d 1 = false →
      ∃ t, exec (.droopFire d) s = .next t ∧ d ∈ t.pwr.droops ∧ t.part0.stall.droop = true ∧ t.part1 = s.part1 ∧
        t.rd Reg.PWR_DROOPS = (s.rd Reg.PWR_DROOPS + 1) % 2 ^ Reg.PWR_DROOPS.width ∧
        t.rd (Reg.ITN_P_STATUS_STATE 0) = 3 ∧ t.part0.plan = s.part0.plan ∧ t.part0.beat = s.part0.beat ∧ s.memKept t) ∧
    (s.pwr.droops = [d] → s.part0.stall.droop = true → s.part0.urgent = false → s.part1.stall.droop = false →
      ∃ t, exec (.droopClear d) s = .next t ∧ t.pwr.droops = [] ∧ t.part0.stall.droop = false ∧
        t.part0.stall.seen = s.part0.stall.seen ∧ t.part1 = s.part1 ∧ t.regs = s.regs ∧ s.memKept t)) ∧
  (∀ s : State, s.live = true → s.chip.ioUp = true →
    exec .brakeAssert s = .next (powerAct (s.wr Reg.PWR_STATUS_BRAKE_IN 1)) ∧
    exec .brakeRelease s = .next (powerAct ({ s with pwr := { s.pwr with brakeStuck := false } }.wr
      Reg.PWR_STATUS_BRAKE_IN 0)) ∧
    (∃ t, exec .brakeGlitch s = .next t ∧ t.rd Reg.PWR_BRAKE_GLITCH_COUNT =
      min (s.rd Reg.PWR_BRAKE_GLITCH_COUNT + 1) (2 ^ Reg.PWR_BRAKE_GLITCH_COUNT.width - 1) ∧
      s.regsKept t [Reg.PWR_BRAKE_GLITCH_COUNT] ∧ s.onlyRegs t) ∧
    (s.flag Reg.PWR_STATUS_BRAKE_IN = true → s.pwr.brakeStuck = false → s.vectorsFit →
      ∃ t, exec .brakeStuck s = .next t ∧ t.pwr.brakeStuck = true ∧ t.rd Reg.PWR_IRQ_STATUS_BRAKE_STUCK = 1 ∧
        s.memKept t) ∧
    (s.pwr.brakeStuck = true → exec .brakeStuck s = .next s)) ∧
  (∀ s : State, s.chip.coreUp = true → exec .thermalTrip s = .next { s with chip := { s.chip with
    tripped := true, tripFlag := true, thermTripLow := true, linkUp := false, alertLow := false } })

/-- A port that finishes training with a neighbour wired as it should be takes V, the smaller LINK_VER: at least the larger
LINK_MIN, and the port is UP at V; below it, REFUSED with CHN_E_LINK_VER. Across a REFUSED port no flit is received and
none is sent. Where each unit has LINK_MIN ≤ LINK_VER − 1 and their LINK_VER differ by at most one, they link. -/
def Obligations.LinkVersion : Prop :=
  (∀ (p peer ver least room v : Nat) (s : State), p < 2 → s.live = true → s.rd (Reg.CHN_P_STATUS_STATE p) = 1 →
    peer ≠ p → ver < 256 → v = min (s.rd Reg.CHN_LEVEL_LINK_VER) ver → s.vectorsFit →
    (max (s.rd Reg.CHN_LEVEL_LINK_MIN) least ≤ v →
      ∃ t, exec (.portTrained p peer ver least room) s = .next t ∧ t.rd (Reg.CHN_P_STATUS_STATE p) = 2 ∧
        t.rd (Reg.CHN_P_STATUS_NEG_VER p) = v ∧ t.rd (Reg.CHN_P_STATUS_CODE p) = 0 ∧ s.memKept t ∧ t.ops = s.ops) ∧
    (v < max (s.rd Reg.CHN_LEVEL_LINK_MIN) least →
      ∃ t, exec (.portTrained p peer ver least room) s = .next t ∧ t.rd (Reg.CHN_P_STATUS_STATE p) = 3 ∧
        t.rd (Reg.CHN_P_STATUS_CODE p) = Code.CHN_E_LINK_VER ∧ t.port p = s.port p ∧ s.memKept t ∧ t.ops = s.ops) ∧
    (least + 1 ≤ ver → s.rd Reg.CHN_LEVEL_LINK_MIN + 1 ≤ s.rd Reg.CHN_LEVEL_LINK_VER →
      ver ≤ s.rd Reg.CHN_LEVEL_LINK_VER + 1 → s.rd Reg.CHN_LEVEL_LINK_VER ≤ ver + 1 →
      ∃ t, exec (.portTrained p peer ver least room) s = .next t ∧ t.rd (Reg.CHN_P_STATUS_STATE p) = 2)) ∧
  (∀ (p : Nat) (s : State), p < 2 → s.rd (Reg.CHN_P_STATUS_STATE p) = 3 →
    (∀ (f : Flit) (ok : Bool) (corr uncorr : Nat), exec (.flitReceive p f ok corr uncorr) s = .next s) ∧
    (∀ (step : Bool) (elems : List Nat), exec (.flitSlot p step elems) s = .next s))

/-- ENABLE puts a DOWN port in TRAINING; a retrain takes it DOWN and trains it again; a retry trains an enabled port that is
DOWN. A flit with a bad CRC is answered with a NAK that names the next SEQ, and a message flit in order raises the
port's SEQ and is counted. A NAK and a timeout send again every unacknowledged flit from the SEQ on. Sixteen replays
without progress take the port DOWN with CHN_E_LINK_LOST; a lane failure takes it DOWN. A slot with nothing to send
carries an idle flit; a message of one flit that may leave is sent, kept until it is acknowledged, and costs a credit. -/
def Obligations.PortsAndFlits : Prop :=
  (∀ (p : Nat) (s : State), p < 2 → s.vectorsFit →
    (s.hostOk (Reg.CHN_P_CTRL_ENABLE p).off = true → s.rd (Reg.CHN_P_STATUS_STATE p) = 0 →
      ∃ t, exec (.portEnable p) s = .next t ∧ t.rd (Reg.CHN_P_CTRL_ENABLE p) = 1 ∧
        t.rd (Reg.CHN_P_STATUS_STATE p) = 1 ∧ t.chn = s.chn ∧ s.memKept t ∧ t.ops = s.ops) ∧
    (s.hostOk (Reg.CHN_P_CTRL_ENABLE p).off = true → s.rd (Reg.CHN_P_CTRL_ENABLE p) = 1 →
      exec (.portRetrain p) s = .next (portTrain (portDown s p) p)) ∧
    (s.live = true → s.rd (Reg.CHN_P_STATUS_STATE p) = 0 → s.rd (Reg.CHN_P_CTRL_ENABLE p) = 1 →
      ∃ t, exec (.trainingRetry p) s = .next t ∧ t.rd (Reg.CHN_P_STATUS_STATE p) = 1 ∧ t.chn = s.chn ∧ s.memKept t) ∧
    (s.live = true → exec (.laneFailure p) s = .next (portDown s p)) ∧
    (s.live = true → s.rd (Reg.CHN_P_STATUS_STATE p) = 2 → 16 ≤ (s.port p).replays →
      exec (.linkLost p) s = .next (portCode (portRetrain s p) p Code.CHN_E_LINK_LOST)) ∧
    (s.live = true → (s.port p).replays < 16 → exec (.linkLost p) s = .next s)) ∧
  (∀ (p seq : Nat) (s : State), p < 2 → s.live = true → s.rd (Reg.CHN_P_STATUS_STATE p) = 2 →
    exec (.nak p seq) s = .next (replayFrom s p seq) ∧
    ((s.port p).unacked = [] → exec (.replayTimeout p) s = .next s) ∧
    (∀ f rest, (s.port p).unacked = f :: rest → exec (.replayTimeout p) s = .next (replayFrom s p f.seq))) ∧
  (∀ (p seq : Nat) (s : State), p < 2 → s.live = true →
    ((replayFrom s p seq).port p).unacked = (s.port p).unacked ∧
    ((replayFrom s p seq).port p).replays = (s.port p).replays + 1 ∧
    (replayFrom s p seq).rd (Reg.CHN_P_REPLAYS p) = (s.rd (Reg.CHN_P_REPLAYS p) +
      ((s.port p).unacked.filter (fun f => decide (seqFrom seq f.seq < 2 ^ 31))).length) % 2 ^ (Reg.CHN_P_REPLAYS p).width ∧
    (replayFrom s p seq).out.length = s.out.length + ((s.port p).unacked.filter (fun f => decide (seqFrom seq f.seq < 2 ^ 31))).length) ∧
  (∀ (p corr uncorr : Nat) (f : Flit) (s : State), p < 2 → s.live = true → s.rd (Reg.CHN_P_STATUS_STATE p) = 2 →
    exec (.flitReceive p f false corr uncorr) s = .next (sendFlit ((s.add (Reg.CHN_P_FEC_CORR p) corr).add
      (Reg.CHN_P_FEC_UNCORR p) uncorr) p {
        kind := 2, seq := (s.port p).txSeq, src := s.rd Reg.CHN_STATUS_ROOM, msgType := 0x100
        msgAddr := ((s.port p).rxSeq + 1) % 2 ^ 32 }) ∧
    (f.kind = 1 → f.seq = ((s.port p).rxSeq + 1) % 2 ^ 32 → f.first = true → f.last = true → f.dst = 0 →
      ∃ t, exec (.flitReceive p f true corr 0) s = .next t ∧ (t.port p).rxSeq = f.seq ∧
        t.rd (Reg.CHN_P_RX_FLITS p) = (s.rd (Reg.CHN_P_RX_FLITS p) + 1) % 2 ^ (Reg.CHN_P_RX_FLITS p).width ∧
        (t.port p).inbox = (s.port p).inbox ++ [{ msgType := f.msgType, vc := f.vc, src := f.src, dst := 0
                                                  id := f.msgId, addr := f.msgAddr, bytes := f.msgBytes
                                                  payload := f.payload }] ∧
        t.out = s.out ∧ s.memKept t)) ∧
  (∀ (p : Nat) (step : Bool) (s : State), p < 2 → s.live = true → s.rd (Reg.CHN_P_STATUS_STATE p) = 2 →
    (pickMsg s p step = none → exec (.flitSlot p step []) s = .next (sendFlit s p {
      seq := (s.port p).txSeq, src := s.rd Reg.CHN_STATUS_ROOM })) ∧
    (∀ m, pickMsg s p step = some m → (s.port p).unacked.length < 256 → flitCount m = 1 → nth (s.port p).sent m.vc = 0 →
      m.vc < 4 → (s.port p).credits.length = 4 →
      ∃ t, exec (.flitSlot p step []) s = .next t ∧ (t.port p).txSeq = ((s.port p).txSeq + 1) % 2 ^ 32 ∧
        (t.port p).unacked = (s.port p).unacked ++ [{ flitOf m 0 with seq := ((s.port p).txSeq + 1) % 2 ^ 32 }] ∧
        (t.port p).queue = dropFirst m (s.port p).queue ∧
        nth (t.port p).credits m.vc = nth (s.port p).credits m.vc - 1 ∧
        t.rd (Reg.CHN_P_TX_FLITS p) = (s.rd (Reg.CHN_P_TX_FLITS p) + 1) % 2 ^ (Reg.CHN_P_TX_FLITS p).width ∧
        t.out.length = s.out.length + 1 ∧ s.memKept t))

/-- GO outside a head candidate is refused with CHN_E_NOT_HEAD, and while a roll call runs with CHN_E_BUSY. At a head
without a neighbour aft the roster is its own record, its room 1, and the call ends with code 0. A ROLL frame at the last
unit gives it the next room and sends the roster fore; a ROLL with 64 records is refused with CHN_E_TOO_MANY. A ROSTER
of this call is stored and passed on, and of another is dropped; a ROLL_FAIL ends the head's call with its code; a
timeout with CHN_E_ROLL_TIMEOUT. An ANNOUNCE updates its room's record, and of an unknown room makes the roster STALE. A message of an unknown type is
counted and recorded. -/
def Obligations.RollCalls : Prop :=
  (∀ s : State, s.hostOk Reg.CHN_ROLL_CMD_GO.off = true → s.ready = true →
    (s.flag Reg.CHN_ROLL_STATUS_BUSY = true →
      exec .rollCallGo s = .next ((s.wr Reg.CHN_ROLL_STATUS_CODE Code.CHN_E_BUSY).rep Code.CHN_E_BUSY 0)) ∧
    (s.flag Reg.CHN_ROLL_STATUS_BUSY = false → s.flag Reg.CHN_STATUS_HEAD_STRAP = false →
      s.rd (Reg.CHN_P_STATUS_STATE 0) = 2 →
      exec .rollCallGo s = .next ((s.wr Reg.CHN_ROLL_STATUS_CODE Code.CHN_E_NOT_HEAD).rep Code.CHN_E_NOT_HEAD 0)) ∧
    (s.flag Reg.CHN_ROLL_STATUS_BUSY = false → s.rd (Reg.CHN_P_STATUS_STATE 0) ≠ 2 →
      s.rd (Reg.CHN_P_STATUS_STATE 1) ≠ 2 → (s.span 0).running = false → (s.span 1).running = false → s.vectorsFit →
      s.rd Reg.KPR_TRACE_MASK = 0 →
      ∃ t, exec .rollCallGo s = .next t ∧ t.chn.room = 1 ∧ t.rd Reg.CHN_STATUS_ROOM = 1 ∧ t.rd Reg.CHN_STATUS_COUNT = 1 ∧
        t.rd Reg.CHN_STATUS_CALLED = 1 ∧ t.rd Reg.CHN_ROLL_STATUS_BUSY = 0 ∧ t.rd Reg.CHN_ROLL_STATUS_CODE = 0 ∧
        t.chn.roster.length = 1 ∧ s.memKept t ∧ t.ops = s.ops)) ∧
  (∀ (m : ChainMsg) (s u : State), s.live = true → (s.port 0).inbox.find? (fun x => x.msgType == 0x01) = some m →
    s.flag Reg.CHN_ROLL_STATUS_BUSY = false → s.flag Reg.CHN_STATUS_HEAD_STRAP = false →
    u = s.updPort 0 (fun x => { x with inbox := dropFirst m x.inbox }) →
    (64 ≤ (frameRecs m.payload).length →
      exec (.roll 0) s = .next (sendFrame (u.rep Code.CHN_E_TOO_MANY 0) 0 3 0 (recField m.payload 8 8)
        Code.CHN_E_TOO_MANY (frameRecs m.payload))) ∧
    ((frameRecs m.payload).length < 64 → s.rd (Reg.CHN_P_STATUS_STATE 1) ≠ 2 → (s.span 0).running = false →
      (s.span 1).running = false → s.vectorsFit →
      ∃ t, exec (.roll 0) s = .next t ∧ t.chn.room = (frameRecs m.payload).length + 1 ∧
        t.rd Reg.CHN_STATUS_COUNT = (frameRecs m.payload).length + 1 ∧ t.chn.callId = recField m.payload 8 8 ∧
        t.chn.roster.length = (frameRecs m.payload).length + 1 ∧ s.memKept t)) ∧
  (∀ (p : Nat) (m : ChainMsg) (s u : State), p < 2 → s.live = true →
    u = s.updPort p (fun x => { x with inbox := dropFirst m x.inbox }) →
    ((s.port p).inbox.find? (fun x => x.msgType == 0x02) = some m → recField m.payload 8 8 ≠ s.chn.callId →
      exec (.roster p) s = .next u) ∧
    ((s.port p).inbox.find? (fun x => x.msgType == 0x02) = some m → recField m.payload 8 8 = s.chn.callId →
      s.flag Reg.CHN_ROLL_STATUS_BUSY = false → recField m.payload 6 1 = 0 →
      exec (.roster p) s = .next (sendFrame (storeRoster u s.chn.rollRoom 0 (frameRecs m.payload)) (1 - p) 2 0
        s.chn.callId 0 (frameRecs m.payload))) ∧
    ((s.port p).inbox.find? (fun x => x.msgType == 0x03) = some m → s.flag Reg.CHN_ROLL_STATUS_BUSY = true →
      recField m.payload 8 8 = s.chn.callId →
      exec (.rollFail p) s = .next (rollEnd u (recField m.payload 0x10 2))) ∧
    ((s.port p).inbox.find? (fun x => x.msgType == 0x04) = some m → portUp s (1 - p) = false →
      (recordWords m.payload).getD 0 0 % 256 = 0 →
      exec (.announce p) s = .next ((u.wr Reg.CHN_STATUS_STALE 1).rep Code.CHN_E_ROSTER 0)) ∧
    (∀ (r : RosterRec) (w : List Nat) (room : Nat), (s.port p).inbox.find? (fun x => x.msgType == 0x04) = some m →
      portUp s (1 - p) = false → w = recordWords m.payload → room = w.getD 0 0 % 256 → room ≠ 0 →
      rosterOf s room = some r → r.words.getD 3 0 = w.getD 3 0 → w.getD 0 0 / 65536 = r.words.getD 0 0 / 65536 →
      ∃ t, exec (.announce p) s = .next t ∧ t.chn.roster = s.chn.roster.map (fun q => if q.room = room then
          { q with words := [r.words.getD 0 0 % 65536 + w.getD 0 0 / 65536 * 65536, w.getD 1 0, w.getD 2 0,
            r.words.getD 3 0] } else q) ∧
        s.memKept t ∧ t.ops = s.ops) ∧
    ((s.port p).inbox.find? (fun x => !knownTypes.contains x.msgType) = some m →
      exec (.unknownMessage p) s = .next ((u.inc (Reg.CHN_P_UNKNOWN p)).report
        { errOf Code.CHN_E_MSG 0 with location := p }))) ∧
  (∀ s : State, s.live = true →
    (s.flag Reg.CHN_ROLL_STATUS_BUSY = true → exec .rollTimeout s = .next (rollEnd s Code.CHN_E_ROLL_TIMEOUT)) ∧
    (s.flag Reg.CHN_ROLL_STATUS_BUSY = false → exec .rollTimeout s = .next s)) ∧
  (∀ (code : Nat) (s : State), code < 2 ^ 16 → s.vectorsFit → s.rd Reg.KPR_TRACE_MASK = 0 →
    (rollEnd s code).rd Reg.CHN_ROLL_STATUS_BUSY = 0 ∧ (rollEnd s code).rd Reg.CHN_ROLL_STATUS_CODE = code ∧
    (rollEnd s code).rd Reg.CHN_IRQ_STATUS_ROLL_DONE = 1 ∧ (rollEnd s code).chn = s.chn ∧ s.memKept (rollEnd s code))

/-- A commit of an export entry whose context owns the granule stores the entry; of a granule it does not own, CHN_E_EXPORT
and the entry stays; a load shows an entry. A peer's read of a good entry is answered with the bytes, of an uncorrectable line
with XLT_E_UNCORR, and a refused one with CHN_E_EXPORT; a refused write changes no byte of memory and is told in the
next fence acknowledgement, and a good one writes its bytes line by line. A fence waits for its room's earlier writes,
and one that no write is ahead of is acknowledged. T3_DATA is the answer of the access. The last acknowledgement ends its fence; one of
several leaves the others due; a timeout ends it. A STEP message lands in a free half; TOKENS of an awaited step give
each request its token or its end; a RELEASE ends the operation of its sequence; a SPAN_HALT of a room of the span stops
it; a SPAN_FREE frees its half. TOKENS that nobody awaits, a RELEASE of no operation and a SPAN_HALT of no span's room
are taken without effect. -/
def Obligations.ExportsAndSpans : Prop :=
  (∀ (n : Nat) (e : ExportEntry) (s : State), n < 16384 → s.hostOk Reg.CHN_EXP_SEL_ENTRY.off = true →
    e = { valid := s.flag Reg.CHN_EXP_DATA0_VALID, w := s.flag Reg.CHN_EXP_DATA0_W
          reqRoom := s.rd Reg.CHN_EXP_DATA0_REQ_ROOM, granule := s.rd Reg.CHN_EXP_DATA0_GRANULE
          context := s.rd Reg.CHN_EXP_DATA1_CONTEXT } →
    (owns s e.context (e.granule * 2 ^ 21) = true →
      ∃ t, exec (.exportCommit n) s = .next t ∧ SMap.get (fun _ => {}) t.chn.exports n = e ∧
        (∀ k, k ≠ n → SMap.get (fun _ => {}) t.chn.exports k = SMap.get (fun _ => ({} : ExportEntry)) s.chn.exports k) ∧
        t.rd Reg.CHN_EXP_DATA1_CODE = 0 ∧ s.regsKept t [Reg.CHN_EXP_SEL_ENTRY, Reg.CHN_EXP_DATA1_CODE] ∧ s.memKept t) ∧
    (owns s e.context (e.granule * 2 ^ 21) = false →
      ∃ t, exec (.exportCommit n) s = .next t ∧ t.chn = s.chn ∧
        t.rd Reg.CHN_EXP_DATA1_CODE = Code.CHN_E_EXPORT % 4096 ∧ s.memKept t) ∧
    (∃ t, exec (.exportLoad n) s = .next t ∧
      t.rd Reg.CHN_EXP_DATA0_VALID = b2n (SMap.get (fun _ => ({} : ExportEntry)) s.chn.exports n).valid ∧
      t.rd Reg.CHN_EXP_DATA0_W = b2n (SMap.get (fun _ => ({} : ExportEntry)) s.chn.exports n).w ∧ s.onlyRegs t)) ∧
  (∀ (p : Nat) (m : ChainMsg) (s u : State), p < 2 → s.live = true →
    u = s.updPort p (fun x => { x with inbox := dropFirst m x.inbox }) →
    ((s.port p).inbox.find? (fun x => x.msgType == 0x10) = some m →
      (exportRefuses s m m.bytes false = false →
        exec (.t3Read p false) s = .next (replyMsg u m 0x18 0 ((List.range (ceilDiv m.bytes 64)).map
          (fun i => s.mread (exportPa s (m.addr + 64 * i)) 64)).flatten) ∧
        exec (.t3Read p true) s = .next (replyMsg (u.inc Reg.MEM_DRAM_UNCORR) m 0x18 Code.XLT_E_UNCORR [])) ∧
      (exportRefuses s m m.bytes false = true →
        ∀ bad, exec (.t3Read p bad) s = .next (replyMsg (exportRefused u) m 0x18 Code.CHN_E_EXPORT []))) ∧
    ((s.port p).inbox.find? (fun x => x.msgType == 0x11) = some m →
      (exportRefuses s m (64 * ceilDiv m.payload.length 72) true = true → SMap.get countBlank s.chn.refusals m.src = 0 →
        ∃ t, exec (.t3Write p) s = .next t ∧ SMap.get countBlank t.chn.refusals m.src = Code.CHN_E_EXPORT ∧
          s.memKept t ∧ t.ops = s.ops) ∧
      (exportRefuses s m (64 * ceilDiv m.payload.length 72) true = false →
        exec (.t3Write p) s = .next ((List.range (ceilDiv m.payload.length 72)).foldl (t3Apply m) u))) ∧
    ((s.port p).inbox.find? (fun x => x.msgType == 0x12) = some m →
      (t3Open s p m.src = true → exec (.t3Fence p) s = .next s) ∧
      (t3Open s p m.src = false → exec (.t3Fence p) s = .next (replyMsg { u with chn := { u.chn with
        refusals := SMap.set countBlank u.chn.refusals m.src 0 } } m 0x1A
          (SMap.get countBlank s.chn.refusals m.src) []))) ∧
    ((s.port p).inbox.find? (fun x => x.msgType == 0x18) = some m →
      exec (.t3Data p) s = .next { u with resp := (m.addr % 65536) :: m.payload.map (·.toNat) }) ∧
    (∀ (n : Nat) (rooms : List Nat) (w : Option (Nat × Nat)),
      (s.port p).inbox.find? (fun x => x.msgType == 0x1A) = some m → m.addr % 65536 = 0 → n = m.id →
      s.chn.fences = [(n, rooms, w)] →
      exec (.t3FenceAck p) s = .next (if rooms.all (fun r => r == m.src) then { u with chn := { u.chn with fences := [] } }
        else { u with chn := { u.chn with fences := [(n, rooms.filter (fun r => r != m.src), w)] } })) ∧
    ((s.port p).inbox.find? (fun x => x.msgType == 0x21) = some m → s.chn.span0.awaited = [] → s.chn.span1.awaited = [] →
      exec (.tokens p) s = .next u) ∧
    (∀ ids, (s.port p).inbox.find? (fun x => x.msgType == 0x21) = some m → spanHead s 0 = true →
      s.chn.span0.awaited = [(m.addr, ids)] →
      exec (.tokens p) s = .next ((List.range ids.length).foldl (tokenSlot m.payload ids)
        (u.updSpan 0 (fun y => { y with awaited := [] })))) ∧
    ((s.port p).inbox.find? (fun x => x.msgType == 0x22) = some m → (∀ o ∈ s.ops, o.standIn = false) →
      exec (.releaseMessage p) s = .next u) ∧
    (∀ (o : Operation) (rest : List Operation), (s.port p).inbox.find? (fun x => x.msgType == 0x22) = some m →
      s.ops = o :: rest → o.standIn = true → o.desc.seqIndex = m.addr → o.phase ≠ .ending → spanLater s 0 = true →
      s.part0.ctx = o.ctx →
      exec (.releaseMessage p) s = .next (endRequest u o 0)) ∧
    ((s.port p).inbox.find? (fun x => x.msgType == 0x23) = some m → s.chn.span0.running = true →
      s.chn.span0.outPort = p →
      exec (.spanFree p) s = .next (u.updSpan 0 (fun y => { y with
        outBusy := y.outBusy.filter (fun b => b.1 != m.addr) }))) ∧
    ((s.port p).inbox.find? (fun x => x.msgType == 0x24) = some m → s.chn.span0.running = false →
      s.chn.span1.running = false → exec (.spanHalt p) s = .next u) ∧
    ((s.port p).inbox.find? (fun x => x.msgType == 0x24) = some m → s.chn.span0.running = true →
      m.src ∈ s.chn.span0.rooms → s.chn.span1.running = false → spanRoom (spanStop u 0) 1 m.src = false →
      exec (.spanHalt p) s = .next (spanStop u 0)) ∧
    (∀ rows, (s.port p).inbox.find? (fun x => x.msgType == 0x20) = some m →
      (s.chn.span0.running = false → s.chn.span1.running = false → exec (.stepMessage p rows) s = .next u) ∧
      (s.chn.span0.running = true → s.chn.span0.inPort = p → s.chn.span0.steps = [] → s.chn.span0.cur = none →
        m.payload = [] →
        exec (.stepMessage p rows) s = .next (u.updSpan 0 (fun y => { y with steps := y.steps ++ [{
          step := m.addr, half := 0, rows := rows, codes := List.replicate 256 0 }] }))))) ∧
  (∀ (n : Nat) (rooms : List Nat) (s : State), s.live = true → s.chn.fences.find? (fun f => f.1 == n) = some (n, rooms, none) →
    exec (.chainFenceTimeout n) s = .next ({ s with chn := { s.chn with
      fences := s.chn.fences.filter (fun g => g.1 != n) } }.rep Code.XLT_E_TIER3 0))

/-- A command that ends clears BUSY, shows its CODE and RESULT and sets MBX_DONE; memory stays. An unknown OP ends with
SEC_E_OPCODE; while a command runs a GO changes nothing but the fields it stores. CTX_OPEN of a FREE context makes it
OPEN, of another SEC_E_CTX_STATE. CTX_CONFIGURE with a good record stores it, makes the context READY, clears its guest
book limit and its overrides and drops its cached walks; of a READY context in use it is refused with SEC_E_CTX_BUSY.
CTX_END of a context that runs is refused; else it takes the steps of R380, after which the context owns no granule and
holds no pin and no record. -/
def Obligations.MailboxAndContexts : Prop :=
  (∀ (code bytes peer : Nat) (s : State), code < 2 ^ 16 → s.vectorsFit →
    (mbxEnd s code bytes peer).rd Reg.SEC_MBX_STATUS_BUSY = 0 ∧ (mbxEnd s code bytes peer).rd Reg.SEC_MBX_STATUS_CODE = code ∧
    (mbxEnd s code bytes peer).rd Reg.SEC_MBX_RESULT_BYTES = bytes % 2 ^ Reg.SEC_MBX_RESULT_BYTES.width ∧
    (mbxEnd s code bytes peer).rd Reg.SEC_IRQ_STATUS_MBX_DONE = 1 ∧ s.memKept (mbxEnd s code bytes peer)) ∧
  (∀ (op : Nat) (s : State), s.hostOk Reg.SEC_MBX_CMD_OP.off = true → op < 256 → mbxStates op = none →
    (s.flag Reg.SEC_MBX_STATUS_BUSY = false →
      exec (.mbxOpcodeUnknown op) s = .next (mbxEnd (s.wr Reg.SEC_MBX_CMD_OP op) Code.SEC_E_OPCODE 0 0)) ∧
    (s.flag Reg.SEC_MBX_STATUS_BUSY = true → exec (.mbxOpcodeUnknown op) s = .next (s.wr Reg.SEC_MBX_CMD_OP op))) ∧
  (∀ (c op : Nat) (raw : List Byte) (dmaOk : Bool) (s u : State), c < 4096 → s.hostOk Reg.SEC_MBX_CMD_OP.off = true →
    s.flag Reg.SEC_MBX_STATUS_BUSY = false → s.ready = true → s.rd Reg.SRM_LC_STATE < 3 →
    u = (s.wr Reg.SEC_MBX_CMD_OP op).wr (Reg.SEC_MBX_ARG_ARG 0) c →
    (op = 1 → ctxState s c = 0 → exec (.ctxOpen c) s = .next (mbxEnd (u.wr (Reg.SEC_CTX_STATE c) 1) 0 0 0)) ∧
    (op = 1 → ctxState s c ≠ 0 → exec (.ctxOpen c) s = .next (mbxEnd u Code.SEC_E_CTX_STATE 0 0)) ∧
    (op = 2 → registered s c = true → mbxFits s 128 = true → ctxRecOk s c raw = true →
      (ctxState s c = 1 ∨ ctxBusy s c = false) → s.vectorsFit →
      ∃ t, exec (.ctxConfigure c raw true) s = .next t ∧ t.ctxRec c = some (parseCtx raw) ∧
        t.rd (Reg.SEC_CTX_STATE c) = 2 ∧ t.rd (Reg.SRV_GB_CFG_MAX_FRAMES c) = 0 ∧
        t.rd (Reg.EXP_CTXV_DATA_PREFILL_SLOT c) = 0xFF ∧ t.rd (Reg.EXP_CTXV_DATA_DECODE_SLOT c) = 0xFF ∧
        (∀ w ∈ t.walks, w.ctx ≠ c) ∧ (∀ d, d ≠ c → t.ctxRec d = s.ctxRec d) ∧ t.rd Reg.SEC_MBX_STATUS_CODE = 0 ∧
        s.memKept t ∧ t.ops = s.ops) ∧
    (op = 2 → ctxState s c = 2 → mbxFits s 128 = true → ctxBusy s c = true →
      exec (.ctxConfigure c raw dmaOk) s = .next (mbxEnd u Code.SEC_E_CTX_BUSY 0 0)) ∧
    (op = 3 → registered s c = true → runningOrPending s c = true →
      exec (.ctxEnd c) s = .next (mbxEnd u Code.SEC_E_CTX_BUSY 0 0)) ∧
    (op = 3 → registered s c = true → runningOrPending s c = false →
      exec (.ctxEnd c) s = .next (ctxFreed (mbxEnd ((ctxClear (ctxOps (ctxQueues u c) c) c).wrs
        [(Reg.SEC_CTX_STATE c, 3), (Reg.EXP_CTXV_DATA_PREFILL_SLOT c, 0xFF),
          (Reg.EXP_CTXV_DATA_DECODE_SLOT c, 0xFF)]) 0 0 0) c))) ∧
  (∀ (c : Nat) (s : State), (∀ g, (ctxClear s c).granule g ≠ .owned c) ∧ (ctxClear s c).ctxRec c = none ∧
    (∀ q ∈ (ctxClear s c).part0.pins, q.ctx ≠ c) ∧ (∀ q ∈ (ctxClear s c).part1.pins, q.ctx ≠ c) ∧
    (∀ x ∈ (ctxClear s c).releases, x.ctx ≠ c))

/-- An index of the identity key is taken once: after it the next index is above it and stays below the reservation, which
is written first; an exhausted key signs nothing. QUOTE of a unit, and of a READY context, is signed and delivered.
QUOTE_PEER to a room that can be reached sends its request and waits with BUSY set; its reply is delivered, and no
reply in time is SEC_E_PEER. A peer's request is answered with a unit quote. GET_CERT delivers the certificate. -/
def Obligations.QuotesAndSignatures : Prop :=
  (∀ (i : Nat) (s t : State), s.rd Reg.SRM_IDX_RSV_BLOCKS ≤ 2 ^ 24 → s.rd Reg.SRM_IDX_NEXT ≤ 1024 * s.rd Reg.SRM_IDX_RSV_BLOCKS →
    s.vectorsFit → takeIndex s = some (i, t) →
    i = s.rd Reg.SRM_IDX_NEXT ∧ t.rd Reg.SRM_IDX_NEXT = i + 1 ∧
    t.rd Reg.SRM_IDX_NEXT ≤ 1024 * t.rd Reg.SRM_IDX_RSV_BLOCKS ∧ s.rd Reg.SRM_IDX_RSV_BLOCKS ≤ t.rd Reg.SRM_IDX_RSV_BLOCKS) ∧
  (∀ s : State, s.rd Reg.SRM_IDX_RSV_BLOCKS = 2 ^ 24 → s.rd Reg.SRM_IDX_NEXT = 2 ^ 34 → takeIndex s = none) ∧
  (∀ (scope ctx : Nat) (nonce b : List Byte) (dmaOk : Bool) (s t u : State), scope < 2 → ctx < 4096 →
    s.hostOk Reg.SEC_MBX_CMD_OP.off = true → s.flag Reg.SEC_MBX_STATUS_BUSY = false → s.ready = true →
    (s.rd Reg.SRM_LC_STATE = 1 ∨ s.rd Reg.SRM_LC_STATE = 2) → mbxFits s 10405 = true → (scope = 1 → ctxState s ctx = 2) →
    u = s.wrs ((Reg.SEC_MBX_CMD_OP, 0x10) :: (Reg.SEC_MBX_ARG_ARG 0, scope + 65536 * ctx) ::
      (digestArgs nonce).map (fun a => (Reg.SEC_MBX_ARG_ARG a.1, a.2))) →
    makeQuote u (if scope = 0 then none else some ctx) (argDigest u) = some (b, t) →
    exec (.quote scope ctx nonce dmaOk) s = .next (mbxResult t b dmaOk)) ∧
  (∀ (room q : Nat) (nonce : List Byte) (s u : State), room < 128 → s.hostOk Reg.SEC_MBX_CMD_OP.off = true →
    s.flag Reg.SEC_MBX_STATUS_BUSY = false → s.ready = true →
    (s.rd Reg.SRM_LC_STATE = 1 ∨ s.rd Reg.SRM_LC_STATE = 2) → mbxFits s 10405 = true → room ≠ s.rd Reg.CHN_STATUS_ROOM →
    routePort s room = some q → q < 2 →
    u = s.wrs ((Reg.SEC_MBX_CMD_OP, 0x11) :: (Reg.SEC_MBX_ARG_ARG 0, room) ::
      (digestArgs nonce).map (fun a => (Reg.SEC_MBX_ARG_ARG a.1, a.2))) →
    ∃ t, exec (.quotePeer room nonce) s = .next t ∧ t.sec.peerRoom = some room ∧ t.rd Reg.SEC_MBX_STATUS_BUSY = 1 ∧
      (t.port q).queue = (s.port q).queue ++ [msgTo u 0x31 3 room 0 (argDigest u ++ List.replicate 32 0)] ∧ s.memKept t) ∧
  (∀ (room : Nat) (s : State), s.live = true →
    (s.sec.peerRoom = some room → exec .quotePeerTimeout s =
      .next (mbxEnd { s with sec := { s.sec with peerRoom := none } } Code.SEC_E_PEER 0 0)) ∧
    (s.sec.peerRoom = none → exec .quotePeerTimeout s = .next s)) ∧
  (∀ (p : Nat) (m : ChainMsg) (s u : State), p < 2 → s.live = true →
    u = s.updPort p (fun x => { x with inbox := dropFirst m x.inbox }) →
    ((s.port p).inbox.find? (fun x => x.msgType == 0x31 && decide (2 ^ 63 ≤ x.addr) == false) = some m → s.ready = true →
      (s.rd Reg.SRM_LC_STATE = 1 ∨ s.rd Reg.SRM_LC_STATE = 2) →
      ∀ (b : List Byte) (v : State), makeQuote u none (m.payload.take 32) = some (b, v) →
        exec (.quoteMessage p) s = .next (quoteAnswer v m 0 b)) ∧
    (∀ dmaOk, (s.port p).inbox.find? (fun x => x.msgType == 0x31 && decide (2 ^ 63 ≤ x.addr) == true) = some m →
      s.sec.peerRoom = some m.src → m.addr % 65536 = 0 →
      exec (.quoteReply p dmaOk) s =
        .next (mbxResult { u with sec := { u.sec with peerRoom := none } } m.payload dmaOk))) ∧
  (∀ (dmaOk : Bool) (s : State), s.hostOk Reg.SEC_MBX_CMD_OP.off = true → s.flag Reg.SEC_MBX_STATUS_BUSY = false →
    (s.rd Reg.SRM_LC_STATE = 1 ∨ s.rd Reg.SRM_LC_STATE = 2) → mbxFits s 3076 = true →
    exec (.getCert dmaOk) s = .next (mbxResult (s.wr Reg.SEC_MBX_CMD_OP 0x12) (certBytes (s.wr Reg.SEC_MBX_CMD_OP 0x12)) dmaOk))

/-- ENROLL stores the owner digest and enters FIELD; PROVISION with a good certificate, its reserved fields 0, enters PROVISIONED; a wipe that fails
ends either with SEC_E_WIPE. SERVICE with a revoke token revokes its key slot, with a return token enters RETURN; a bad
token is refused. SCRAP with its word enters SCRAPPED, and with another is refused. SET_LIMIT stores its limit. GEN_ID
delivers the identity key. A tamper event ends the live keys, is counted and enters the safe state. -/
def Obligations.LifeCycle : Prop :=
  (∀ (s : State), s.hostOk Reg.SEC_MBX_CMD_OP.off = true → s.flag Reg.SEC_MBX_STATUS_BUSY = false → s.vectorsFit →
    (∀ (owner : List Byte), s.rd Reg.SRM_LC_STATE = 1 → owner.length = 32 →
      (∃ t, exec (.enroll owner true) s = .next t ∧ t.rd Reg.SRM_LC_STATE = 2 ∧
        (∀ i, i < 8 → t.rd (Reg.SRM_OWNER_DIGEST i) = recField owner (4 * i) 4) ∧ t.rd Reg.SEC_MBX_STATUS_CODE = 0 ∧
        s.memKept t) ∧
      (∃ t, exec (.enroll owner false) s = .next t ∧ t.rd Reg.SRM_LC_STATE = 1 ∧
        t.rd Reg.SEC_MBX_STATUS_CODE = Code.SEC_E_WIPE ∧ s.memKept t)) ∧
    (∀ (cert : List Byte), s.rd Reg.SRM_LC_STATE = 0 → mbxFits s 3076 = true → certZeros cert = true → slotUsable s (recField cert 6 1) = true →
      s.sec.idPub = true → (cert.drop 0x28).take 68 = idPubBytes →
      ∃ t, exec (.provision cert true true true) s = .next t ∧ t.rd Reg.SRM_LC_STATE = 1 ∧ t.sec.cert = cert ∧
        t.rd Reg.SEC_MBX_STATUS_CODE = 0 ∧ s.memKept t) ∧
    (∀ (index v : Nat) (f : Fld), s.rd Reg.SRM_LC_STATE = 0 → index < 8 → limitFld index = some f → v < 2 ^ f.width →
      ∃ t, exec (.setLimit index v) s = .next t ∧ t.rd f = v ∧ (index = 0 → t.rd Reg.PWR_CAPS_CEIL_W = v) ∧
        t.rd Reg.SEC_MBX_STATUS_CODE = 0 ∧ s.memKept t) ∧
    (∀ dmaOk, s.rd Reg.SRM_LC_STATE = 0 → mbxFits s 68 = true →
      exec (.genId dmaOk) s = .next (mbxResult { s.wr Reg.SEC_MBX_CMD_OP 0x31 with
        sec := { s.sec with idPub := true } } idPubBytes dmaOk)) ∧
    (∀ (token : List Byte) (u : State), (s.rd Reg.SRM_LC_STATE = 1 ∨ s.rd Reg.SRM_LC_STATE = 2) → s.ready = true →
      serviceBusy s = 0 → mbxFits s 2884 = true → u = s.wr Reg.SEC_MBX_CMD_OP 0x21 →
      (tokenOk s token true = true → recField token 6 1 = 2 → bitOf (s.rd Reg.SRM_KEYS_REVOKED) (recField token 0x18 1) = false →
        exec (.service token true true 0) s = .next (mbxEnd (u.wr Reg.SRM_KEYS_REVOKED
          (s.rd Reg.SRM_KEYS_REVOKED + 2 ^ recField token 0x18 1)) 0 0 0)) ∧
      (tokenOk s token true = true → recField token 6 1 = 1 →
        exec (.service token true true 0) s = .next (mbxEnd (lcChange (secureWipe (zeroSetRecords (eraseSets u)) true) 3)
          0 0 0)) ∧
      exec (.service token false true 0) s = .next (mbxEnd u Code.SEC_E_TOKEN 0 0)) ∧
    (∀ (arg : Nat) (u : State), (s.rd Reg.SRM_LC_STATE = 1 ∨ s.rd Reg.SRM_LC_STATE = 2 ∨ s.rd Reg.SRM_LC_STATE = 3) →
      s.ready = true → serviceBusy s = 0 → arg < 2 ^ 32 →
      u = (s.wr Reg.SEC_MBX_CMD_OP 0x22).wr (Reg.SEC_MBX_ARG_ARG 0) arg →
      (∀ v, v = secureWipe (zeroSetRecords (eraseSets u)) true → arg = 0x53435250 →
        exec (.scrap arg 0) s = .next (mbxEnd (lcChange ({ v with sec := { v.sec with
          keysLive := false, inputsZeroed := true, udsBlown := true } }.wr Reg.SRM_IDX_NEXT 0) 4) 0 0 0)) ∧
      (arg ≠ 0x53435250 → exec (.scrap arg 0) s = .next (mbxEnd u Code.SEC_E_FORMAT 0 0)))) ∧
  (∀ (src : Nat) (s : State), s.live = true → src < 16 → (src = 1 → s.chip.pllLocked = true) → s.vectorsFit →
    ∃ t, exec (.tamper src true) s = .next t ∧ t.safe = true ∧ t.sec.keysLive = false ∧ t.sec.pendTamper = true ∧
      t.rd Reg.SRM_TAMPER_LAST_SRC = src % 2 ^ Reg.SRM_TAMPER_LAST_SRC.width ∧
      t.rd Reg.SRM_TAMPER_COUNT = min (s.rd Reg.SRM_TAMPER_COUNT + 1) (2 ^ Reg.SRM_TAMPER_COUNT.width - 1) ∧
      t.rd Reg.ERR_SAFE_CODE = Code.SEC_E_TAMPER ∧ t.ops = [] ∧ s.memKept t)

/-- While KPR_STATUS.READY is 0, a GO of a command that Keeper performs stores its word's fields, shows KPR_E_NOT_READY in
its block's status and changes nothing else; the mailbox commands in which Keeper takes part are refused with that code,
and SET_LIMIT, which Porter performs alone, is served. -/
def Obligations.KeeperNotReady : Prop :=
  ∀ s : State, s.live = true → s.linked = true → s.chip.pllFailed = false →
  s.rd Reg.SRM_LC_STATE ≠ 4 → s.rd Reg.KPR_STATUS_STATE ≠ 5 → s.ready = false →
  (∀ k list, s.notReady (exec (.itnLoadGo k list) s) Reg.ITN_LOAD_STATUS_CODE) ∧
  (∀ k c, c < 4096 → s.notReady (exec (.itnBind k c) s) Reg.ITN_BIND_STATUS_CODE ∧
    s.notReady (exec (.itnUnbind c) s) Reg.ITN_BIND_STATUS_CODE) ∧
  (∀ p c b, p < 2 → c < 4096 → s.notReady (exec (.activation p c) s) (Reg.ITN_P_RESULT_CODE p) ∧
    s.notReady (exec (.partitionStop p) s) (Reg.ITN_P_RESULT_CODE p) ∧
    s.notReady (exec (.urgentPreempt p c b) s) (Reg.ITN_P_RESULT_CODE p) ∧
    s.notReady (exec (.urgentStop p b) s) (Reg.ITN_P_RESULT_CODE p)) ∧
  (∀ c, c = .rqCreate ∨ c = .rqDelete ∨ c = .rqResume ∨ c = .rqCmdRefused →
    s.notReady (exec c s) (Reg.HIF_RQ_STATUS_CODE (s.rd Reg.HIF_RQ_SEL_QUEUE))) ∧
  (∀ c, c = .cqCreate ∨ c = .cqDelete ∨ c = .cqApply ∨ c = .cqCmdRefused →
    s.notReady (exec c s) (Reg.HIF_CQ_STATUS_CODE (s.rd Reg.HIF_CQ_SEL_QUEUE))) ∧
  (∀ n, s.notReady (exec (.grant n) s) Reg.MEM_GRANT_STATUS_CODE ∧
    s.notReady (exec (.revoke n) s) Reg.MEM_GRANT_STATUS_CODE ∧
    s.notReady (exec (.grantQuery n) s) Reg.MEM_GRANT_STATUS_CODE) ∧
  (∀ t n, s.notReady (exec (.migrate t n) s) Reg.MEM_MIG_STATUS_CODE) ∧
  (∀ pl ph bl, exec (.blockQuery pl ph bl) s = .next (s.wrs [(Reg.CEL_BQ_SEL_PLANE, pl), (Reg.CEL_BQ_SEL_PHYS, b2n ph),
    (Reg.CEL_BQ_SEL_BLOCK, bl)])) ∧
  (∀ f n i k e, s.notReady (exec (.tableLoad f n i k e) s) Reg.EXP_TBL_STATUS_CODE) ∧
  (∀ n list head bad, s.notReady (exec (.install n list head bad) s) Reg.EXP_INST_STATUS_CODE ∧
    s.notReady (exec (.setRemove n) s) Reg.EXP_INST_STATUS_CODE ∧
    s.notReady (exec (.recheckNow n bad) s) Reg.EXP_INST_STATUS_CODE) ∧
  (∀ m n, s.notReady (exec (.modelSlotSet m n) s) Reg.EXP_MSLOT_STATUS_CODE ∧
    s.notReady (exec (.modelSlotClear m) s) Reg.EXP_MSLOT_STATUS_CODE) ∧
  s.notReady (exec .srvEval s) Reg.SRV_EVAL_STATUS_CODE ∧
  (∀ c, c = .gbFlush ∨ c = .gbEnable ∨ c = .gbDisable →
    s.notReady (exec c s) (Reg.SRV_GB_STATUS_CODE (s.rd Reg.SRV_GB_SEL_CONTEXT))) ∧
  s.notReady (exec .rollCallGo s) Reg.CHN_ROLL_STATUS_CODE ∧
  (∀ src first count ok, s.notReady (exec (.daybookFetch src first count ok) s) Reg.KPR_FETCH_STATUS_CODE) ∧
  (∀ list block sigOk norOk ok,
    s.notReady (exec (.updateReceive list block sigOk norOk ok) s) Reg.KPR_UPD_STATUS_CODE) ∧
  (∀ c, c = .updateActivate ∨ c = .updateAbort ∨ c = .updOpRefused → s.notReady (exec c s) Reg.KPR_UPD_STATUS_CODE) ∧
  (s.flag Reg.SEC_MBX_STATUS_BUSY = false → s.vectorsFit → ∀ c op, mbxStates op ≠ none → mbxKeeper op = true →
    ((op = 1 ∧ ∃ n, c = .ctxOpen n) ∨ (op = 2 ∧ ∃ n r d, c = .ctxConfigure n r d) ∨ (op = 3 ∧ ∃ n, c = .ctxEnd n) ∨
      (op = 0x10 ∧ ∃ k n r d, c = .quote k n r d) ∨ (op = 0x11 ∧ ∃ k r, c = .quotePeer k r) ∨
      (op = 0x21 ∧ ∃ r a d k, c = .service r a d k) ∨ (op = 0x22 ∧ ∃ a k, c = .scrap a k)) →
    ∃ t, exec c s = .next t ∧ t.rd Reg.SEC_MBX_STATUS_CODE = Code.KPR_E_NOT_READY ∧ t.ctxs = s.ctxs ∧ s.memKept t ∧
      t.ops = s.ops) ∧
  (s.flag Reg.SEC_MBX_STATUS_BUSY = false → s.vectorsFit → s.rd Reg.SRM_LC_STATE = 0 → ∀ v, v < 256 →
    ∃ t, exec (.setLimit 0 v) s = .next t ∧ t.rd Reg.SRM_LIMITS0_CEIL_W = v)

/-- After a thermal trip, and until a reset pin or the power acts, no command changes the part: no register, no memory, no
engine, nothing sent. At most it clears the answer of the last read. -/
def Obligations.TripFreezesThePart : Prop :=
  ∀ (c : Instr) (s : State), s.chip.tripped = true → clockless c = false →
    ∃ t, exec c s = .next t ∧ t = { s with resp := t.resp }

/-- From every state whose DRAM and register store are in canonical form, a step that answers a next state leaves both in
canonical form: keys strictly rising, no entry at what an unlisted key reads as. (The form is the model's own; it makes
equal contents equal data.) -/
def Obligations.StepKeepsStores : Prop := ∀ s t : State, s.stores → s.stepsTo t → t.stores

/-- After reset the stores are canonical, no command waits, DRAM lists nothing, no operation and no partition runs, GEN_ID
names the HL3200, every event enable is 0, Keeper is not ready, both partitions are IDLE and the part is not in the safe
state. -/
def Obligations.ResetState : Prop :=
  State.reset.stores ∧ State.reset.pending = [] ∧ State.reset.dram = [] ∧ State.reset.ops = [] ∧
  State.reset.part0.stage = .idle ∧ State.reset.part1.stage = .idle ∧
  State.reset.rd Reg.GEN_ID_FAMILY = 0x484C ∧ State.reset.rd Reg.GEN_ID_MEMBER = 0x3200 ∧
  (∀ f, f = Reg.HIF_IRQ_EN_BITS ∨ f = Reg.ITN_IRQ_EN_BITS ∨ f = Reg.MEM_IRQ_EN_BITS ∨ f = Reg.CEL_IRQ_EN_BITS ∨
    f = Reg.EXP_IRQ_EN_BITS ∨ f = Reg.SRV_IRQ_EN_BITS ∨ f = Reg.CHN_IRQ_EN_BITS ∨ f = Reg.PWR_IRQ_EN_BITS ∨
    f = Reg.KPR_IRQ_EN_BITS ∨ f = Reg.ERR_IRQ_EN_BITS ∨ f = Reg.SEC_IRQ_EN_BITS → State.reset.rd f = 0) ∧
  State.reset.rd Reg.KPR_STATUS_READY = 0 ∧ State.reset.safe = false ∧ State.reset.rd (Reg.ITN_P_STATUS_STATE 0) = 0 ∧
  State.reset.rd (Reg.ITN_P_STATUS_STATE 1) = 0
end

