-- ==== Sys2Proof/Laws/SMap.lean ====
section
/-! SUPPORT. The laws of the sparse store: what a read gives after a write, and that every operation keeps the
canonical form. None of the read laws needs the form. -/

namespace Sys2Proof.Machine

theorem SMap.get_insert_same {α : Type} (d : Nat → α) (m : SMap α) (k : Nat) (v : α) :
    SMap.get d (SMap.insert m k v) k = v := by
  induction m with
  | nil => simp [SMap.insert, SMap.get]
  | cons e rest ih =>
    obtain ⟨j, w⟩ := e
    simp only [SMap.insert]
    split
    · have h : j ≠ k := by omega
      simp [SMap.get, h, ih]
    · split <;> simp [SMap.get]

theorem SMap.get_insert_ne {α : Type} (d : Nat → α) (m : SMap α) {k k' : Nat} (v : α) (h : k ≠ k') :
    SMap.get d (SMap.insert m k v) k' = SMap.get d m k' := by
  induction m with
  | nil => simp [SMap.insert, SMap.get, h]
  | cons e rest ih =>
    obtain ⟨j, w⟩ := e
    simp only [SMap.insert]
    split
    · simp [SMap.get, ih]
    · split
      · next hj => subst hj; simp [SMap.get, h]
      · simp [SMap.get, h]

theorem SMap.get_erase_same {α : Type} (d : Nat → α) (m : SMap α) (k : Nat) :
    SMap.get d (SMap.erase m k) k = d k := by
  induction m with
  | nil => rfl
  | cons e rest ih =>
    obtain ⟨j, w⟩ := e
    simp only [SMap.erase]
    split
    · exact ih
    · next h => simp [SMap.get, h, ih]

theorem SMap.get_erase_ne {α : Type} (d : Nat → α) (m : SMap α) {k k' : Nat} (h : k ≠ k') :
    SMap.get d (SMap.erase m k) k' = SMap.get d m k' := by
  induction m with
  | nil => rfl
  | cons e rest ih =>
    obtain ⟨j, w⟩ := e
    simp only [SMap.erase]
    split
    · next hj => subst hj; simp [SMap.get, h, ih]
    · simp [SMap.get, ih]

/-- A read after a write to the same key gives the value written. -/
@[simp] theorem SMap.get_set_same {α : Type} [DecidableEq α] (d : Nat → α) (m : SMap α) (k : Nat) (v : α) :
    SMap.get d (SMap.set d m k v) k = v := by
  unfold SMap.set
  split
  · next h => rw [SMap.get_erase_same, h]
  · exact SMap.get_insert_same d m k v

/-- A write leaves every other key alone. -/
theorem SMap.get_set_ne {α : Type} [DecidableEq α] (d : Nat → α) (m : SMap α) {k k' : Nat} (v : α) (h : k ≠ k') :
    SMap.get d (SMap.set d m k v) k' = SMap.get d m k' := by
  unfold SMap.set
  split
  · exact SMap.get_erase_ne d m h
  · exact SMap.get_insert_ne d m v h

theorem SMap.wfFrom_mono {α : Type} [DecidableEq α] (d : Nat → α) (m : SMap α) (a b : Nat) (hab : a ≤ b)
    (h : SMap.wfFrom d (some b) m = true) : SMap.wfFrom d (some a) m = true := by
  cases m with
  | nil => rfl
  | cons e rest =>
    obtain ⟨j, w⟩ := e
    simp only [SMap.wfFrom, SMap.above, Bool.and_eq_true, decide_eq_true_eq] at h ⊢
    exact ⟨⟨by omega, h.1.2⟩, h.2⟩

theorem SMap.wfFrom_none {α : Type} [DecidableEq α] (d : Nat → α) (m : SMap α) (a : Nat)
    (h : SMap.wfFrom d (some a) m = true) : SMap.wfFrom d none m = true := by
  cases m with
  | nil => rfl
  | cons e rest =>
    obtain ⟨j, w⟩ := e
    simp only [SMap.wfFrom, SMap.above, Bool.and_eq_true, decide_eq_true_eq] at h ⊢
    exact ⟨⟨trivial, h.1.2⟩, h.2⟩

theorem SMap.wfFrom_insert {α : Type} [DecidableEq α] (d : Nat → α) (m : SMap α) (lo : Option Nat) (k : Nat) (v : α)
    (hv : v ≠ d k) (hlo : ∀ b, lo = some b → b < k) (h : SMap.wfFrom d lo m = true) :
    SMap.wfFrom d lo (SMap.insert m k v) = true := by
  induction m generalizing lo with
  | nil =>
    cases lo with
    | none => simp [SMap.insert, SMap.wfFrom, SMap.above, hv]
    | some b => simp [SMap.insert, SMap.wfFrom, SMap.above, hv, hlo b rfl]
  | cons e rest ih =>
    obtain ⟨j, w⟩ := e
    simp only [SMap.wfFrom, SMap.above, Bool.and_eq_true, decide_eq_true_eq] at h
    obtain ⟨⟨h1, h2⟩, h3⟩ := h
    simp only [SMap.insert]
    split
    · next hjk =>
      simp only [SMap.wfFrom, SMap.above, Bool.and_eq_true, decide_eq_true_eq]
      refine ⟨⟨h1, h2⟩, ih (some j) ?_ h3⟩
      intro b hb; cases hb; exact of_decide_eq_true (by simpa using hjk)
    · have hk : SMap.above lo k = true := by
        cases lo with
        | none => rfl
        | some b => simpa [SMap.above] using hlo b rfl
      split
      · next hjk =>
        subst hjk
        simp only [SMap.wfFrom, SMap.above, Bool.and_eq_true, decide_eq_true_eq]
        exact ⟨⟨hk, hv⟩, h3⟩
      · next h4 h5 =>
        have : k < j := by omega
        simp only [SMap.wfFrom, SMap.above, Bool.and_eq_true, decide_eq_true_eq]
        exact ⟨⟨hk, hv⟩, ⟨this, h2⟩, h3⟩

theorem SMap.wfFrom_erase {α : Type} [DecidableEq α] (d : Nat → α) (m : SMap α) (lo : Option Nat) (k : Nat)
    (h : SMap.wfFrom d lo m = true) : SMap.wfFrom d lo (SMap.erase m k) = true := by
  induction m generalizing lo with
  | nil => cases lo <;> rfl
  | cons e rest ih =>
    obtain ⟨j, w⟩ := e
    simp only [SMap.wfFrom, SMap.above, Bool.and_eq_true, decide_eq_true_eq] at h
    obtain ⟨⟨h1, h2⟩, h3⟩ := h
    simp only [SMap.erase]
    split
    · cases lo with
      | none => exact ih none (SMap.wfFrom_none d rest j h3)
      | some b =>
        have hb : b < j := by simpa [SMap.above] using h1
        exact ih (some b) (SMap.wfFrom_mono d rest b j (by omega) h3)
    · simp only [SMap.wfFrom, SMap.above, Bool.and_eq_true, decide_eq_true_eq]
      exact ⟨⟨h1, h2⟩, ih (some j) h3⟩

/-- A write keeps the canonical form. -/
theorem SMap.wf_set {α : Type} [DecidableEq α] (d : Nat → α) (m : SMap α) (k : Nat) (v : α)
    (h : SMap.wf d m = true) : SMap.wf d (SMap.set d m k v) = true := by
  unfold SMap.set SMap.wf at *
  split
  · exact SMap.wfFrom_erase d m none k h
  · next hv => exact SMap.wfFrom_insert d m none k v hv (by intro b hb; cases hb) h

theorem SMap.wfFrom_keep {α : Type} [DecidableEq α] (d : Nat → α) (p : Nat → Bool) (m : SMap α) (lo : Option Nat)
    (h : SMap.wfFrom d lo m = true) : SMap.wfFrom d lo (SMap.keep p m) = true := by
  induction m generalizing lo with
  | nil => cases lo <;> rfl
  | cons e rest ih =>
    obtain ⟨j, w⟩ := e
    simp only [SMap.wfFrom, SMap.above, Bool.and_eq_true, decide_eq_true_eq] at h
    obtain ⟨⟨h1, h2⟩, h3⟩ := h
    simp only [SMap.keep]
    split
    · simp only [SMap.wfFrom, SMap.above, Bool.and_eq_true, decide_eq_true_eq]
      exact ⟨⟨h1, h2⟩, ih (some j) h3⟩
    · cases lo with
      | none => exact ih none (SMap.wfFrom_none d rest j h3)
      | some b =>
        have hb : b < j := by simpa [SMap.above] using h1
        exact ih (some b) (SMap.wfFrom_mono d rest b j (by omega) h3)

/-- Dropping entries keeps the canonical form. -/
theorem SMap.wf_keep {α : Type} [DecidableEq α] (d : Nat → α) (p : Nat → Bool) (m : SMap α)
    (h : SMap.wf d m = true) : SMap.wf d (SMap.keep p m) = true :=
  SMap.wfFrom_keep d p m none h

@[simp] theorem SMap.wf_nil {α : Type} [DecidableEq α] (d : Nat → α) : SMap.wf d ([] : SMap α) = true := rfl

end Sys2Proof.Machine
end

