-- ==== Sys2Proof/Laws/State.lean ====
section
/-! SUPPORT. One lemma per field of the state per update, true by unfolding; what a register field reads after a write; the
memory operations keep the canonical form. -/

namespace Sys2Proof.Machine

/-! Register fields. -/

/-- A field reads, after a write to it, the value cut to its width. -/
@[simp] theorem rd_wr_same (s : State) (f : Fld) (v : Nat) : (s.wr f v).rd f = v % 2 ^ f.width :=
  SMap.get_set_same regDefault s.regs f.key _

/-- A write leaves every field at another place alone. -/
theorem rd_wr_ne (s : State) {f g : Fld} (v : Nat) (h : f.key ≠ g.key) : (s.wr f v).rd g = s.rd g :=
  SMap.get_set_ne regDefault s.regs _ h

/-- What any field reads after a write. -/
theorem rd_wr (s : State) (f g : Fld) (v : Nat) :
    (s.wr f v).rd g = if f.key = g.key then v % 2 ^ f.width else s.rd g := by
  split
  · next h => simp [State.rd, State.wr, ← h]
  · next h => exact rd_wr_ne s v h

/-- A field depends on the register store alone. -/
theorem rd_congr {s t : State} (h : s.regs = t.regs) (f : Fld) : s.rd f = t.rd f := by simp [State.rd, h]

/-- A write keeps the register store canonical. -/
theorem regs_wf_wr (s : State) (f : Fld) (v : Nat) (h : SMap.wf regDefault s.regs = true) :
    SMap.wf regDefault (s.wr f v).regs = true := SMap.wf_set _ _ _ _ h

/-- Several writes keep the register store canonical. -/
theorem regs_wf_wrs (l : List (Fld × Nat)) (s : State) (h : SMap.wf regDefault s.regs = true) :
    SMap.wf regDefault (s.wrs l).regs = true := by
  induction l generalizing s with
  | nil => exact h
  | cons x rest ih => exact ih _ (regs_wf_wr s x.1 x.2 h)

/-! DRAM. -/

/-- Bytes written keep the canonical form. -/
theorem dram_wf_write (bs : List Byte) (m : SMap Byte) (a : Nat) (h : SMap.wf dramBlank m = true) :
    SMap.wf dramBlank (dramWrite m a bs) = true := by
  induction bs generalizing m a with
  | nil => exact h
  | cons b rest ih => exact ih _ _ (SMap.wf_set _ _ _ _ h)

/-- Masked bytes written keep the canonical form. -/
theorem dram_wf_writeMask (bs : List Byte) (k : List Bool) (m : SMap Byte) (a : Nat)
    (h : SMap.wf dramBlank m = true) : SMap.wf dramBlank (dramWriteMask m a bs k) = true := by
  induction bs generalizing m a k with
  | nil => cases k <;> exact h
  | cons b rest ih =>
    cases k with
    | nil => exact h
    | cons c cs =>
      cases c
      · exact ih _ _ _ h
      · exact ih _ _ _ (SMap.wf_set _ _ _ _ h)

/-- Zeroing a range keeps the canonical form. -/
theorem dram_wf_zero (m : SMap Byte) (a n : Nat) (h : SMap.wf dramBlank m = true) :
    SMap.wf dramBlank (dramZero m a n) = true := SMap.wf_keep _ _ _ h

/-! `wr` changes `regs` and no other field. -/

@[simp] theorem pending_wr (s : State) (f : Fld) (v : Nat) : (s.wr f v).pending = s.pending := rfl
@[simp] theorem free_wr (s : State) (f : Fld) (v : Nat) : (s.wr f v).free = s.free := rfl
@[simp] theorem resp_wr (s : State) (f : Fld) (v : Nat) : (s.wr f v).resp = s.resp := rfl
@[simp] theorem timeKc_wr (s : State) (f : Fld) (v : Nat) : (s.wr f v).timeKc = s.timeKc := rfl
@[simp] theorem out_wr (s : State) (f : Fld) (v : Nat) : (s.wr f v).out = s.out := rfl
@[simp] theorem heldOut_wr (s : State) (f : Fld) (v : Nat) : (s.wr f v).heldOut = s.heldOut := rfl
@[simp] theorem snap_wr (s : State) (f : Fld) (v : Nat) : (s.wr f v).snap = s.snap := rfl
@[simp] theorem hold_wr (s : State) (f : Fld) (v : Nat) : (s.wr f v).hold = s.hold := rfl
@[simp] theorem chip_wr (s : State) (f : Fld) (v : Nat) : (s.wr f v).chip = s.chip := rfl
@[simp] theorem dram_wr (s : State) (f : Fld) (v : Nat) : (s.wr f v).dram = s.dram := rfl
@[simp] theorem gran_wr (s : State) (f : Fld) (v : Nat) : (s.wr f v).gran = s.gran := rfl
@[simp] theorem refs_wr (s : State) (f : Fld) (v : Nat) : (s.wr f v).refs = s.refs := rfl
@[simp] theorem walks_wr (s : State) (f : Fld) (v : Nat) : (s.wr f v).walks = s.walks := rfl
@[simp] theorem part0_wr (s : State) (f : Fld) (v : Nat) : (s.wr f v).part0 = s.part0 := rfl
@[simp] theorem part1_wr (s : State) (f : Fld) (v : Nat) : (s.wr f v).part1 = s.part1 := rfl
@[simp] theorem mapForce_wr (s : State) (f : Fld) (v : Nat) : (s.wr f v).mapForce = s.mapForce := rfl
@[simp] theorem images_wr (s : State) (f : Fld) (v : Nat) : (s.wr f v).images = s.images := rfl
@[simp] theorem loadLen_wr (s : State) (f : Fld) (v : Nat) : (s.wr f v).loadLen = s.loadLen := rfl
@[simp] theorem ops_wr (s : State) (f : Fld) (v : Nat) : (s.wr f v).ops = s.ops := rfl
@[simp] theorem nextOp_wr (s : State) (f : Fld) (v : Nat) : (s.wr f v).nextOp = s.nextOp := rfl
@[simp] theorem nextAdmit_wr (s : State) (f : Fld) (v : Nat) : (s.wr f v).nextAdmit = s.nextAdmit := rfl
@[simp] theorem nextBooking_wr (s : State) (f : Fld) (v : Nat) : (s.wr f v).nextBooking = s.nextBooking := rfl
@[simp] theorem staged_wr (s : State) (f : Fld) (v : Nat) : (s.wr f v).staged = s.staged := rfl
@[simp] theorem releases_wr (s : State) (f : Fld) (v : Nat) : (s.wr f v).releases = s.releases := rfl
@[simp] theorem rqs_wr (s : State) (f : Fld) (v : Nat) : (s.wr f v).rqs = s.rqs := rfl
@[simp] theorem cqs_wr (s : State) (f : Fld) (v : Nat) : (s.wr f v).cqs = s.cqs := rfl
@[simp] theorem keeperBookings_wr (s : State) (f : Fld) (v : Nat) : (s.wr f v).keeperBookings = s.keeperBookings := rfl
@[simp] theorem keeperWatches_wr (s : State) (f : Fld) (v : Nat) : (s.wr f v).keeperWatches = s.keeperWatches := rfl
@[simp] theorem holdRanges_wr (s : State) (f : Fld) (v : Nat) : (s.wr f v).holdRanges = s.holdRanges := rfl
@[simp] theorem heldWrites_wr (s : State) (f : Fld) (v : Nat) : (s.wr f v).heldWrites = s.heldWrites := rfl
@[simp] theorem mig_wr (s : State) (f : Fld) (v : Nat) : (s.wr f v).mig = s.mig := rfl
@[simp] theorem chans_wr (s : State) (f : Fld) (v : Nat) : (s.wr f v).chans = s.chans := rfl
@[simp] theorem ctxs_wr (s : State) (f : Fld) (v : Nat) : (s.wr f v).ctxs = s.ctxs := rfl
@[simp] theorem gbOn_wr (s : State) (f : Fld) (v : Nat) : (s.wr f v).gbOn = s.gbOn := rfl
@[simp] theorem tiles_wr (s : State) (f : Fld) (v : Nat) : (s.wr f v).tiles = s.tiles := rfl
@[simp] theorem cel_wr (s : State) (f : Fld) (v : Nat) : (s.wr f v).cel = s.cel := rfl
@[simp] theorem exp_wr (s : State) (f : Fld) (v : Nat) : (s.wr f v).exp = s.exp := rfl
@[simp] theorem chn_wr (s : State) (f : Fld) (v : Nat) : (s.wr f v).chn = s.chn := rfl
@[simp] theorem pwr_wr (s : State) (f : Fld) (v : Nat) : (s.wr f v).pwr = s.pwr := rfl
@[simp] theorem kpr_wr (s : State) (f : Fld) (v : Nat) : (s.wr f v).kpr = s.kpr := rfl
@[simp] theorem err_wr (s : State) (f : Fld) (v : Nat) : (s.wr f v).err = s.err := rfl
@[simp] theorem sec_wr (s : State) (f : Fld) (v : Nat) : (s.wr f v).sec = s.sec := rfl


/-! `updTile` changes `tiles` and no other field. -/

@[simp] theorem pending_updTile (s : State) (n : Nat) (f : Tile → Tile) : (s.updTile n f).pending = s.pending := rfl
@[simp] theorem free_updTile (s : State) (n : Nat) (f : Tile → Tile) : (s.updTile n f).free = s.free := rfl
@[simp] theorem resp_updTile (s : State) (n : Nat) (f : Tile → Tile) : (s.updTile n f).resp = s.resp := rfl
@[simp] theorem timeKc_updTile (s : State) (n : Nat) (f : Tile → Tile) : (s.updTile n f).timeKc = s.timeKc := rfl
@[simp] theorem out_updTile (s : State) (n : Nat) (f : Tile → Tile) : (s.updTile n f).out = s.out := rfl
@[simp] theorem heldOut_updTile (s : State) (n : Nat) (f : Tile → Tile) : (s.updTile n f).heldOut = s.heldOut := rfl
@[simp] theorem regs_updTile (s : State) (n : Nat) (f : Tile → Tile) : (s.updTile n f).regs = s.regs := rfl
@[simp] theorem snap_updTile (s : State) (n : Nat) (f : Tile → Tile) : (s.updTile n f).snap = s.snap := rfl
@[simp] theorem hold_updTile (s : State) (n : Nat) (f : Tile → Tile) : (s.updTile n f).hold = s.hold := rfl
@[simp] theorem chip_updTile (s : State) (n : Nat) (f : Tile → Tile) : (s.updTile n f).chip = s.chip := rfl
@[simp] theorem dram_updTile (s : State) (n : Nat) (f : Tile → Tile) : (s.updTile n f).dram = s.dram := rfl
@[simp] theorem gran_updTile (s : State) (n : Nat) (f : Tile → Tile) : (s.updTile n f).gran = s.gran := rfl
@[simp] theorem refs_updTile (s : State) (n : Nat) (f : Tile → Tile) : (s.updTile n f).refs = s.refs := rfl
@[simp] theorem walks_updTile (s : State) (n : Nat) (f : Tile → Tile) : (s.updTile n f).walks = s.walks := rfl
@[simp] theorem part0_updTile (s : State) (n : Nat) (f : Tile → Tile) : (s.updTile n f).part0 = s.part0 := rfl
@[simp] theorem part1_updTile (s : State) (n : Nat) (f : Tile → Tile) : (s.updTile n f).part1 = s.part1 := rfl
@[simp] theorem mapForce_updTile (s : State) (n : Nat) (f : Tile → Tile) : (s.updTile n f).mapForce = s.mapForce := rfl
@[simp] theorem images_updTile (s : State) (n : Nat) (f : Tile → Tile) : (s.updTile n f).images = s.images := rfl
@[simp] theorem loadLen_updTile (s : State) (n : Nat) (f : Tile → Tile) : (s.updTile n f).loadLen = s.loadLen := rfl
@[simp] theorem ops_updTile (s : State) (n : Nat) (f : Tile → Tile) : (s.updTile n f).ops = s.ops := rfl
@[simp] theorem nextOp_updTile (s : State) (n : Nat) (f : Tile → Tile) : (s.updTile n f).nextOp = s.nextOp := rfl
@[simp] theorem nextAdmit_updTile (s : State) (n : Nat) (f : Tile → Tile) : (s.updTile n f).nextAdmit = s.nextAdmit := rfl
@[simp] theorem nextBooking_updTile (s : State) (n : Nat) (f : Tile → Tile) : (s.updTile n f).nextBooking = s.nextBooking := rfl
@[simp] theorem staged_updTile (s : State) (n : Nat) (f : Tile → Tile) : (s.updTile n f).staged = s.staged := rfl
@[simp] theorem releases_updTile (s : State) (n : Nat) (f : Tile → Tile) : (s.updTile n f).releases = s.releases := rfl
@[simp] theorem rqs_updTile (s : State) (n : Nat) (f : Tile → Tile) : (s.updTile n f).rqs = s.rqs := rfl
@[simp] theorem cqs_updTile (s : State) (n : Nat) (f : Tile → Tile) : (s.updTile n f).cqs = s.cqs := rfl
@[simp] theorem keeperBookings_updTile (s : State) (n : Nat) (f : Tile → Tile) : (s.updTile n f).keeperBookings = s.keeperBookings := rfl
@[simp] theorem keeperWatches_updTile (s : State) (n : Nat) (f : Tile → Tile) : (s.updTile n f).keeperWatches = s.keeperWatches := rfl
@[simp] theorem holdRanges_updTile (s : State) (n : Nat) (f : Tile → Tile) : (s.updTile n f).holdRanges = s.holdRanges := rfl
@[simp] theorem heldWrites_updTile (s : State) (n : Nat) (f : Tile → Tile) : (s.updTile n f).heldWrites = s.heldWrites := rfl
@[simp] theorem mig_updTile (s : State) (n : Nat) (f : Tile → Tile) : (s.updTile n f).mig = s.mig := rfl
@[simp] theorem chans_updTile (s : State) (n : Nat) (f : Tile → Tile) : (s.updTile n f).chans = s.chans := rfl
@[simp] theorem ctxs_updTile (s : State) (n : Nat) (f : Tile → Tile) : (s.updTile n f).ctxs = s.ctxs := rfl
@[simp] theorem gbOn_updTile (s : State) (n : Nat) (f : Tile → Tile) : (s.updTile n f).gbOn = s.gbOn := rfl
@[simp] theorem cel_updTile (s : State) (n : Nat) (f : Tile → Tile) : (s.updTile n f).cel = s.cel := rfl
@[simp] theorem exp_updTile (s : State) (n : Nat) (f : Tile → Tile) : (s.updTile n f).exp = s.exp := rfl
@[simp] theorem chn_updTile (s : State) (n : Nat) (f : Tile → Tile) : (s.updTile n f).chn = s.chn := rfl
@[simp] theorem pwr_updTile (s : State) (n : Nat) (f : Tile → Tile) : (s.updTile n f).pwr = s.pwr := rfl
@[simp] theorem kpr_updTile (s : State) (n : Nat) (f : Tile → Tile) : (s.updTile n f).kpr = s.kpr := rfl
@[simp] theorem err_updTile (s : State) (n : Nat) (f : Tile → Tile) : (s.updTile n f).err = s.err := rfl
@[simp] theorem sec_updTile (s : State) (n : Nat) (f : Tile → Tile) : (s.updTile n f).sec = s.sec := rfl

@[simp] theorem rd_updTile (s : State) (n : Nat) (f : Tile → Tile) (g : Fld) : (s.updTile n f).rd g = s.rd g := rfl

/-! `mwrite` changes `dram` and no other field. -/

@[simp] theorem pending_mwrite (s : State) (a : Nat) (bs : List Byte) : (s.mwrite a bs).pending = s.pending := rfl
@[simp] theorem free_mwrite (s : State) (a : Nat) (bs : List Byte) : (s.mwrite a bs).free = s.free := rfl
@[simp] theorem resp_mwrite (s : State) (a : Nat) (bs : List Byte) : (s.mwrite a bs).resp = s.resp := rfl
@[simp] theorem timeKc_mwrite (s : State) (a : Nat) (bs : List Byte) : (s.mwrite a bs).timeKc = s.timeKc := rfl
@[simp] theorem out_mwrite (s : State) (a : Nat) (bs : List Byte) : (s.mwrite a bs).out = s.out := rfl
@[simp] theorem heldOut_mwrite (s : State) (a : Nat) (bs : List Byte) : (s.mwrite a bs).heldOut = s.heldOut := rfl
@[simp] theorem regs_mwrite (s : State) (a : Nat) (bs : List Byte) : (s.mwrite a bs).regs = s.regs := rfl
@[simp] theorem snap_mwrite (s : State) (a : Nat) (bs : List Byte) : (s.mwrite a bs).snap = s.snap := rfl
@[simp] theorem hold_mwrite (s : State) (a : Nat) (bs : List Byte) : (s.mwrite a bs).hold = s.hold := rfl
@[simp] theorem chip_mwrite (s : State) (a : Nat) (bs : List Byte) : (s.mwrite a bs).chip = s.chip := rfl
@[simp] theorem gran_mwrite (s : State) (a : Nat) (bs : List Byte) : (s.mwrite a bs).gran = s.gran := rfl
@[simp] theorem refs_mwrite (s : State) (a : Nat) (bs : List Byte) : (s.mwrite a bs).refs = s.refs := rfl
@[simp] theorem walks_mwrite (s : State) (a : Nat) (bs : List Byte) : (s.mwrite a bs).walks = s.walks := rfl
@[simp] theorem part0_mwrite (s : State) (a : Nat) (bs : List Byte) : (s.mwrite a bs).part0 = s.part0 := rfl
@[simp] theorem part1_mwrite (s : State) (a : Nat) (bs : List Byte) : (s.mwrite a bs).part1 = s.part1 := rfl
@[simp] theorem mapForce_mwrite (s : State) (a : Nat) (bs : List Byte) : (s.mwrite a bs).mapForce = s.mapForce := rfl
@[simp] theorem images_mwrite (s : State) (a : Nat) (bs : List Byte) : (s.mwrite a bs).images = s.images := rfl
@[simp] theorem loadLen_mwrite (s : State) (a : Nat) (bs : List Byte) : (s.mwrite a bs).loadLen = s.loadLen := rfl
@[simp] theorem ops_mwrite (s : State) (a : Nat) (bs : List Byte) : (s.mwrite a bs).ops = s.ops := rfl
@[simp] theorem nextOp_mwrite (s : State) (a : Nat) (bs : List Byte) : (s.mwrite a bs).nextOp = s.nextOp := rfl
@[simp] theorem nextAdmit_mwrite (s : State) (a : Nat) (bs : List Byte) : (s.mwrite a bs).nextAdmit = s.nextAdmit := rfl
@[simp] theorem nextBooking_mwrite (s : State) (a : Nat) (bs : List Byte) : (s.mwrite a bs).nextBooking = s.nextBooking := rfl
@[simp] theorem staged_mwrite (s : State) (a : Nat) (bs : List Byte) : (s.mwrite a bs).staged = s.staged := rfl
@[simp] theorem releases_mwrite (s : State) (a : Nat) (bs : List Byte) : (s.mwrite a bs).releases = s.releases := rfl
@[simp] theorem rqs_mwrite (s : State) (a : Nat) (bs : List Byte) : (s.mwrite a bs).rqs = s.rqs := rfl
@[simp] theorem cqs_mwrite (s : State) (a : Nat) (bs : List Byte) : (s.mwrite a bs).cqs = s.cqs := rfl
@[simp] theorem keeperBookings_mwrite (s : State) (a : Nat) (bs : List Byte) : (s.mwrite a bs).keeperBookings = s.keeperBookings := rfl
@[simp] theorem keeperWatches_mwrite (s : State) (a : Nat) (bs : List Byte) : (s.mwrite a bs).keeperWatches = s.keeperWatches := rfl
@[simp] theorem holdRanges_mwrite (s : State) (a : Nat) (bs : List Byte) : (s.mwrite a bs).holdRanges = s.holdRanges := rfl
@[simp] theorem heldWrites_mwrite (s : State) (a : Nat) (bs : List Byte) : (s.mwrite a bs).heldWrites = s.heldWrites := rfl
@[simp] theorem mig_mwrite (s : State) (a : Nat) (bs : List Byte) : (s.mwrite a bs).mig = s.mig := rfl
@[simp] theorem chans_mwrite (s : State) (a : Nat) (bs : List Byte) : (s.mwrite a bs).chans = s.chans := rfl
@[simp] theorem ctxs_mwrite (s : State) (a : Nat) (bs : List Byte) : (s.mwrite a bs).ctxs = s.ctxs := rfl
@[simp] theorem gbOn_mwrite (s : State) (a : Nat) (bs : List Byte) : (s.mwrite a bs).gbOn = s.gbOn := rfl
@[simp] theorem tiles_mwrite (s : State) (a : Nat) (bs : List Byte) : (s.mwrite a bs).tiles = s.tiles := rfl
@[simp] theorem cel_mwrite (s : State) (a : Nat) (bs : List Byte) : (s.mwrite a bs).cel = s.cel := rfl
@[simp] theorem exp_mwrite (s : State) (a : Nat) (bs : List Byte) : (s.mwrite a bs).exp = s.exp := rfl
@[simp] theorem chn_mwrite (s : State) (a : Nat) (bs : List Byte) : (s.mwrite a bs).chn = s.chn := rfl
@[simp] theorem pwr_mwrite (s : State) (a : Nat) (bs : List Byte) : (s.mwrite a bs).pwr = s.pwr := rfl
@[simp] theorem kpr_mwrite (s : State) (a : Nat) (bs : List Byte) : (s.mwrite a bs).kpr = s.kpr := rfl
@[simp] theorem err_mwrite (s : State) (a : Nat) (bs : List Byte) : (s.mwrite a bs).err = s.err := rfl
@[simp] theorem sec_mwrite (s : State) (a : Nat) (bs : List Byte) : (s.mwrite a bs).sec = s.sec := rfl

@[simp] theorem rd_mwrite (s : State) (a : Nat) (bs : List Byte) (g : Fld) : (s.mwrite a bs).rd g = s.rd g := rfl

/-! `setRq` changes `rqs` and no other field. -/

@[simp] theorem pending_setRq (s : State) (q : Nat) (c : Option RqConf) : (s.setRq q c).pending = s.pending := rfl
@[simp] theorem free_setRq (s : State) (q : Nat) (c : Option RqConf) : (s.setRq q c).free = s.free := rfl
@[simp] theorem resp_setRq (s : State) (q : Nat) (c : Option RqConf) : (s.setRq q c).resp = s.resp := rfl
@[simp] theorem timeKc_setRq (s : State) (q : Nat) (c : Option RqConf) : (s.setRq q c).timeKc = s.timeKc := rfl
@[simp] theorem out_setRq (s : State) (q : Nat) (c : Option RqConf) : (s.setRq q c).out = s.out := rfl
@[simp] theorem heldOut_setRq (s : State) (q : Nat) (c : Option RqConf) : (s.setRq q c).heldOut = s.heldOut := rfl
@[simp] theorem regs_setRq (s : State) (q : Nat) (c : Option RqConf) : (s.setRq q c).regs = s.regs := rfl
@[simp] theorem snap_setRq (s : State) (q : Nat) (c : Option RqConf) : (s.setRq q c).snap = s.snap := rfl
@[simp] theorem hold_setRq (s : State) (q : Nat) (c : Option RqConf) : (s.setRq q c).hold = s.hold := rfl
@[simp] theorem chip_setRq (s : State) (q : Nat) (c : Option RqConf) : (s.setRq q c).chip = s.chip := rfl
@[simp] theorem dram_setRq (s : State) (q : Nat) (c : Option RqConf) : (s.setRq q c).dram = s.dram := rfl
@[simp] theorem gran_setRq (s : State) (q : Nat) (c : Option RqConf) : (s.setRq q c).gran = s.gran := rfl
@[simp] theorem refs_setRq (s : State) (q : Nat) (c : Option RqConf) : (s.setRq q c).refs = s.refs := rfl
@[simp] theorem walks_setRq (s : State) (q : Nat) (c : Option RqConf) : (s.setRq q c).walks = s.walks := rfl
@[simp] theorem part0_setRq (s : State) (q : Nat) (c : Option RqConf) : (s.setRq q c).part0 = s.part0 := rfl
@[simp] theorem part1_setRq (s : State) (q : Nat) (c : Option RqConf) : (s.setRq q c).part1 = s.part1 := rfl
@[simp] theorem mapForce_setRq (s : State) (q : Nat) (c : Option RqConf) : (s.setRq q c).mapForce = s.mapForce := rfl
@[simp] theorem images_setRq (s : State) (q : Nat) (c : Option RqConf) : (s.setRq q c).images = s.images := rfl
@[simp] theorem loadLen_setRq (s : State) (q : Nat) (c : Option RqConf) : (s.setRq q c).loadLen = s.loadLen := rfl
@[simp] theorem ops_setRq (s : State) (q : Nat) (c : Option RqConf) : (s.setRq q c).ops = s.ops := rfl
@[simp] theorem nextOp_setRq (s : State) (q : Nat) (c : Option RqConf) : (s.setRq q c).nextOp = s.nextOp := rfl
@[simp] theorem nextAdmit_setRq (s : State) (q : Nat) (c : Option RqConf) : (s.setRq q c).nextAdmit = s.nextAdmit := rfl
@[simp] theorem nextBooking_setRq (s : State) (q : Nat) (c : Option RqConf) : (s.setRq q c).nextBooking = s.nextBooking := rfl
@[simp] theorem staged_setRq (s : State) (q : Nat) (c : Option RqConf) : (s.setRq q c).staged = s.staged := rfl
@[simp] theorem releases_setRq (s : State) (q : Nat) (c : Option RqConf) : (s.setRq q c).releases = s.releases := rfl
@[simp] theorem cqs_setRq (s : State) (q : Nat) (c : Option RqConf) : (s.setRq q c).cqs = s.cqs := rfl
@[simp] theorem keeperBookings_setRq (s : State) (q : Nat) (c : Option RqConf) : (s.setRq q c).keeperBookings = s.keeperBookings := rfl
@[simp] theorem keeperWatches_setRq (s : State) (q : Nat) (c : Option RqConf) : (s.setRq q c).keeperWatches = s.keeperWatches := rfl
@[simp] theorem holdRanges_setRq (s : State) (q : Nat) (c : Option RqConf) : (s.setRq q c).holdRanges = s.holdRanges := rfl
@[simp] theorem heldWrites_setRq (s : State) (q : Nat) (c : Option RqConf) : (s.setRq q c).heldWrites = s.heldWrites := rfl
@[simp] theorem mig_setRq (s : State) (q : Nat) (c : Option RqConf) : (s.setRq q c).mig = s.mig := rfl
@[simp] theorem chans_setRq (s : State) (q : Nat) (c : Option RqConf) : (s.setRq q c).chans = s.chans := rfl
@[simp] theorem ctxs_setRq (s : State) (q : Nat) (c : Option RqConf) : (s.setRq q c).ctxs = s.ctxs := rfl
@[simp] theorem gbOn_setRq (s : State) (q : Nat) (c : Option RqConf) : (s.setRq q c).gbOn = s.gbOn := rfl
@[simp] theorem tiles_setRq (s : State) (q : Nat) (c : Option RqConf) : (s.setRq q c).tiles = s.tiles := rfl
@[simp] theorem cel_setRq (s : State) (q : Nat) (c : Option RqConf) : (s.setRq q c).cel = s.cel := rfl
@[simp] theorem exp_setRq (s : State) (q : Nat) (c : Option RqConf) : (s.setRq q c).exp = s.exp := rfl
@[simp] theorem chn_setRq (s : State) (q : Nat) (c : Option RqConf) : (s.setRq q c).chn = s.chn := rfl
@[simp] theorem pwr_setRq (s : State) (q : Nat) (c : Option RqConf) : (s.setRq q c).pwr = s.pwr := rfl
@[simp] theorem kpr_setRq (s : State) (q : Nat) (c : Option RqConf) : (s.setRq q c).kpr = s.kpr := rfl
@[simp] theorem err_setRq (s : State) (q : Nat) (c : Option RqConf) : (s.setRq q c).err = s.err := rfl
@[simp] theorem sec_setRq (s : State) (q : Nat) (c : Option RqConf) : (s.setRq q c).sec = s.sec := rfl

@[simp] theorem rd_setRq (s : State) (q : Nat) (c : Option RqConf) (g : Fld) : (s.setRq q c).rd g = s.rd g := rfl

/-! `setCq` changes `cqs` and no other field. -/

@[simp] theorem pending_setCq (s : State) (q : Nat) (c : Option CqConf) : (s.setCq q c).pending = s.pending := rfl
@[simp] theorem free_setCq (s : State) (q : Nat) (c : Option CqConf) : (s.setCq q c).free = s.free := rfl
@[simp] theorem resp_setCq (s : State) (q : Nat) (c : Option CqConf) : (s.setCq q c).resp = s.resp := rfl
@[simp] theorem timeKc_setCq (s : State) (q : Nat) (c : Option CqConf) : (s.setCq q c).timeKc = s.timeKc := rfl
@[simp] theorem out_setCq (s : State) (q : Nat) (c : Option CqConf) : (s.setCq q c).out = s.out := rfl
@[simp] theorem heldOut_setCq (s : State) (q : Nat) (c : Option CqConf) : (s.setCq q c).heldOut = s.heldOut := rfl
@[simp] theorem regs_setCq (s : State) (q : Nat) (c : Option CqConf) : (s.setCq q c).regs = s.regs := rfl
@[simp] theorem snap_setCq (s : State) (q : Nat) (c : Option CqConf) : (s.setCq q c).snap = s.snap := rfl
@[simp] theorem hold_setCq (s : State) (q : Nat) (c : Option CqConf) : (s.setCq q c).hold = s.hold := rfl
@[simp] theorem chip_setCq (s : State) (q : Nat) (c : Option CqConf) : (s.setCq q c).chip = s.chip := rfl
@[simp] theorem dram_setCq (s : State) (q : Nat) (c : Option CqConf) : (s.setCq q c).dram = s.dram := rfl
@[simp] theorem gran_setCq (s : State) (q : Nat) (c : Option CqConf) : (s.setCq q c).gran = s.gran := rfl
@[simp] theorem refs_setCq (s : State) (q : Nat) (c : Option CqConf) : (s.setCq q c).refs = s.refs := rfl
@[simp] theorem walks_setCq (s : State) (q : Nat) (c : Option CqConf) : (s.setCq q c).walks = s.walks := rfl
@[simp] theorem part0_setCq (s : State) (q : Nat) (c : Option CqConf) : (s.setCq q c).part0 = s.part0 := rfl
@[simp] theorem part1_setCq (s : State) (q : Nat) (c : Option CqConf) : (s.setCq q c).part1 = s.part1 := rfl
@[simp] theorem mapForce_setCq (s : State) (q : Nat) (c : Option CqConf) : (s.setCq q c).mapForce = s.mapForce := rfl
@[simp] theorem images_setCq (s : State) (q : Nat) (c : Option CqConf) : (s.setCq q c).images = s.images := rfl
@[simp] theorem loadLen_setCq (s : State) (q : Nat) (c : Option CqConf) : (s.setCq q c).loadLen = s.loadLen := rfl
@[simp] theorem ops_setCq (s : State) (q : Nat) (c : Option CqConf) : (s.setCq q c).ops = s.ops := rfl
@[simp] theorem nextOp_setCq (s : State) (q : Nat) (c : Option CqConf) : (s.setCq q c).nextOp = s.nextOp := rfl
@[simp] theorem nextAdmit_setCq (s : State) (q : Nat) (c : Option CqConf) : (s.setCq q c).nextAdmit = s.nextAdmit := rfl
@[simp] theorem nextBooking_setCq (s : State) (q : Nat) (c : Option CqConf) : (s.setCq q c).nextBooking = s.nextBooking := rfl
@[simp] theorem staged_setCq (s : State) (q : Nat) (c : Option CqConf) : (s.setCq q c).staged = s.staged := rfl
@[simp] theorem releases_setCq (s : State) (q : Nat) (c : Option CqConf) : (s.setCq q c).releases = s.releases := rfl
@[simp] theorem rqs_setCq (s : State) (q : Nat) (c : Option CqConf) : (s.setCq q c).rqs = s.rqs := rfl
@[simp] theorem keeperBookings_setCq (s : State) (q : Nat) (c : Option CqConf) : (s.setCq q c).keeperBookings = s.keeperBookings := rfl
@[simp] theorem keeperWatches_setCq (s : State) (q : Nat) (c : Option CqConf) : (s.setCq q c).keeperWatches = s.keeperWatches := rfl
@[simp] theorem holdRanges_setCq (s : State) (q : Nat) (c : Option CqConf) : (s.setCq q c).holdRanges = s.holdRanges := rfl
@[simp] theorem heldWrites_setCq (s : State) (q : Nat) (c : Option CqConf) : (s.setCq q c).heldWrites = s.heldWrites := rfl
@[simp] theorem mig_setCq (s : State) (q : Nat) (c : Option CqConf) : (s.setCq q c).mig = s.mig := rfl
@[simp] theorem chans_setCq (s : State) (q : Nat) (c : Option CqConf) : (s.setCq q c).chans = s.chans := rfl
@[simp] theorem ctxs_setCq (s : State) (q : Nat) (c : Option CqConf) : (s.setCq q c).ctxs = s.ctxs := rfl
@[simp] theorem gbOn_setCq (s : State) (q : Nat) (c : Option CqConf) : (s.setCq q c).gbOn = s.gbOn := rfl
@[simp] theorem tiles_setCq (s : State) (q : Nat) (c : Option CqConf) : (s.setCq q c).tiles = s.tiles := rfl
@[simp] theorem cel_setCq (s : State) (q : Nat) (c : Option CqConf) : (s.setCq q c).cel = s.cel := rfl
@[simp] theorem exp_setCq (s : State) (q : Nat) (c : Option CqConf) : (s.setCq q c).exp = s.exp := rfl
@[simp] theorem chn_setCq (s : State) (q : Nat) (c : Option CqConf) : (s.setCq q c).chn = s.chn := rfl
@[simp] theorem pwr_setCq (s : State) (q : Nat) (c : Option CqConf) : (s.setCq q c).pwr = s.pwr := rfl
@[simp] theorem kpr_setCq (s : State) (q : Nat) (c : Option CqConf) : (s.setCq q c).kpr = s.kpr := rfl
@[simp] theorem err_setCq (s : State) (q : Nat) (c : Option CqConf) : (s.setCq q c).err = s.err := rfl
@[simp] theorem sec_setCq (s : State) (q : Nat) (c : Option CqConf) : (s.setCq q c).sec = s.sec := rfl

@[simp] theorem rd_setCq (s : State) (q : Nat) (c : Option CqConf) (g : Fld) : (s.setCq q c).rd g = s.rd g := rfl

/-! `updOp` changes `ops` and no other field. -/

@[simp] theorem pending_updOp (s : State) (i : Nat) (f : Operation → Operation) : (s.updOp i f).pending = s.pending := rfl
@[simp] theorem free_updOp (s : State) (i : Nat) (f : Operation → Operation) : (s.updOp i f).free = s.free := rfl
@[simp] theorem resp_updOp (s : State) (i : Nat) (f : Operation → Operation) : (s.updOp i f).resp = s.resp := rfl
@[simp] theorem timeKc_updOp (s : State) (i : Nat) (f : Operation → Operation) : (s.updOp i f).timeKc = s.timeKc := rfl
@[simp] theorem out_updOp (s : State) (i : Nat) (f : Operation → Operation) : (s.updOp i f).out = s.out := rfl
@[simp] theorem heldOut_updOp (s : State) (i : Nat) (f : Operation → Operation) : (s.updOp i f).heldOut = s.heldOut := rfl
@[simp] theorem regs_updOp (s : State) (i : Nat) (f : Operation → Operation) : (s.updOp i f).regs = s.regs := rfl
@[simp] theorem snap_updOp (s : State) (i : Nat) (f : Operation → Operation) : (s.updOp i f).snap = s.snap := rfl
@[simp] theorem hold_updOp (s : State) (i : Nat) (f : Operation → Operation) : (s.updOp i f).hold = s.hold := rfl
@[simp] theorem chip_updOp (s : State) (i : Nat) (f : Operation → Operation) : (s.updOp i f).chip = s.chip := rfl
@[simp] theorem dram_updOp (s : State) (i : Nat) (f : Operation → Operation) : (s.updOp i f).dram = s.dram := rfl
@[simp] theorem gran_updOp (s : State) (i : Nat) (f : Operation → Operation) : (s.updOp i f).gran = s.gran := rfl
@[simp] theorem refs_updOp (s : State) (i : Nat) (f : Operation → Operation) : (s.updOp i f).refs = s.refs := rfl
@[simp] theorem walks_updOp (s : State) (i : Nat) (f : Operation → Operation) : (s.updOp i f).walks = s.walks := rfl
@[simp] theorem part0_updOp (s : State) (i : Nat) (f : Operation → Operation) : (s.updOp i f).part0 = s.part0 := rfl
@[simp] theorem part1_updOp (s : State) (i : Nat) (f : Operation → Operation) : (s.updOp i f).part1 = s.part1 := rfl
@[simp] theorem mapForce_updOp (s : State) (i : Nat) (f : Operation → Operation) : (s.updOp i f).mapForce = s.mapForce := rfl
@[simp] theorem images_updOp (s : State) (i : Nat) (f : Operation → Operation) : (s.updOp i f).images = s.images := rfl
@[simp] theorem loadLen_updOp (s : State) (i : Nat) (f : Operation → Operation) : (s.updOp i f).loadLen = s.loadLen := rfl
@[simp] theorem nextOp_updOp (s : State) (i : Nat) (f : Operation → Operation) : (s.updOp i f).nextOp = s.nextOp := rfl
@[simp] theorem nextAdmit_updOp (s : State) (i : Nat) (f : Operation → Operation) : (s.updOp i f).nextAdmit = s.nextAdmit := rfl
@[simp] theorem nextBooking_updOp (s : State) (i : Nat) (f : Operation → Operation) : (s.updOp i f).nextBooking = s.nextBooking := rfl
@[simp] theorem staged_updOp (s : State) (i : Nat) (f : Operation → Operation) : (s.updOp i f).staged = s.staged := rfl
@[simp] theorem releases_updOp (s : State) (i : Nat) (f : Operation → Operation) : (s.updOp i f).releases = s.releases := rfl
@[simp] theorem rqs_updOp (s : State) (i : Nat) (f : Operation → Operation) : (s.updOp i f).rqs = s.rqs := rfl
@[simp] theorem cqs_updOp (s : State) (i : Nat) (f : Operation → Operation) : (s.updOp i f).cqs = s.cqs := rfl
@[simp] theorem keeperBookings_updOp (s : State) (i : Nat) (f : Operation → Operation) : (s.updOp i f).keeperBookings = s.keeperBookings := rfl
@[simp] theorem keeperWatches_updOp (s : State) (i : Nat) (f : Operation → Operation) : (s.updOp i f).keeperWatches = s.keeperWatches := rfl
@[simp] theorem holdRanges_updOp (s : State) (i : Nat) (f : Operation → Operation) : (s.updOp i f).holdRanges = s.holdRanges := rfl
@[simp] theorem heldWrites_updOp (s : State) (i : Nat) (f : Operation → Operation) : (s.updOp i f).heldWrites = s.heldWrites := rfl
@[simp] theorem mig_updOp (s : State) (i : Nat) (f : Operation → Operation) : (s.updOp i f).mig = s.mig := rfl
@[simp] theorem chans_updOp (s : State) (i : Nat) (f : Operation → Operation) : (s.updOp i f).chans = s.chans := rfl
@[simp] theorem ctxs_updOp (s : State) (i : Nat) (f : Operation → Operation) : (s.updOp i f).ctxs = s.ctxs := rfl
@[simp] theorem gbOn_updOp (s : State) (i : Nat) (f : Operation → Operation) : (s.updOp i f).gbOn = s.gbOn := rfl
@[simp] theorem tiles_updOp (s : State) (i : Nat) (f : Operation → Operation) : (s.updOp i f).tiles = s.tiles := rfl
@[simp] theorem cel_updOp (s : State) (i : Nat) (f : Operation → Operation) : (s.updOp i f).cel = s.cel := rfl
@[simp] theorem exp_updOp (s : State) (i : Nat) (f : Operation → Operation) : (s.updOp i f).exp = s.exp := rfl
@[simp] theorem chn_updOp (s : State) (i : Nat) (f : Operation → Operation) : (s.updOp i f).chn = s.chn := rfl
@[simp] theorem pwr_updOp (s : State) (i : Nat) (f : Operation → Operation) : (s.updOp i f).pwr = s.pwr := rfl
@[simp] theorem kpr_updOp (s : State) (i : Nat) (f : Operation → Operation) : (s.updOp i f).kpr = s.kpr := rfl
@[simp] theorem err_updOp (s : State) (i : Nat) (f : Operation → Operation) : (s.updOp i f).err = s.err := rfl
@[simp] theorem sec_updOp (s : State) (i : Nat) (f : Operation → Operation) : (s.updOp i f).sec = s.sec := rfl

@[simp] theorem rd_updOp (s : State) (i : Nat) (f : Operation → Operation) (g : Fld) : (s.updOp i f).rd g = s.rd g := rfl

/-! `wrs` changes the register store alone. -/

@[simp] theorem pending_wrs (s : State) (l : List (Fld × Nat)) : (s.wrs l).pending = s.pending := by
  induction l generalizing s with
  | nil => rfl
  | cons x rest ih => exact ih (s.wr x.1 x.2)
@[simp] theorem free_wrs (s : State) (l : List (Fld × Nat)) : (s.wrs l).free = s.free := by
  induction l generalizing s with
  | nil => rfl
  | cons x rest ih => exact ih (s.wr x.1 x.2)
@[simp] theorem resp_wrs (s : State) (l : List (Fld × Nat)) : (s.wrs l).resp = s.resp := by
  induction l generalizing s with
  | nil => rfl
  | cons x rest ih => exact ih (s.wr x.1 x.2)
@[simp] theorem timeKc_wrs (s : State) (l : List (Fld × Nat)) : (s.wrs l).timeKc = s.timeKc := by
  induction l generalizing s with
  | nil => rfl
  | cons x rest ih => exact ih (s.wr x.1 x.2)
@[simp] theorem out_wrs (s : State) (l : List (Fld × Nat)) : (s.wrs l).out = s.out := by
  induction l generalizing s with
  | nil => rfl
  | cons x rest ih => exact ih (s.wr x.1 x.2)
@[simp] theorem heldOut_wrs (s : State) (l : List (Fld × Nat)) : (s.wrs l).heldOut = s.heldOut := by
  induction l generalizing s with
  | nil => rfl
  | cons x rest ih => exact ih (s.wr x.1 x.2)
@[simp] theorem snap_wrs (s : State) (l : List (Fld × Nat)) : (s.wrs l).snap = s.snap := by
  induction l generalizing s with
  | nil => rfl
  | cons x rest ih => exact ih (s.wr x.1 x.2)
@[simp] theorem hold_wrs (s : State) (l : List (Fld × Nat)) : (s.wrs l).hold = s.hold := by
  induction l generalizing s with
  | nil => rfl
  | cons x rest ih => exact ih (s.wr x.1 x.2)
@[simp] theorem chip_wrs (s : State) (l : List (Fld × Nat)) : (s.wrs l).chip = s.chip := by
  induction l generalizing s with
  | nil => rfl
  | cons x rest ih => exact ih (s.wr x.1 x.2)
@[simp] theorem dram_wrs (s : State) (l : List (Fld × Nat)) : (s.wrs l).dram = s.dram := by
  induction l generalizing s with
  | nil => rfl
  | cons x rest ih => exact ih (s.wr x.1 x.2)
@[simp] theorem gran_wrs (s : State) (l : List (Fld × Nat)) : (s.wrs l).gran = s.gran := by
  induction l generalizing s with
  | nil => rfl
  | cons x rest ih => exact ih (s.wr x.1 x.2)
@[simp] theorem refs_wrs (s : State) (l : List (Fld × Nat)) : (s.wrs l).refs = s.refs := by
  induction l generalizing s with
  | nil => rfl
  | cons x rest ih => exact ih (s.wr x.1 x.2)
@[simp] theorem walks_wrs (s : State) (l : List (Fld × Nat)) : (s.wrs l).walks = s.walks := by
  induction l generalizing s with
  | nil => rfl
  | cons x rest ih => exact ih (s.wr x.1 x.2)
@[simp] theorem part0_wrs (s : State) (l : List (Fld × Nat)) : (s.wrs l).part0 = s.part0 := by
  induction l generalizing s with
  | nil => rfl
  | cons x rest ih => exact ih (s.wr x.1 x.2)
@[simp] theorem part1_wrs (s : State) (l : List (Fld × Nat)) : (s.wrs l).part1 = s.part1 := by
  induction l generalizing s with
  | nil => rfl
  | cons x rest ih => exact ih (s.wr x.1 x.2)
@[simp] theorem mapForce_wrs (s : State) (l : List (Fld × Nat)) : (s.wrs l).mapForce = s.mapForce := by
  induction l generalizing s with
  | nil => rfl
  | cons x rest ih => exact ih (s.wr x.1 x.2)
@[simp] theorem images_wrs (s : State) (l : List (Fld × Nat)) : (s.wrs l).images = s.images := by
  induction l generalizing s with
  | nil => rfl
  | cons x rest ih => exact ih (s.wr x.1 x.2)
@[simp] theorem loadLen_wrs (s : State) (l : List (Fld × Nat)) : (s.wrs l).loadLen = s.loadLen := by
  induction l generalizing s with
  | nil => rfl
  | cons x rest ih => exact ih (s.wr x.1 x.2)
@[simp] theorem ops_wrs (s : State) (l : List (Fld × Nat)) : (s.wrs l).ops = s.ops := by
  induction l generalizing s with
  | nil => rfl
  | cons x rest ih => exact ih (s.wr x.1 x.2)
@[simp] theorem nextOp_wrs (s : State) (l : List (Fld × Nat)) : (s.wrs l).nextOp = s.nextOp := by
  induction l generalizing s with
  | nil => rfl
  | cons x rest ih => exact ih (s.wr x.1 x.2)
@[simp] theorem nextAdmit_wrs (s : State) (l : List (Fld × Nat)) : (s.wrs l).nextAdmit = s.nextAdmit := by
  induction l generalizing s with
  | nil => rfl
  | cons x rest ih => exact ih (s.wr x.1 x.2)
@[simp] theorem nextBooking_wrs (s : State) (l : List (Fld × Nat)) : (s.wrs l).nextBooking = s.nextBooking := by
  induction l generalizing s with
  | nil => rfl
  | cons x rest ih => exact ih (s.wr x.1 x.2)
@[simp] theorem staged_wrs (s : State) (l : List (Fld × Nat)) : (s.wrs l).staged = s.staged := by
  induction l generalizing s with
  | nil => rfl
  | cons x rest ih => exact ih (s.wr x.1 x.2)
@[simp] theorem releases_wrs (s : State) (l : List (Fld × Nat)) : (s.wrs l).releases = s.releases := by
  induction l generalizing s with
  | nil => rfl
  | cons x rest ih => exact ih (s.wr x.1 x.2)
@[simp] theorem rqs_wrs (s : State) (l : List (Fld × Nat)) : (s.wrs l).rqs = s.rqs := by
  induction l generalizing s with
  | nil => rfl
  | cons x rest ih => exact ih (s.wr x.1 x.2)
@[simp] theorem cqs_wrs (s : State) (l : List (Fld × Nat)) : (s.wrs l).cqs = s.cqs := by
  induction l generalizing s with
  | nil => rfl
  | cons x rest ih => exact ih (s.wr x.1 x.2)
@[simp] theorem keeperBookings_wrs (s : State) (l : List (Fld × Nat)) : (s.wrs l).keeperBookings = s.keeperBookings := by
  induction l generalizing s with
  | nil => rfl
  | cons x rest ih => exact ih (s.wr x.1 x.2)
@[simp] theorem keeperWatches_wrs (s : State) (l : List (Fld × Nat)) : (s.wrs l).keeperWatches = s.keeperWatches := by
  induction l generalizing s with
  | nil => rfl
  | cons x rest ih => exact ih (s.wr x.1 x.2)
@[simp] theorem holdRanges_wrs (s : State) (l : List (Fld × Nat)) : (s.wrs l).holdRanges = s.holdRanges := by
  induction l generalizing s with
  | nil => rfl
  | cons x rest ih => exact ih (s.wr x.1 x.2)
@[simp] theorem heldWrites_wrs (s : State) (l : List (Fld × Nat)) : (s.wrs l).heldWrites = s.heldWrites := by
  induction l generalizing s with
  | nil => rfl
  | cons x rest ih => exact ih (s.wr x.1 x.2)
@[simp] theorem mig_wrs (s : State) (l : List (Fld × Nat)) : (s.wrs l).mig = s.mig := by
  induction l generalizing s with
  | nil => rfl
  | cons x rest ih => exact ih (s.wr x.1 x.2)
@[simp] theorem chans_wrs (s : State) (l : List (Fld × Nat)) : (s.wrs l).chans = s.chans := by
  induction l generalizing s with
  | nil => rfl
  | cons x rest ih => exact ih (s.wr x.1 x.2)
@[simp] theorem ctxs_wrs (s : State) (l : List (Fld × Nat)) : (s.wrs l).ctxs = s.ctxs := by
  induction l generalizing s with
  | nil => rfl
  | cons x rest ih => exact ih (s.wr x.1 x.2)
@[simp] theorem gbOn_wrs (s : State) (l : List (Fld × Nat)) : (s.wrs l).gbOn = s.gbOn := by
  induction l generalizing s with
  | nil => rfl
  | cons x rest ih => exact ih (s.wr x.1 x.2)
@[simp] theorem tiles_wrs (s : State) (l : List (Fld × Nat)) : (s.wrs l).tiles = s.tiles := by
  induction l generalizing s with
  | nil => rfl
  | cons x rest ih => exact ih (s.wr x.1 x.2)
@[simp] theorem cel_wrs (s : State) (l : List (Fld × Nat)) : (s.wrs l).cel = s.cel := by
  induction l generalizing s with
  | nil => rfl
  | cons x rest ih => exact ih (s.wr x.1 x.2)
@[simp] theorem exp_wrs (s : State) (l : List (Fld × Nat)) : (s.wrs l).exp = s.exp := by
  induction l generalizing s with
  | nil => rfl
  | cons x rest ih => exact ih (s.wr x.1 x.2)
@[simp] theorem chn_wrs (s : State) (l : List (Fld × Nat)) : (s.wrs l).chn = s.chn := by
  induction l generalizing s with
  | nil => rfl
  | cons x rest ih => exact ih (s.wr x.1 x.2)
@[simp] theorem pwr_wrs (s : State) (l : List (Fld × Nat)) : (s.wrs l).pwr = s.pwr := by
  induction l generalizing s with
  | nil => rfl
  | cons x rest ih => exact ih (s.wr x.1 x.2)
@[simp] theorem kpr_wrs (s : State) (l : List (Fld × Nat)) : (s.wrs l).kpr = s.kpr := by
  induction l generalizing s with
  | nil => rfl
  | cons x rest ih => exact ih (s.wr x.1 x.2)
@[simp] theorem err_wrs (s : State) (l : List (Fld × Nat)) : (s.wrs l).err = s.err := by
  induction l generalizing s with
  | nil => rfl
  | cons x rest ih => exact ih (s.wr x.1 x.2)
@[simp] theorem sec_wrs (s : State) (l : List (Fld × Nat)) : (s.wrs l).sec = s.sec := by
  induction l generalizing s with
  | nil => rfl
  | cons x rest ih => exact ih (s.wr x.1 x.2)

/-! `setPart` changes one of the two partitions. -/

@[simp] theorem pending_setPart (s : State) (p : Nat) (x : Part) : (s.setPart p x).pending = s.pending := by
  unfold State.setPart; split <;> rfl
@[simp] theorem free_setPart (s : State) (p : Nat) (x : Part) : (s.setPart p x).free = s.free := by
  unfold State.setPart; split <;> rfl
@[simp] theorem resp_setPart (s : State) (p : Nat) (x : Part) : (s.setPart p x).resp = s.resp := by
  unfold State.setPart; split <;> rfl
@[simp] theorem timeKc_setPart (s : State) (p : Nat) (x : Part) : (s.setPart p x).timeKc = s.timeKc := by
  unfold State.setPart; split <;> rfl
@[simp] theorem out_setPart (s : State) (p : Nat) (x : Part) : (s.setPart p x).out = s.out := by
  unfold State.setPart; split <;> rfl
@[simp] theorem heldOut_setPart (s : State) (p : Nat) (x : Part) : (s.setPart p x).heldOut = s.heldOut := by
  unfold State.setPart; split <;> rfl
@[simp] theorem regs_setPart (s : State) (p : Nat) (x : Part) : (s.setPart p x).regs = s.regs := by
  unfold State.setPart; split <;> rfl
@[simp] theorem snap_setPart (s : State) (p : Nat) (x : Part) : (s.setPart p x).snap = s.snap := by
  unfold State.setPart; split <;> rfl
@[simp] theorem hold_setPart (s : State) (p : Nat) (x : Part) : (s.setPart p x).hold = s.hold := by
  unfold State.setPart; split <;> rfl
@[simp] theorem chip_setPart (s : State) (p : Nat) (x : Part) : (s.setPart p x).chip = s.chip := by
  unfold State.setPart; split <;> rfl
@[simp] theorem dram_setPart (s : State) (p : Nat) (x : Part) : (s.setPart p x).dram = s.dram := by
  unfold State.setPart; split <;> rfl
@[simp] theorem gran_setPart (s : State) (p : Nat) (x : Part) : (s.setPart p x).gran = s.gran := by
  unfold State.setPart; split <;> rfl
@[simp] theorem refs_setPart (s : State) (p : Nat) (x : Part) : (s.setPart p x).refs = s.refs := by
  unfold State.setPart; split <;> rfl
@[simp] theorem walks_setPart (s : State) (p : Nat) (x : Part) : (s.setPart p x).walks = s.walks := by
  unfold State.setPart; split <;> rfl
@[simp] theorem mapForce_setPart (s : State) (p : Nat) (x : Part) : (s.setPart p x).mapForce = s.mapForce := by
  unfold State.setPart; split <;> rfl
@[simp] theorem images_setPart (s : State) (p : Nat) (x : Part) : (s.setPart p x).images = s.images := by
  unfold State.setPart; split <;> rfl
@[simp] theorem loadLen_setPart (s : State) (p : Nat) (x : Part) : (s.setPart p x).loadLen = s.loadLen := by
  unfold State.setPart; split <;> rfl
@[simp] theorem ops_setPart (s : State) (p : Nat) (x : Part) : (s.setPart p x).ops = s.ops := by
  unfold State.setPart; split <;> rfl
@[simp] theorem nextOp_setPart (s : State) (p : Nat) (x : Part) : (s.setPart p x).nextOp = s.nextOp := by
  unfold State.setPart; split <;> rfl
@[simp] theorem nextAdmit_setPart (s : State) (p : Nat) (x : Part) : (s.setPart p x).nextAdmit = s.nextAdmit := by
  unfold State.setPart; split <;> rfl
@[simp] theorem nextBooking_setPart (s : State) (p : Nat) (x : Part) : (s.setPart p x).nextBooking = s.nextBooking := by
  unfold State.setPart; split <;> rfl
@[simp] theorem staged_setPart (s : State) (p : Nat) (x : Part) : (s.setPart p x).staged = s.staged := by
  unfold State.setPart; split <;> rfl
@[simp] theorem releases_setPart (s : State) (p : Nat) (x : Part) : (s.setPart p x).releases = s.releases := by
  unfold State.setPart; split <;> rfl
@[simp] theorem rqs_setPart (s : State) (p : Nat) (x : Part) : (s.setPart p x).rqs = s.rqs := by
  unfold State.setPart; split <;> rfl
@[simp] theorem cqs_setPart (s : State) (p : Nat) (x : Part) : (s.setPart p x).cqs = s.cqs := by
  unfold State.setPart; split <;> rfl
@[simp] theorem keeperBookings_setPart (s : State) (p : Nat) (x : Part) : (s.setPart p x).keeperBookings = s.keeperBookings := by
  unfold State.setPart; split <;> rfl
@[simp] theorem keeperWatches_setPart (s : State) (p : Nat) (x : Part) : (s.setPart p x).keeperWatches = s.keeperWatches := by
  unfold State.setPart; split <;> rfl
@[simp] theorem holdRanges_setPart (s : State) (p : Nat) (x : Part) : (s.setPart p x).holdRanges = s.holdRanges := by
  unfold State.setPart; split <;> rfl
@[simp] theorem heldWrites_setPart (s : State) (p : Nat) (x : Part) : (s.setPart p x).heldWrites = s.heldWrites := by
  unfold State.setPart; split <;> rfl
@[simp] theorem mig_setPart (s : State) (p : Nat) (x : Part) : (s.setPart p x).mig = s.mig := by
  unfold State.setPart; split <;> rfl
@[simp] theorem chans_setPart (s : State) (p : Nat) (x : Part) : (s.setPart p x).chans = s.chans := by
  unfold State.setPart; split <;> rfl
@[simp] theorem ctxs_setPart (s : State) (p : Nat) (x : Part) : (s.setPart p x).ctxs = s.ctxs := by
  unfold State.setPart; split <;> rfl
@[simp] theorem gbOn_setPart (s : State) (p : Nat) (x : Part) : (s.setPart p x).gbOn = s.gbOn := by
  unfold State.setPart; split <;> rfl
@[simp] theorem tiles_setPart (s : State) (p : Nat) (x : Part) : (s.setPart p x).tiles = s.tiles := by
  unfold State.setPart; split <;> rfl
@[simp] theorem cel_setPart (s : State) (p : Nat) (x : Part) : (s.setPart p x).cel = s.cel := by
  unfold State.setPart; split <;> rfl
@[simp] theorem exp_setPart (s : State) (p : Nat) (x : Part) : (s.setPart p x).exp = s.exp := by
  unfold State.setPart; split <;> rfl
@[simp] theorem chn_setPart (s : State) (p : Nat) (x : Part) : (s.setPart p x).chn = s.chn := by
  unfold State.setPart; split <;> rfl
@[simp] theorem pwr_setPart (s : State) (p : Nat) (x : Part) : (s.setPart p x).pwr = s.pwr := by
  unfold State.setPart; split <;> rfl
@[simp] theorem kpr_setPart (s : State) (p : Nat) (x : Part) : (s.setPart p x).kpr = s.kpr := by
  unfold State.setPart; split <;> rfl
@[simp] theorem err_setPart (s : State) (p : Nat) (x : Part) : (s.setPart p x).err = s.err := by
  unfold State.setPart; split <;> rfl
@[simp] theorem sec_setPart (s : State) (p : Nat) (x : Part) : (s.setPart p x).sec = s.sec := by
  unfold State.setPart; split <;> rfl
@[simp] theorem rd_setPart (s : State) (p : Nat) (x : Part) (g : Fld) : (s.setPart p x).rd g = s.rd g :=
  rd_congr (regs_setPart s p x) g

/-- The partition written. -/
@[simp] theorem part_setPart_same (s : State) (p : Nat) (x : Part) : (s.setPart p x).part p = x := by
  unfold State.setPart State.part; split <;> rfl

/-- The other partition. -/
theorem part_setPart_ne (s : State) {p q : Nat} (x : Part) (h : (p = 0) ≠ (q = 0)) :
    (s.setPart p x).part q = s.part q := by
  unfold State.setPart State.part
  by_cases hp : p = 0 <;> by_cases hq : q = 0 <;> simp_all

@[simp] theorem part_wr (s : State) (f : Fld) (v p : Nat) : (s.wr f v).part p = s.part p := rfl

/-- The tile written. -/
@[simp] theorem tile_updTile_same (s : State) (n : Nat) (f : Tile → Tile) : (s.updTile n f).tile n = f (s.tile n) :=
  SMap.get_set_same _ _ _ _

/-- Every other tile. -/
theorem tile_updTile_ne (s : State) {n m : Nat} (f : Tile → Tile) (h : n ≠ m) :
    (s.updTile n f).tile m = s.tile m := SMap.get_set_ne _ _ _ h

@[simp] theorem tile_wr (s : State) (f : Fld) (v n : Nat) : (s.wr f v).tile n = s.tile n := rfl

/-- The request queue written. -/
@[simp] theorem rq_setRq_same (s : State) (q : Nat) (c : Option RqConf) : (s.setRq q c).rq q = c :=
  SMap.get_set_same _ _ _ _

/-- Every other request queue. -/
theorem rq_setRq_ne (s : State) {q r : Nat} (c : Option RqConf) (h : q ≠ r) : (s.setRq q c).rq r = s.rq r :=
  SMap.get_set_ne _ _ _ h

/-- The completion queue written. -/
@[simp] theorem cq_setCq_same (s : State) (q : Nat) (c : Option CqConf) : (s.setCq q c).cq q = c :=
  SMap.get_set_same _ _ _ _

/-- Every other completion queue. -/
theorem cq_setCq_ne (s : State) {q r : Nat} (c : Option CqConf) (h : q ≠ r) : (s.setCq q c).cq r = s.cq r :=
  SMap.get_set_ne _ _ _ h

end Sys2Proof.Machine
end

