-- ==== Sys2Proof/Laws/Ops.lean ====
section
/-! SUPPORT. What each shared operation can do, said once: which parts of the state it may change, and that it keeps the
stores canonical. A proof about a command cites these and unfolds none of the operations. -/

namespace Sys2Proof.Machine

/-! Iteration. -/

/-- What every round of an iteration keeps, the iteration keeps. -/
theorem iter_keeps {P : State → Prop} (n : Nat) (f : Nat → State → State)
    (h : ∀ i t, i < n → P t → P (f i t)) (s : State) (hs : P s) : P (iter n f s) := by
  have aux : ∀ (l : List Nat), (∀ i ∈ l, i < n) → ∀ t, P t → P (l.foldl (fun t i => f i t) t) := by
    intro l
    induction l with
    | nil => exact fun _ _ ht => ht
    | cons i rest ih =>
      intro hl t ht
      exact ih (fun j hj => hl j (by simp [hj])) _ (h i t (hl i (by simp)) ht)
  exact aux _ (fun i hi => List.mem_range.mp hi) s hs

/-- What every element's round keeps, a pass over a list keeps. -/
theorem overList_keeps {α : Type} {P : State → Prop} (l : List α) (f : α → State → State)
    (h : ∀ x ∈ l, ∀ t, P t → P (f x t)) (s : State) (hs : P s) : P (overList l f s) := by
  unfold overList
  induction l generalizing s with
  | nil => exact hs
  | cons x rest ih =>
    exact ih (fun y hy t ht => h y (by simp [hy]) t ht) _ (h x (by simp) s hs)

/-! Shapes: what an operation may change. -/

/-- `t` is `s` but for registers and what is sent. -/
def Sends (s t : State) : Prop := ∃ r o h, t = { s with regs := r, out := o, heldOut := h }

/-- `t` is `s` but for registers, what is sent, the error path's records, the alert pin and the counter of free
values. -/
def Reports (s t : State) : Prop := ∃ f r o h e a,
  t = { s with free := f, regs := r, out := o, heldOut := h, err := e, chip := { s.chip with alertLow := a } }

theorem Sends.refl (s : State) : Sends s s := ⟨_, _, _, rfl⟩

theorem Sends.trans {s t u : State} (a : Sends s t) (b : Sends t u) : Sends s u := by
  obtain ⟨_, _, _, rfl⟩ := a
  obtain ⟨_, _, _, rfl⟩ := b
  exact ⟨_, _, _, rfl⟩

theorem Reports.refl (s : State) : Reports s s := ⟨_, _, _, _, _, _, rfl⟩

theorem Reports.trans {s t u : State} (a : Reports s t) (b : Reports t u) : Reports s u := by
  obtain ⟨_, _, _, _, _, _, rfl⟩ := a
  obtain ⟨_, _, _, _, _, _, rfl⟩ := b
  exact ⟨_, _, _, _, _, _, rfl⟩

theorem Sends.reports {s t : State} (a : Sends s t) : Reports s t := by
  obtain ⟨_, _, _, rfl⟩ := a
  exact ⟨_, _, _, _, _, _, rfl⟩

/-- Several writes change the register store only. -/
theorem wrs_shape (l : List (Fld × Nat)) (s : State) : ∃ r, s.wrs l = { s with regs := r } := by
  induction l generalizing s with
  | nil => exact ⟨s.regs, rfl⟩
  | cons x rest ih =>
    obtain ⟨r, hr⟩ := ih (s.wr x.1 x.2)
    exact ⟨r, by simpa [State.wrs, State.wr] using hr⟩

/-- One write likewise. -/
theorem wr_sends (s : State) (f : Fld) (v : Nat) : Sends s (s.wr f v) := ⟨_, _, _, rfl⟩

/-- Sending changes what has been sent or what waits to be sent. -/
theorem emit_shape (s : State) (e : Emit) : ∃ o h, s.emit e = { s with out := o, heldOut := h } := by
  unfold State.emit
  split
  · exact ⟨_, _, rfl⟩
  · split
    · exact ⟨_, _, rfl⟩
    · split <;> exact ⟨_, _, rfl⟩

/-- A write to host memory likewise. -/
theorem hostWrite_shape (s : State) (a : Nat) (bs : List Byte) (b : Bool) :
    ∃ o h, s.hostWrite a bs b = { s with out := o, heldOut := h } := emit_shape s _

/-- A vector's message is sent, or its pending bit set, or nothing happens. -/
theorem msix_sends (s : State) (v : Nat) : Sends s (s.msix v) := by
  unfold State.msix
  split
  · exact Sends.refl s
  · split
    · exact wr_sends s _ _
    · obtain ⟨o, h, e⟩ := emit_shape s (.msix v (s.rd (Reg.MSIX_ADDR_LO_ADDR v) + 2 ^ 32 * s.rd (Reg.MSIX_ADDR_HI_ADDR v))
        (s.rd (Reg.MSIX_DATA_DATA v)))
      exact ⟨_, o, h, e⟩

/-- An event changes registers and what is sent. -/
theorem raise_sends (s : State) (n : Nat) (b e : Fld) : Sends s (s.raise n b e) := by
  unfold State.raise
  split
  · exact Sends.refl s
  · split
    · exact (wr_sends s b 1).trans (msix_sends _ _)
    · exact wr_sends s b 1

/-- A test against ERR_ALERT_EN changes registers, what is sent and the alert pin. -/
theorem alertTest_reports (s : State) (x : ErrRec) : Reports s (s.alertTest x) := by
  unfold State.alertTest
  split
  · have a := (raise_sends s 9 Reg.ERR_IRQ_STATUS_ALERT Reg.ERR_IRQ_EN_BITS).reports
    cases h : (s.raiseErr Reg.ERR_IRQ_STATUS_ALERT).kpr.everReady
    · simp only [h, Bool.false_eq_true, if_false]
      exact a
    · simp only [h, if_true]
      exact a.trans ⟨_, _, _, _, _, _, rfl⟩
  · exact Reports.refl s

/-- What the collector keeps of a report. -/
theorem err_reports (s : State) (e : ErrPath) : Reports s { s with err := e } := ⟨_, _, _, _, _, _, rfl⟩

/-- An error report changes registers, what is sent, the error path's records and the alert pin. -/
theorem report_reports (s : State) (x : ErrRec) : Reports s (s.report x) := by
  unfold State.report
  refine Reports.trans ?_ (alertTest_reports _ _)
  have a := (wr_sends s (Reg.ERR_CLASS_CNT_COUNT x.cls) (minNat (s.rd (Reg.ERR_CLASS_CNT_COUNT x.cls) + 1)
    (2 ^ (Reg.ERR_CLASS_CNT_COUNT x.cls).width - 1))).reports
  simp only
  split
  · exact a.trans ((err_reports _ _).trans (err_reports _ _))
  · exact a.trans ((err_reports _ _).trans ((wr_sends _ _ _).reports.trans (raise_sends _ _ _ _).reports))

/-- Reporting a code likewise. -/
theorem rep_reports (s : State) (code sev : Nat) : Reports s (s.rep code sev) := report_reports s _

/-- A trace entry changes registers, what is sent, the error path's records and the counter of free values. -/
theorem trace_reports (s : State) (g code : Nat) (d : List Nat) : Reports s (s.trace g code d) := by
  have fresh : Reports s s.freshNat.2 := ⟨_, _, _, _, _, _, rfl⟩
  unfold State.trace
  simp only
  split
  · exact Reports.refl s
  · split
    · split
      · exact fresh.trans (err_reports _ _)
      · exact fresh.trans ((err_reports _ _).trans ((wr_sends _ _ _).reports.trans (raise_sends _ _ _ _).reports))
    · exact fresh

/-- Holding one tile changes registers and tiles only. -/
theorem safeTile_shape (n : Nat) (s : State) : ∃ r tl, s.safeTile n = { s with regs := r, tiles := tl } :=
  ⟨_, _, rfl⟩

/-- Setting the divider changes registers only. -/
theorem safeDiv_shape (s : State) (p : Nat) : ∃ r, s.safeDiv p = { s with regs := r } := by
  unfold State.safeDiv
  split
  · exact ⟨_, rfl⟩
  · exact ⟨_, rfl⟩

/-- Holding several tiles changes registers and tiles only. -/
theorem safeTiles_shape (l : List Nat) (s : State) :
    ∃ r tl, overList l State.safeTile s = { s with regs := r, tiles := tl } := by
  induction l generalizing s with
  | nil => exact ⟨s.regs, s.tiles, rfl⟩
  | cons n l ih =>
    obtain ⟨r, tl, e⟩ := safeTile_shape n s
    obtain ⟨r', tl', e'⟩ := ih { s with regs := r, tiles := tl }
    refine ⟨r', tl', ?_⟩
    rw [← e] at e'
    exact e'.trans (by rw [e])

/-- Holding a partition changes registers and tiles only. -/
theorem safeHold_shape (s : State) (p : Nat) : ∃ r tl, s.safeHold p = { s with regs := r, tiles := tl } := by
  unfold State.safeHold
  split
  · obtain ⟨r, e⟩ := safeDiv_shape s p
    obtain ⟨r', tl, e'⟩ := safeTiles_shape (s.part p).tiles { s with regs := r }
    exact ⟨r', tl, by rw [e, e']⟩
  · exact ⟨s.regs, s.tiles, rfl⟩

/-- Entering the safe state changes registers, what is sent, the error path, the alert pin, the tiles, the partitions'
steps and Keeper's update, and ends every operation; all else stays. -/
theorem enterSafe_shape (s : State) (x : ErrRec) : ∃ t tl p q ops st k, Reports s t ∧
    s.enterSafe x = { t with tiles := tl, part0 := p, part1 := q, ops := ops, staged := st, kpr := k } := by
  have a := report_reports s { x with sev := 4 }
  unfold State.enterSafe
  generalize s.report { x with sev := 4 } = u at a ⊢
  simp only
  split
  · exact ⟨_, _, _, _, _, _, _, a, rfl⟩
  · have b : Sends u (u.raiseErr Reg.ERR_IRQ_STATUS_SAFE) := raise_sends _ 9 _ _
    generalize u.raiseErr Reg.ERR_IRQ_STATUS_SAFE = v at b ⊢
    have c := a.trans b.reports
    obtain ⟨r0, t0, e0⟩ := safeHold_shape v 0
    obtain ⟨r1, t1, e1⟩ := safeHold_shape { v with regs := r0, tiles := t0 } 1
    obtain ⟨r, e⟩ := wrs_shape [(Reg.ERR_SAFE_SAFE, 1), (Reg.ERR_SAFE_CLASS, x.cls), (Reg.ERR_SAFE_CODE, x.code),
      (Reg.KPR_STATUS_STATE, 6)] { v with regs := r1, tiles := t1 }
    rw [e0, e1, e]
    exact ⟨{ v with regs := r, chip := { v.chip with alertLow := true } }, _, _, _, _, _, _,
      c.trans ⟨_, _, _, _, _, _, rfl⟩, rfl⟩

/-! The gates: what stands behind one happens, or its refusal. -/

/-- A host write reaches its register, or nothing changes. -/
theorem host_cases (s : State) (off : Nat) (k : State → State) :
    (s.hostOk off = true ∧ s.host off k = k s) ∨ (s.hostOk off = false ∧ s.host off k = s) := by
  cases h : s.hostOk off <;> simp [State.host, h]

/-- An event happens, or nothing changes. -/
theorem engine_cases (s : State) (k : State → State) :
    (s.live = true ∧ s.engine k = k s) ∨ (s.live = false ∧ s.engine k = s) := by
  cases h : s.live <;> simp [State.engine, h]

/-- A command of Keeper's is performed, or its code says that Keeper is not ready. -/
theorem keeper_cases (s : State) (c : Fld) (k : State → State) :
    (s.ready = true ∧ s.keeper c k = k s) ∨ (s.ready = false ∧ s.keeper c k = s.wr c Code.KPR_E_NOT_READY) := by
  cases h : s.ready <;> simp [State.keeper, h]

/-- A doorbell arrives, or nothing changes. -/
theorem doorbell_cases (s : State) (k : State → State) :
    (s.barOk = true ∧ s.doorbell k = k s) ∨
    (s.barOk = false ∧ s.doorbell k = s) := by
  cases h : s.barOk <;> simp [State.doorbell, h]

/-! The stores stay canonical. -/

/-- An update of neither store. -/
theorem stores_of_same {s t : State} (hd : t.dram = s.dram) (hr : t.regs = s.regs) (h : s.stores) : t.stores := by
  unfold State.stores at *
  rw [hd, hr]
  exact h

theorem stores_wr {s : State} (f : Fld) (v : Nat) (h : s.stores) : (s.wr f v).stores := ⟨h.1, regs_wf_wr s f v h.2⟩

theorem stores_wrs {s : State} (l : List (Fld × Nat)) (h : s.stores) : (s.wrs l).stores := by
  induction l generalizing s with
  | nil => exact h
  | cons x rest ih => exact ih (stores_wr x.1 x.2 h)

theorem stores_add {s : State} (f : Fld) (n : Nat) (h : s.stores) : (s.add f n).stores := stores_wr f _ h

theorem stores_inc {s : State} (f : Fld) (h : s.stores) : (s.inc f).stores := stores_wr f _ h

theorem stores_addSat {s : State} (f : Fld) (n : Nat) (h : s.stores) : (s.addSat f n).stores := stores_wr f _ h

theorem stores_clr {s : State} (f : Fld) (h : s.stores) : (s.clr f).stores := stores_wr f _ h

theorem stores_emit {s : State} (e : Emit) (h : s.stores) : (s.emit e).stores := by
  obtain ⟨o, k, he⟩ := emit_shape s e
  rw [he]
  exact h

theorem stores_hostWrite {s : State} (a : Nat) (bs : List Byte) (b : Bool) (h : s.stores) : (s.hostWrite a bs b).stores :=
  stores_emit _ h

theorem stores_msix {s : State} (v : Nat) (h : s.stores) : (s.msix v).stores := by
  unfold State.msix
  split
  · exact h
  · split
    · exact stores_wr _ _ h
    · exact stores_emit _ h

theorem stores_raise {s : State} (n : Nat) (b e : Fld) (h : s.stores) : (s.raise n b e).stores := by
  unfold State.raise
  split
  · exact h
  · split
    · exact stores_msix _ (stores_wr _ _ h)
    · exact stores_wr _ _ h

theorem stores_report {s : State} (x : ErrRec) (h : s.stores) : (s.report x).stores := by
  have alert : ∀ (t : State) (y : ErrRec), t.stores → (t.alertTest y).stores := by
    intro t y ht
    unfold State.alertTest
    split
    · have hr := stores_raise 9 Reg.ERR_IRQ_STATUS_ALERT Reg.ERR_IRQ_EN_BITS ht
      cases hu : (t.raiseErr Reg.ERR_IRQ_STATUS_ALERT).kpr.everReady
      · simp only [hu, Bool.false_eq_true, if_false]
        exact hr
      · simp only [hu, if_true]
        exact hr
    · exact ht
  unfold State.report
  simp only
  split
  · exact alert _ _ (stores_of_same rfl rfl (stores_addSat (Reg.ERR_CLASS_CNT_COUNT x.cls) 1 h))
  · exact alert _ _ (stores_raise 9 _ _ (stores_addSat _ _
      (stores_of_same rfl rfl (stores_addSat (Reg.ERR_CLASS_CNT_COUNT x.cls) 1 h))))

theorem stores_rep {s : State} (code sev : Nat) (h : s.stores) : (s.rep code sev).stores := stores_report _ h

theorem stores_trace {s : State} (g code : Nat) (d : List Nat) (h : s.stores) : (s.trace g code d).stores := by
  unfold State.trace
  simp only
  split
  · exact h
  · split
    · split
      · exact h
      · exact stores_raise 8 _ _ (stores_inc _ (stores_of_same (s := s) rfl rfl h))
    · exact h

theorem stores_updTile {s : State} (n : Nat) (f : Tile → Tile) (h : s.stores) : (s.updTile n f).stores := h

theorem stores_safeTile {s : State} (n : Nat) (h : s.stores) : (s.safeTile n).stores := by
  unfold State.safeTile
  exact stores_updTile _ _ (stores_wr _ _ (stores_add _ _ (stores_add _ _ h)))

theorem stores_safeDiv {s : State} (p : Nat) (h : s.stores) : (s.safeDiv p).stores := by
  unfold State.safeDiv
  split
  · exact h
  · exact stores_inc _ (stores_wr _ _ h)

theorem stores_safeTiles (l : List Nat) {s : State} (h : s.stores) : (overList l State.safeTile s).stores := by
  induction l generalizing s with
  | nil => exact h
  | cons n l ih => exact ih (stores_safeTile n h)

theorem stores_safeHold {s : State} (p : Nat) (h : s.stores) : (s.safeHold p).stores := by
  unfold State.safeHold
  split
  · exact stores_safeTiles _ (stores_safeDiv p h)
  · exact h

theorem stores_enterSafe {s : State} (x : ErrRec) (h : s.stores) : (s.enterSafe x).stores := by
  have a := stores_report { x with sev := 4 } h
  unfold State.enterSafe
  generalize s.report { x with sev := 4 } = u at a ⊢
  simp only
  split
  · exact a
  · have b : (u.raiseErr Reg.ERR_IRQ_STATUS_SAFE).stores := stores_raise 9 _ _ a
    generalize u.raiseErr Reg.ERR_IRQ_STATUS_SAFE = v at b ⊢
    have c := stores_safeHold 1 (stores_safeHold 0 b)
    generalize (v.safeHold 0).safeHold 1 = w at c ⊢
    have d := stores_wrs [(Reg.ERR_SAFE_SAFE, 1), (Reg.ERR_SAFE_CLASS, x.cls), (Reg.ERR_SAFE_CODE, x.code),
      (Reg.KPR_STATUS_STATE, 6)] c
    generalize State.wrs w _ = z at d ⊢
    exact d

theorem stores_host {s : State} (off : Nat) (k : State → State) (hk : ∀ t : State, t.stores → (k t).stores)
    (h : s.stores) : (s.host off k).stores := by
  rcases host_cases s off k with ⟨_, e⟩ | ⟨_, e⟩ <;> rw [e]
  · exact hk s h
  · exact h

theorem stores_engine {s : State} (k : State → State) (hk : ∀ t : State, t.stores → (k t).stores) (h : s.stores) :
    (s.engine k).stores := by
  rcases engine_cases s k with ⟨_, e⟩ | ⟨_, e⟩ <;> rw [e]
  · exact hk s h
  · exact h

theorem stores_keeper {s : State} (c : Fld) (k : State → State) (hk : ∀ t : State, t.stores → (k t).stores)
    (h : s.stores) : (s.keeper c k).stores := by
  rcases keeper_cases s c k with ⟨_, e⟩ | ⟨_, e⟩ <;> rw [e]
  · exact hk s h
  · exact stores_wr _ _ h

theorem stores_doorbell {s : State} (k : State → State) (hk : ∀ t : State, t.stores → (k t).stores) (h : s.stores) :
    (s.doorbell k).stores := by
  rcases doorbell_cases s k with ⟨_, e⟩ | ⟨_, e⟩ <;> rw [e]
  · exact hk s h
  · exact h

theorem stores_setPart {s : State} (p : Nat) (x : Part) (h : s.stores) : (s.setPart p x).stores := by
  unfold State.setPart
  split <;> exact h

theorem stores_updPart {s : State} (p : Nat) (f : Part → Part) (h : s.stores) : (s.updPart p f).stores :=
  stores_setPart _ _ h

theorem stores_setRq {s : State} (q : Nat) (c : Option RqConf) (h : s.stores) : (s.setRq q c).stores := h

theorem stores_setCq {s : State} (q : Nat) (c : Option CqConf) (h : s.stores) : (s.setCq q c).stores := h

theorem stores_updOp {s : State} (n : Nat) (f : Operation → Operation) (h : s.stores) : (s.updOp n f).stores := h

theorem stores_mwrite {s : State} (a : Nat) (bs : List Byte) (h : s.stores) : (s.mwrite a bs).stores :=
  ⟨dram_wf_write bs s.dram a h.1, h.2⟩

theorem stores_iter {s : State} (n : Nat) (f : Nat → State → State)
    (hf : ∀ i t, State.stores t → (f i t).stores) (h : s.stores) : (iter n f s).stores :=
  iter_keeps n f (fun i t _ ht => hf i t ht) s h

theorem stores_overList {α : Type} {s : State} (l : List α) (f : α → State → State)
    (hf : ∀ x t, State.stores t → (f x t).stores) (h : s.stores) : (overList l f s).stores :=
  overList_keeps l f (fun x _ t ht => hf x t ht) s h

/-! Every operation over memory keeps the stores canonical; so does reset. -/

/-- At reset DRAM lists nothing. -/
theorem reset_memory_wf : Memory.wf State.reset.dram = true := rfl

/-- What every round of a fold keeps, the fold keeps. -/
theorem foldl_keeps {α β : Type} {P : β → Prop} (f : β → α → β) (hf : ∀ b a, P b → P (f b a)) (l : List α) (b : β)
    (hb : P b) : P (l.foldl f b) := by
  induction l generalizing b with
  | nil => exact hb
  | cons a rest ih => exact ih _ (hf b a hb)

theorem stores_dirtyWatches {s : State} (o a : Nat) (m : List Bool) (h : s.stores) : (dirtyWatches s o a m).stores := h

/-- Bytes written under a mask keep the stores canonical. -/
theorem stores_writeMask {s : State} (a : Nat) (bs : List Byte) (m : List Bool) (h : s.stores) :
    State.stores { s with dram := dramWriteMask s.dram a bs m } := ⟨dram_wf_writeMask _ _ _ _ h.1, h.2⟩

theorem stores_holdWrite {s : State} (w : HeldWrite) (h : s.stores) : (s.holdWrite w).stores := h

theorem stores_agentPut {s : State} (src a : Nat) (bs : List Byte) (m : List Bool) (h : s.stores) :
    (agentPut s src a bs m).stores := by
  unfold agentPut
  split
  · exact h
  · split
    · exact h
    · exact stores_dirtyWatches 0 a m (stores_writeMask a bs m h)

theorem stores_agentWrite {s : State} (a : Nat) (bs : List Byte) (h : s.stores) : (agentWrite s a bs).stores :=
  stores_agentPut 0 a bs _ h

theorem stores_agentHostWrite {s : State} (src a : Nat) (bs : List Byte) (h : s.stores) :
    (agentHostWrite s src a bs).stores := by
  unfold agentHostWrite
  split
  · exact h
  · exact stores_hostWrite a bs true h

theorem stores_enqueue {s : State} (p : Nat) (m : ChainMsg) (h : s.stores) : (enqueue s p m).stores := by
  unfold enqueue State.updPort
  split <;> exact h

theorem stores_sendMsg {s : State} (m : ChainMsg) (h : s.stores) : (sendMsg s m).stores := by
  unfold sendMsg
  split
  · exact stores_enqueue _ _ h
  · exact h

theorem stores_t3Write {s : State} (room a : Nat) (bs : List Byte) (h : s.stores) : (t3Write s room a bs).stores :=
  stores_sendMsg _ h

theorem stores_agentPeerWrite {s : State} (src room a : Nat) (bs : List Byte) (h : s.stores) :
    (agentPeerWrite s src room a bs).stores := by
  unfold agentPeerWrite
  split
  · exact h
  · exact stores_t3Write room a bs h

theorem stores_releaseHeld {s : State} (h : s.stores) : (releaseHeld s).stores := by
  unfold releaseHeld
  refine foldl_keeps (P := State.stores) _ (fun t w ht => ?_) _ _ (show State.stores _ from h)
  split
  · exact ht
  · exact stores_dirtyWatches 0 _ _ (stores_writeMask _ _ _ ht)

theorem stores_releasePage {s : State} (tier room base : Nat) (h : s.stores) : (releasePage s tier room base).stores := by
  unfold releasePage
  refine stores_releaseHeld (foldl_keeps (P := State.stores) _ (fun t w ht => ?_) _ _ (show State.stores _ from h))
  split
  · exact ht
  · split
    · exact stores_agentPut _ _ _ _ ht
    · split
      · exact foldl_keeps (P := State.stores) _ (fun u q hu => stores_hostWrite _ _ _ hu) _ _ ht
      · exact foldl_keeps (P := State.stores) _ (fun u q hu => stores_t3Write _ _ _ hu) _ _ ht

theorem stores_applyLine {s : State} (o : Nat) (l : BookLine) (h : s.stores) : (applyLine s o l).stores := by
  unfold applyLine
  split
  · exact h
  · exact stores_dirtyWatches _ _ _ (stores_writeMask _ _ _ h)

theorem stores_holdLine {s : State} (g : Nat) (l : BookLine) (h : s.stores) : (holdLine s g l).stores := by
  unfold holdLine
  split
  · exact h
  · split <;> exact h

theorem stores_commitLines {s : State} (o : Nat) (ls : List BookLine) (rs : List (Nat × Nat)) (h : s.stores) :
    (commitLines s o ls rs).stores := by
  unfold commitLines
  refine stores_inc _ (show State.stores _ from ?_)
  have key : State.stores (if ls.any (lineHeld s) then
      ls.foldl (fun t l => holdLine t s.nextBooking l) { s with nextBooking := s.nextBooking + 1 }
      else ls.foldl (fun t l => applyLine t o l) s) := by
    split
    · exact foldl_keeps (P := State.stores) _ (fun t l ht => stores_holdLine _ l ht) ls _ (show State.stores _ from h)
    · exact foldl_keeps (P := State.stores) _ (fun t l ht => stores_applyLine o l ht) ls s h
  exact key

theorem stores_bookFault {s : State} (h : s.stores) : (bookFault s).stores := stores_inc _ h

theorem stores_keeperBook {s : State} (ls : List BookLine) (rs : List (Nat × Nat)) (h : s.stores) :
    (keeperBook s ls rs).2.stores := by
  unfold keeperBook
  split
  · exact stores_bookFault h
  · split
    · exact stores_commitLines 0 ls rs h
    · exact stores_inc _ h

theorem stores_keeperWrite {s : State} (ls : List BookLine) (rs : List (Nat × Nat)) (h : s.stores) :
    (keeperWrite s ls rs).stores := stores_keeperBook ls rs h

end Sys2Proof.Machine
end

