-- ==== Sys2Proof/WellFormed.lean ====
section
/-! DEFINITION. The checks on a command's operands: an index names an entity the part has, a register value fits its
width, a record has its length. -/

namespace Sys2Proof

/-- Whether every operand lies in the range its source can produce. -/
def Instr.wf : Instr → Bool
  | .coldRstAssert _ => true
  | .coldRstRelease _ => true
  | .perstAssert _ => true
  | .perstRelease _ => true
  | .hotReset => true
  | .linkDisable => true
  | .flr => true
  | .rootPllLock _ => true
  | .pllLockTimeout => true
  | .keeperReady => true
  | .keeperReadyTimeout _ => true
  | .staggerWait => true
  | .tileStart n _ => decide (n < 32)
  | .cellarStart _ _ _ _ _ => true
  | .setCheck _ _ => true
  | .registerWrite _ _ _ _ => true
  | .pairLoRead _ _ => true
  | .pairHiWrite _ _ => true
  | .pairLoWrite _ _ => true
  | .dataWindowRead _ => true
  | .poisonedWrite _ _ _ => true
  | .d3hotEntry => true
  | .d0Return => true
  | .rqDoorbell q tail => decide (q < 65536) && decide (tail < 2^32)
  | .cqHeadDoorbell q head => decide (q < 65536) && decide (head < 2^32)
  | .generate q bytes _ => decide (q < 65536) && (bytes.length == 128)
  | .cancel q bytes => decide (q < 65536) && (bytes.length == 128)
  | .signal q bytes => decide (q < 65536) && (bytes.length == 128)
  | .signalComplete _ => true
  | .wait q bytes => decide (q < 65536) && (bytes.length == 128)
  | .waitSatisfied _ => true
  | .opcodeUnknown q bytes => decide (q < 65536) && (bytes.length == 128)
  | .fetchError q => decide (q < 65536)
  | .coalesceTimeout q => decide (q < 65536)
  | .tokenDelivery _ => true
  | .tokenRingConsReread _ cons => decide (cons < 2^64)
  | .rqCreate => true
  | .rqDelete => true
  | .rqDrained q => decide (q < 65536)
  | .rqResume => true
  | .rqCmdRefused => true
  | .cqCreate => true
  | .cqDelete => true
  | .cqApply => true
  | .cqCmdRefused => true
  | .synCellSet c value => decide (c < 32768) && decide (value < 2^64)
  | .synAdd c value => decide (c < 32768) && decide (value < 2^64)
  | .waitSlotArm w word => decide (w < 256) && decide (word < 2^32)
  | .itnLoadGo slot _ => decide (slot < 8)
  | .headerArrived bytes => (bytes.length == 256)
  | .itnDmaDone _ => true
  | .validationDone => true
  | .itnLoadDmaError _ => true
  | .itnLoadAbort => true
  | .slotFree slot => decide (slot < 8)
  | .slotSizeWrite size => decide (size < 4)
  | .itnBind slot ctx => decide (slot < 8) && decide (ctx < 4096)
  | .itnUnbind ctx => decide (ctx < 4096)
  | .bindOpRefused op ctx => decide (op < 4) && decide (ctx < 4096)
  | .activation p ctx => decide (p < 2) && decide (ctx < 4096)
  | .partitionStop p => decide (p < 2)
  | .stepStart p _ _ _ => decide (p < 2)
  | .sealBeat p => decide (p < 2)
  | .segmentOneStart p => decide (p < 2)
  | .workArrives p => decide (p < 2)
  | .phaseBoundary p tile _ _ => decide (p < 2) && decide (tile < 32)
  | .arrayPass p _ _ half _ _ _ => decide (p < 2) && decide (half < 2)
  | .weightBufferLoad p _ _ bank line form _ => decide (p < 2) && decide (bank < 32) && decide (line < 4096) && decide (form < 4)
  | .elementPipelineEntry p _ _ _ => decide (p < 2)
  | .tileDmaEntry p _ _ _ => decide (p < 2)
  | .threadOverrun p tile thread _ => decide (p < 2) && decide (tile < 32) && decide (thread < 32768)
  | .allowanceExpiry p _ _ => decide (p < 2)
  | .tierAccessFault p code _ _ => decide (p < 2) && decide (code < 2^16)
  | .scatterBegin p tile _ _ _ => decide (p < 2) && decide (tile < 32)
  | .scatterOverrun p => decide (p < 2)
  | .bookingIssue p _ _ => decide (p < 2)
  | .bookingFallback p => decide (p < 2)
  | .bookingBufferParity => true
  | .scatterComplete p => decide (p < 2)
  | .saveDone p _ => decide (p < 2)
  | .restoreDone p _ => decide (p < 2)
  | .urgentPreempt p ctx _ => decide (p < 2) && decide (ctx < 4096)
  | .urgentStop p _ => decide (p < 2)
  | .stallEnd p _ => decide (p < 2)
  | .rampStep tile arr _ => decide (tile < 32) && decide (arr < 2)
  | .lockstepError tile => decide (tile < 32)
  | .transparentTestBeat tile bank _ _ _ _ => decide (tile < 32) && decide (bank < 32)
  | .cellarPageRead p plane => decide (p < 2) && decide (plane < 1024)
  | .cellarReadDone plane outcome => decide (plane < 1024) && decide (outcome < 10)
  | .tier1Read ctx va n outcome _ => decide (ctx < 4096) && decide (va < 2^52) && decide (n < 16385) && decide (outcome < 10)
  | .programStart b outcome _ => decide (b < 64) && decide (outcome < 10)
  | .programDone b us10 _ => decide (b < 64) && decide (us10 < 1024)
  | .programOverrun b => decide (b < 64)
  | .eraseStart b _ => decide (b < 64)
  | .eraseSuspend b => decide (b < 64)
  | .eraseDone b _ => decide (b < 64)
  | .eraseOverrun b => decide (b < 64)
  | .disturbCheckpoint => true
  | .shutdownCheckpoint => true
  | .refreshThreshold plane block => decide (plane < 1024) && decide (block < 128)
  | .forcedRelocation plane block => decide (plane < 1024) && decide (block < 128)
  | .threshKWrite value => decide (value < 65536)
  | .blockQuery plane _ block => decide (plane < 1024) && decide (block < 128)
  | .blockRebuild arr _ _ => decide (arr < 64)
  | .tableLoad _ set id slot epoch => decide (set < 64) && decide (id < 32) && decide (slot < 2) && decide (epoch < 256)
  | .tableLoadDone _ _ => true
  | .install set _ _ _ => decide (set < 64)
  | .installShard _ _ _ => true
  | .installAbort => true
  | .setRemove set => decide (set < 64)
  | .recheckNow set _ => decide (set < 64)
  | .instOpRefused set => decide (set < 64)
  | .periodicRecheck _ => true
  | .modelSlotSet m set => decide (m < 64) && decide (set < 64)
  | .modelSlotClear m => decide (m < 64)
  | .grant ctx => decide (ctx < 4096)
  | .revoke ctx => decide (ctx < 4096)
  | .grantQuery ctx => decide (ctx < 4096)
  | .grantOpRefused ctx => decide (ctx < 4096)
  | .setrecWrite gib => decide (gib < 8)
  | .xltInvalidate ctx => decide (ctx < 4096)
  | .bar4Access _ _ _ _ _ _ => true
  | .migrate tier ctx => decide (tier < 4) && decide (ctx < 4096)
  | .migratePage _ _ _ _ => true
  | .migrateAbort => true
  | .copyProdWrite c prod => decide (c < 8) && decide (prod < 2^32)
  | .copyDescriptor c _ _ _ _ _ => decide (c < 8)
  | .copyResume c _ _ _ _ _ => decide (c < 8)
  | .copySkip c => decide (c < 8)
  | .copyDisable c => decide (c < 8)
  | .scrubGranule => true
  | .attach _ _ => true
  | .kvBlockCopy _ _ => true
  | .sequenceRelease ctx _ _ => decide (ctx < 4096)
  | .releaseResume ctx => decide (ctx < 4096)
  | .publication _ => true
  | .eviction _ => true
  | .deadlineCheck => true
  | .gbFlush => true
  | .gbEnable => true
  | .gbDisable => true
  | .gbOpRefused => true
  | .srvEval => true
  | .portEnable p => decide (p < 2)
  | .portRetrain p => decide (p < 2)
  | .portTrained p peerPort ver least room => decide (p < 2) && decide (peerPort < 2) && decide (ver < 256) && decide (least < 256) && decide (room < 128)
  | .trainingRetry p => decide (p < 2)
  | .flitReceive p _ _ _ _ => decide (p < 2)
  | .nak p seq => decide (p < 2) && decide (seq < 2^32)
  | .replayTimeout p => decide (p < 2)
  | .linkLost p => decide (p < 2)
  | .unknownMessage p => decide (p < 2)
  | .rollCallGo => true
  | .roll p => decide (p < 2)
  | .roster p => decide (p < 2)
  | .rollFail p => decide (p < 2)
  | .rollTimeout => true
  | .announce p => decide (p < 2)
  | .t3Read p _ => decide (p < 2)
  | .t3Write p => decide (p < 2)
  | .t3Fence p => decide (p < 2)
  | .t3Data p => decide (p < 2)
  | .t3FenceAck p => decide (p < 2)
  | .chainFenceTimeout _ => true
  | .stepMessage p _ => decide (p < 2)
  | .tokens p => decide (p < 2)
  | .releaseMessage p => decide (p < 2)
  | .spanFree p => decide (p < 2)
  | .spanHalt p => decide (p < 2)
  | .exportCommit entry => decide (entry < 16384)
  | .exportLoad entry => decide (entry < 16384)
  | .quoteMessage p => decide (p < 2)
  | .quoteReply p _ => decide (p < 2)
  | .quotePeerTimeout => true
  | .relay p _ _ => decide (p < 2)
  | .powerLoopTick _ _ => true
  | .capWrite value => decide (value < 256)
  | .forceDivWrite p value => decide (p < 2) && decide (value < 256)
  | .dividerChange p _ => decide (p < 2)
  | .voltageSettled p _ => decide (p < 2)
  | .ageingSample low => decide (low < 0x100000000)
  | .currentLimit => true
  | .thermalHwThrottle => true
  | .throttleRepeat reason => decide (reason < 6)
  | .throttleClear reason _ => decide (reason < 6)
  | .railFault => true
  | .droopFire d => decide (d < 33)
  | .droopClear d => decide (d < 33)
  | .brakeAssert => true
  | .brakeRelease => true
  | .brakeGlitch => true
  | .brakeStuck => true
  | .thermalTrip => true
  | .tamper src _ => decide (src < 5)
  | .ctxOpen ctx => decide (ctx < 4096)
  | .ctxConfigure ctx record _ => decide (ctx < 4096) && (record.length == 128)
  | .ctxEnd ctx => decide (ctx < 4096)
  | .quote scope ctx nonce _ => decide (scope < 2) && decide (ctx < 4096) && (nonce.length == 32)
  | .quotePeer room nonce => decide (room < 128) && (nonce.length == 32)
  | .getCert _ => true
  | .enroll owner _ => (owner.length == 32)
  | .service token _ _ failAt => (token.length == 2884) && decide (failAt < 4)
  | .scrap _ failAt => decide (failAt < 4)
  | .setLimit _ _ => true
  | .genId _ => true
  | .provision cert _ _ _ => (cert.length == 3076)
  | .mbxOpcodeUnknown op => decide (op < 256)
  | .watchdogExpiry => true
  | .daybookMark _ => true
  | .daybookFetch src _ _ _ => decide (src < 2)
  | .errorHandler _ => true
  | .handlerTimeout => true
  | .errClear => true
  | .errRingConsWrite _ => true
  | .alertClear => true
  | .updateReceive _ _ _ _ _ => true
  | .updateBlock _ _ _ => true
  | .updateActivate => true
  | .updateAbort => true
  | .updOpRefused => true
  | .drainComplete _ => true
  | .drainTimeout => true
  | .imageCommit => true
  | .drvIfWrite _ => true
  | .mctpControl _ cmd eid => decide (cmd < 256) && decide (eid < 256)
  | .pldmRequest _ kind _ => decide (kind < 2)
  | .eraseSuspended b => decide (b < 64)
  | .powerLoss _ => true
  | .laneFailure p => decide (p < 2)
  | .flitSlot p _ _ => decide (p < 2)
  | .pcieLinkTrained _ _ _ => true
  | .tapInstruction _ => true

end Sys2Proof
end

