-- ==== Sys2Proof/Tests/Slice0.lean ====
section
/-! SUPPORT. The model's own tests: a term that each well-formedness check refuses, small steps with results taken from the
spec's rules, and for every obligation with hypotheses a concrete state and operands that meet them together.

A witness constant `w<n>_<clause>_<k>` belongs to obligation O<n>. Where a statement sets a variable equal to an expression, the
witness takes that expression's value, and the equation is not repeated; of a pair so bound the first parts are shown. -/

namespace Sys2Proof.Tests
open Sys2Proof Sys2Proof.Machine

/-! States and records. -/

/-- A part whose clocks run, link up, tiles started. -/
def up : State := { State.reset with chip := { linkUp := true, pllLocked := true, tileGo := true, tilesStarted := 32, setsChecked := true, pci := { mem := true, msixEn := true } } }
/-- The same with Keeper ready. -/
def rdy : State := { up with kpr := { everReady := true, released := true } }.wrs [(Reg.KPR_STATUS_READY, 1), (Reg.KPR_STATUS_STATE, 2)]
/-- In the safe state. -/
def safe : State := up.wrs [(Reg.ERR_SAFE_SAFE, 1), (Reg.ERR_SAFE_CODE, 5)]
/-- Bytes from (offset, bytes, value) triples. -/
def bytesOf (n : Nat) (l : List (Nat × Nat × Nat)) : List Byte :=
  leBytes n (l.foldl (fun (a : Nat) x => a + x.2.2 % 2 ^ (8 * x.2.1) * 2 ^ (8 * x.1)) 0)
/-- Context 1 owns the first 16 granules and has its tables at 0, 64 KiB and 128 KiB: page i of 2 MiB is the granule i. -/
def mem : State := { rdy with
  gran := (List.range 16).map (fun i => (i, .owned 1))
  ctxs := [(1, some { rootPa := 0, saveVa := 0x200000, saveHalf := 0xA00000, seqVa := 0, seqEntries := 16 })]
  dram := dramWrite (dramWrite (dramWrite [] 0 (leBytes 8 0x10001)) 0x10000 (leBytes 8 0x20001)) 0x20000
    ((List.range 16).flatMap (fun i => leBytes 8 (i * 0x200000 + 0x23))) }.wrs [(Reg.SEC_CTX_STATE 1, 2)]
/-- A partition's image: one tile, three segments, an entry of each class. -/
def pimg : PartImage := {
  kvBits := 8
  desc := { role := 0, maxRows := 96, tileMask := 1, tScatter := 64, tFix := 100, chunkTokens := 64, divLimit := 255 }
  plan := [⟨0, 0, 0, 0x4444⟩, ⟨1, 16, 0, 0x21⟩]
  segs := [{ lenBeats := 100 }, { segId := 1, lenBeats := 200 }, { segId := 2, lenBeats := 64 }]
  entries := [⟨0, 8, 0, 0, 0, 1, 0⟩, ⟨0, 64, 1, 1, 1, 1, 0⟩, ⟨0, 64, 1, 1, 1, 1, 1⟩, ⟨0, 8, 6, 0, 0, 1, 1⟩, ⟨0, 8, 7, 0, 0, 1, 0⟩, ⟨0, 8, 4, 0, 0, 1, 0⟩,
    ⟨0, 64, 1, 0, 1, 1, 0⟩]
  kernels := [{ tile := 0, dir := [{ mode := 0, threads := 2 }, { mode := 4, threads := 3 }], invocations := [(0, 0, 1), (1, 1, 2)] }] }
def img : Image := { parts := [pimg, { pimg with desc := { pimg.desc with tileMask := 2, role := 2 } }] }
/-- Context 1 bound to slot 0, which holds the image. -/
def bound : State := { mem with images := [(0, some img)] }.wrs [(Reg.SEC_CTX_BOUND 1, 1), (Reg.SEC_CTX_SLOT 1, 0), (Reg.ITN_SLOT_STATE 0, 3), (Reg.ITN_SLOT_BOUND_COUNT 0, 1), (Reg.CEL_STATUS_PHASE, 4)]
/-- Operation 4, a GENERATE of context 1 that decodes. -/
def gen : Operation := { id := 4, rq := 2, ctx := 1, cq := 0, phase := .decode, desc := { opcode := 1, maxTokens := 10, promptLen := 4 }, seqPa := some 0x40000, length := 5, prefillPos := 4, order := 1 }
/-- Partition 0 runs context 1 at a stage of its step. -/
def run (st : PStage) : State := { bound with
  part0 := { stage := st, ctx := 1, slot := 0, tileMask := 1, role := 0, plan := [{ op := 4, decode := true }] }
  ops := [gen], nextOp := 5, tiles := [(0, { retention := false, arr0 := { duty := 16 }, arr1 := { duty := 16 } })] }

/-! States and records of single statements. -/

def mBody : List Byte := bytesOf 4092 [(0,4,0x464D4C48),(4,2,1),(8,2,0x484C),(10,2,0x3200),(12,1,0x21),(13,1,0x21),(0x30,4,7),(0x78,4,4096),(0x7C,4,1),(0x80,2,1),(0x82,2,1),(0x84,2,1),(0x86,1,1),(0x87,1,1)]
def mBlk : List Byte := mBody ++ leBytes 4 (crc32c mBody)
def tBody : List Byte := bytesOf 4092 [(0,4,1),(4,2,3),(8,4,7)]
def tBlk : List Byte := tBody ++ leBytes 4 (crc32c tBody)
def fq : State := { run .body with rqs := [(2, some { ctx := 1, rung := [(5, 3)] })] }.wrs [(Reg.HIF_RQ_STATUS_STATE 2, 1), (Reg.HIF_RQ_TAIL_TAIL 2, 5)]
def gBytes : List Byte := bytesOf 128 [(0,1,1),(4,2,3),(0x18,4,4),(0x1C,4,10),(0x28,1,4),(0x44,4,0x3F800000)]
def hBytes : List Byte := let b := bytesOf 252 [(0,4,0x54494C48),(4,2,1),(6,2,1),(8,2,0x3200)]; b ++ leBytes 4 (crc32c b)
def bk : Booking := { id := 1, owner := 4, lines := [{ check := true, addr := 0x40000, bytes := List.replicate 64 0, mask := List.replicate 64 true }] }
def sc : State := { run .scatter with part0 := { (run .scatter).part0 with bookings := [bk] } }
def sv (x : PStage) : State := { run x with part0 := { (run x).part0 with tileMask := 0 } }
def cel0 : State := { run .body with
  exp := { sets := [(3, { state := 3, planes := [0, 5], pages := [300, 2], dataBytes := 302 * 16384, blocks := 8, form := 0, index := [0,0,0,0,0,0,0,0] })] }
  part0 := { (run .body).part0 with wset := some 3, mslot := 0 }
  cel := { alloc := [(0, 4), (1, 4)] } }
def t1 : State := { cel0 with dram := dramWrite cel0.dram 0x20080 (leBytes 8 (3 * 2^40 + 0x25)), cel := { cel0.cel with data := [(5, 7)] } }
def inst : State := { rdy with exp := { inst := some (3, 0), sets := [(3, { state := 1, planes := [0], pages := [2], dataBytes := 2 * 16384 })] }, cel := { alloc := [(0, 4)] } }
def eop (e su sd : Bool) : State := { rdy with cel := { bankOps := [(2, some { erase := e, plane := 33, block := 7, suspending := su, suspended := sd })], blocks := [(33 * 128 + 7, { use := 1, sweeps := 9, queued := 1, pe := 4 })] } }
def bl (n st : Nat) : State := { rdy with cel := { blocks := [(33 * 128 + 127, { use := 1, sweeps := n, pe := 70000, stage := st })] } }
def rb : State := { cel0 with exp := { cel0.exp with buffered := [{ arr := 0, block := 1, set := 3 }] } }
def timg : List Byte := (List.range 2048).map (fun i => BitVec.ofNat 8 (i * 7))
def hd1 : Nat → List Byte := fun dig => 
  let h := bytesOf 0x70 [(0,4,0x57534C48),(4,2,1),(6,1,0),(8,4,7),(0x10,8,9),(0x30,4,1),(0x34,2,1),(0x38,8,2*16384),(0x50,8,0x100),(0x58,8,0x108),(0x60,8,0x200000)]
  let body := leBytes 8 (5 * 2 ^ 48) ++ bytesOf 8 [(0,2,5),(4,4,2)]
  let d := shake256 (h ++ body)
  let a := h ++ d ++ List.replicate (252 - 0x70 - d.length) 0
  a ++ leBytes 4 (crc32c a + dig) ++ body
def hd0 := hd1 0
def is0 : State := { rdy with exp := { inst := some (3, 0), sets := [(3, { state := 1, planes := [0], pages := [2], dataBytes := 4 })] } }
def ms : State := { rdy with exp := { sets := [(3, { state := 3 }), (4, { state := 3, form := 1 }), (5, { state := 4 })] } }
def msu : State := { ms with part0 := { stage := .body, mslot := 63, wset := some 3 } }.wrs [(Reg.EXP_MSLOT_VALID 63, 1), (Reg.EXP_MSLOT_SET 63, 3)]
def gr : State := rdy.wrs [(Reg.SEC_CTX_STATE 4095, 2), (Reg.MEM_GRANT_FIRST_FIRST, 5), (Reg.MEM_GRANT_COUNT_COUNT, 3)]
def go : State := { gr with gran := [(5, .owned 4095), (6, .owned 4095), (7, .owned 4095)] }
def w4 : State := mem.wrs [(Reg.XLT_BAR4_CTRL_ENABLE, 1), (Reg.XLT_BAR4_CTRL_CONTEXT, 1), (Reg.XLT_BAR4_BASE, 0)]
def mg : State := mem.wrs [(Reg.MEM_MIG_PAGES_PAGES, 2), (Reg.MEM_MIG_VA, 0x400000), (Reg.MEM_MIG_DST, 0x800000)]
def lf : Leaf := { va := 0x400000, size := 2^21, tier := 0, addr := 0x400000, w := true, entPa := 0x20010, raw := 0x400023 }
def mm : Mig := { ctx := 1, dstTier := 0, va := 0x400000, dst := 0x800000, left := 2, size := 2^21 }
def cd : List Byte := bytesOf 64 [(0,1,1),(2,2,1),(5,1,2),(16,8,0x600008),(24,8,16),(40,8,0x1122334455667788),(48,8,5)]
def ch : State := mem.wrs [(Reg.MEM_CH_CFG_ENABLE 7, 1), (Reg.MEM_CH_CFG_SIZE_LOG2 7, 4), (Reg.MEM_CH_PROD_PROD 7, 1)]
def chh : State := { ch with chans := [(7, some (parseCopy cd))] }.wrs [(Reg.MEM_CH_STATUS_HALTED 7, 1), (Reg.MEM_CH_FAULT_OFF 7, 8)]
def imgB : Image := { img with buckets := some { attLayers := 1, kvHeads := 1, headGroups := 1, maxLen := 4096, tokblkPages := 1, kvLayoutTag := 3, bucketCount := 1 } }
def bkRec : CtxRec := { rootPa := 0, saveVa := 0x200000, saveHalf := 0xA00000, seqVa := 0x40000, seqEntries := 16, gbVa := 0xE00000, gbBytes := 0x2000, gbEntries := 4, poolVa := 0x60000, poolN := 4, retN := 4, retVa := 0x70000 }
def sq : State := { run .body with ctxs := [(1, some bkRec)], images := [(0, some imgB)], gbOn := [(1, 1)] }
def bo : Book := { va := 0xE00000, e := 4, fl := 64, size := 0x2000 }
def ga : Operation := { gen with phase := .attaching, attach := 0 }
def gs : State := sq.wr Reg.SRV_GB_SEL_CONTEXT 1
def gp : Operation := { gen with publish := some 0, length := 64, desc := { gen.desc with promptLen := 65 } }
def ev9 (c : Nat) : State := { sq with part0 := { sq.part0 with stage := .waiting } }.wrs [(Reg.SRV_EVAL_CTRL_CAP_W, c), (Reg.SRV_EVAL_CTRL_PART, 0)]
def sn : State := { run .body with ctxs := [(1, some bkRec)], ops := [{ gen with copyBlock := some 0 }] }
def rx : Release := { ctx := 1, seqIndex := 0, seqPa := 0x40000 }
def rx2 : Release := { rx with tokblk := 1, maxBlocks := 1 }
def s42 : State := { sq with releases := [rx2], dram := dramWrite sq.dram 0x40000 (leBytes 8 0x40000000 ++ List.replicate 16 0 ++ leBytes 4 0) }
def s43 : State := { sq with releases := [rx2], dram := dramWrite sq.dram 0x40000 (leBytes 8 0x40000000 ++ List.replicate 16 0 ++ leBytes 4 1) }
def lfs : Leaf := { va := 0x400000, size := 64, tier := 0, addr := 0x400000, w := true, entPa := 0x20010, raw := 0x400023 }
def mms : Mig := { ctx := 1, dstTier := 0, va := 0x400000, dst := 0x800000, left := 2, size := 64, page := some lfs }
def gh : State := { sq with dram := dramWrite sq.dram 0xE00000 (bytesOf 128 [(20,1,1),(36,4,2)]) }.wr (Reg.SRV_GB_CFG_MAX_FRAMES 1) 1
def bk65 : Booking := { id := 1, owner := 4, lines := (List.range 65).map (fun i => { check := false, addr := 0x40000 + 64 * i, bytes := List.replicate 64 1, mask := List.replicate 64 true }) }
def kimg : TileKernels := { tile := 0, dir := [{ mode := 0, threads := 2 }, { mode := 4, threads := 3 }], invocations := [(0, 0, 1), (1, 1, 2)] }
def fkimg : TileKernels := { tile := 0, dir := [{ mode := 0, threads := 2, bankMask := 0xFF }], invocations := [(0, 0, 1)] }
def kruns : List KernelRun := [{ conflicts := [(3, 2)] }, { eccLine := 1 }]
def fst : State := { run .prologue with images := [(0, some { img with parts := [{ pimg with entries := [⟨0, 8, 7, 0, 0, 0, 0⟩], kernels := [fkimg] }] })] }
def kuns (s : State) (owner source : Nat) (e : TimeEntry) (k : TileKernels) (v : Nat × Nat × Nat) : State :=
  kruns.foldl (runStage 0 e.index owner source
      { t := e, kernel := k.dir.getD v.1 {}, first := v.2.1, count := v.2.2, base := threadBase k v.1 + v.2.1, rep := 0 })
      (runThreads s 0 e.index (threadBase k v.1 + v.2.1) v.2.2)
def rg0 (d a b : Nat) : State := ({ run .body with tiles := [(0, { retention := false, arr0 := { duty := d, gapDown := a, gapUp := b, last := some (0, 0) }, arr1 := { duty := 16 } })] }.wr (Reg.ITN_P_STATUS_DIVIDER 0) 8)
def isD (a : Bool) : State := { is0 with exp := { is0.exp with todo := [(0, 0, 0)], shard := [1, 2, 3, 4], instAbort := a }, cel := { alloc := [(0, 4)], bankOps := [(0, some { erase := false, plane := 15, block := 0 })] } }
def setS (n : Nat) : State := { rdy.wr Reg.CEL_STATUS_PHASE 4 with exp := { sets := [(3, { state := n, planes := [0], pages := [2], dataBytes := 4, covered := [7], metaDigest := shake256 [7], digests := [shake256 [0, 0, 0, 0]] })] }, cel := { alloc := [(0, 4)] } }
def svr (s : State) : State :=
  { s with
    images := [(0, some { img with itnId := List.replicate 16 7 })], part0 := { s.part0 with pins := (savePins s 1 0 1).getD [] }
    dram := dramWrite s.dram 0x200000 (bytesOf 44 [(0, 4, 0x56534C48), (4, 1, 1), (8, 4, 0), (0x10, 16, 0x07070707070707070707070707070707), (0x28, 4, crc32c [])]) }
def gev : State := { sq with dram := dramWrite sq.dram 0xE00000 (bytesOf 128 [(20,1,3)]) }
def pw : State := run .body
def pd : State := { pw with part0 := { pw.part0 with divLimit := 255 } }
def pd2 : State := { pd with pwr := { pd.pwr with wait0 := some 5 } }.wrs [(Reg.ITN_P_STATUS_DIVIDER 0, 8)]
def ts : State := (rdy.wrs ((List.range 32).map (fun n => (Reg.PWR_TILE_MAXDIV n, 11))))
def tr (p : Nat) : State := rdy.wrs [(Reg.CHN_P_STATUS_STATE p, 1), (Reg.CHN_LEVEL_LINK_VER, 3), (Reg.CHN_LEVEL_LINK_MIN, 2)]
def LV : Nat := (tr 0).rd Reg.CHN_LEVEL_LINK_VER
def upP (p : Nat) : State := rdy.wr (Reg.CHN_P_STATUS_STATE p) 2
def f1 : Flit := { kind := 1, seq := 1, first := true, last := true, msgType := 0x21, lines := 1 }
def mg1 : ChainMsg := { msgType := 0x22, vc := 2, dst := 3 }
def rc (st : Nat) : State := rdy.wrs [(Reg.CHN_P_STATUS_STATE 0, st), (Reg.CHN_P_STATUS_STATE 1, st)]
def fr (n : Nat) (room code : Nat) (id : Nat) : List Byte := bytesOf (64 + 16 * n) [(5,1,n),(6,1,room),(8,8,id),(0x10,2,code)]
def inb (p : Nat) (s : State) (m : ChainMsg) : State := s.updPort p (fun x => { x with inbox := [{ msgType := 0x77, vc := 1 }, m] })
def m1 (n : Nat) : ChainMsg := { msgType := 0x01, payload := fr n 0 0 9 }
def m2 : ChainMsg := { msgType := 0x02, payload := fr 2 0 0 9 }
def cid (s : State) (n : Nat) : State := { s with chn := { s.chn with callId := n, rollRoom := 3 } }
def m3 : ChainMsg := { msgType := 0x03, payload := fr 2 0 0x0605 9 }
def m40 : ChainMsg := { msgType := 0x04, payload := bytesOf 16 [(2,2,3)] }
def m41 : ChainMsg := { msgType := 0x04, payload := bytesOf 16 [(0,1,2),(2,2,3),(4,4,7),(8,4,8),(12,4,9)] }
def ros (s : State) : State := { s with chn := { s.chn with roster := [{ room := 1 }, { room := 2, words := [2 + 65536 * 3, 5, 6, 9] }], room := 1 } }
def m99 : ChainMsg := { msgType := 0x99 }
def ex (w : Nat) : State := mem.wrs [(Reg.CHN_EXP_DATA0_VALID, 1), (Reg.CHN_EXP_DATA0_W, w), (Reg.CHN_EXP_DATA0_REQ_ROOM, 127), (Reg.CHN_EXP_DATA0_GRANULE, 15), (Reg.CHN_EXP_DATA1_CONTEXT, 1)]
def ee : ExportEntry := { valid := true, w := true, reqRoom := 127, granule := 15, context := 1 }
def eq (w : Bool) : State := { mem with chn := { exports := [(3, { ee with w := w, reqRoom := 0, granule := 15 })] } }
def m10 : ChainMsg := { msgType := 0x10, addr := 3 * 2^21 + 5, bytes := 7, src := 4 }
def m10b : ChainMsg := { m10 with addr := 4 * 2^21 }
def m11 : ChainMsg := { msgType := 0x11, addr := 3 * 2^21 + 5, payload := List.replicate 144 3, src := 4 }
def m12 : ChainMsg := { msgType := 0x12, src := 4, id := 3 }
def er : State := { eq true with chn := { (eq true).chn with refusals := [(4, 0x0A05)] } }
def m18 : ChainMsg := { msgType := 0x18, src := 4, id := 3, addr := 0x10005, payload := [1,2] }
def m1a : ChainMsg := { msgType := 0x1A, src := 4, id := 3, addr := 0x10000 }
def m21 : ChainMsg := { msgType := 0x21, addr := 9, payload := [5,0,0,0] }
def sp : State := { run .body with ops := [gen], chn := { span0 := { running := true, stages := 2, outPort := 1, rooms := [4], awaited := [(9, [4])] } } }
def m22 : ChainMsg := { msgType := 0x22, addr := 6 }
def on : Operation := { gen with noRecord := true, standIn := true, desc := { gen.desc with seqIndex := 6 } }
def sl : State := { sp with ops := [on, { gen with id := 5 }], chn := { span0 := { running := true, stage := 1, stages := 2, inPort := 1, outPort := 0, rooms := [4], outBusy := [(7, 1)] } } }
def m23 : ChainMsg := { msgType := 0x23, addr := 7 }
def m24 : ChainMsg := { msgType := 0x24, src := 4 }
def m20 : ChainMsg := { msgType := 0x20, addr := 4 }
def mb (op arg : Nat) (s : State) : State := (s.wr Reg.SEC_MBX_CMD_OP op).wr (Reg.SEC_MBX_ARG_ARG 0) arg
def cfgB : List Byte := bytesOf 128 [(8,8,0x40000),(16,4,16),(0x18,8,0),(0x28,4,64),(0x2C,4,64)]
def mc : State := mem.wr Reg.SEC_MBX_LEN_LEN 128
def g2 (o : Option (Nat × State)) : State := match o with | some x => x.2 | none => up
def gb (o : Option (List Byte × State)) : List Byte := match o with | some x => x.1 | none => []
def ix (n r : Nat) : State := rdy.wrs [(Reg.SRM_IDX_NEXT, n), (Reg.SRM_IDX_RSV_BLOCKS, r)]
def q1 : State := (ix 5 1).wrs [(Reg.SRM_LC_STATE, 2), (Reg.SEC_MBX_LEN_LEN, 10405), (Reg.SEC_CTX_STATE 4095, 2)]
def qr (op a : Nat) (nonce : List Byte) (s : State) : State := s.wrs ((Reg.SEC_MBX_CMD_OP, op) :: (Reg.SEC_MBX_ARG_ARG 0, a) :: (digestArgs nonce).map (fun a => (Reg.SEC_MBX_ARG_ARG a.1, a.2)))
def non : List Byte := (List.range 32).map (BitVec.ofNat 8)
def q2 : State := q1.wrs [(Reg.CHN_STATUS_ROOM, 2), (Reg.CHN_STATUS_COUNT, 5), (Reg.CHN_P_STATUS_STATE 1, 2), (Reg.CHN_P_STATUS_STATE 0, 2)]
def m31 : ChainMsg := { msgType := 0x31, addr := 0, src := 3, payload := non ++ List.replicate 32 0 }
def m31r : ChainMsg := { msgType := 0x31, addr := 2^63, src := 3, payload := non }
def lc (n : Nat) : State := rdy.wrs [(Reg.SRM_LC_STATE, n), (Reg.SEC_MBX_LEN_LEN, 4096)]
def own : List Byte := (List.range 32).map (fun i => BitVec.ofNat 8 (255 - i))
def lk (n : Nat) : State := (lc n).wr Reg.SRM_KEYS_PRESENT 15
def tok (act tgt : Nat) (uid : Nat) : List Byte := bytesOf 2884 [(0,4,0x54524C48),(4,2,1),(6,1,act),(7,1,0),(8,4,uid),(0x18,1,tgt)]
def lx : State := { (lk 2).wr (Reg.SRM_UID_UID 0) 5 with exp := { sets := [(3, { state := 3, planes := [0], pages := [2] })] } }
def m4 : State := { mem with mig := some mms, dram := dramWrite mem.dram 0x400000 (List.replicate 64 7) }
def u4 (s : State) : State := agentWrite (countCorr s 1) mms.dst (leafRead s lfs 0 lfs.size [])
def lfh : Leaf := { lfs with tier := 2 }
def mmh : Mig := { mms with page := some lfh }
def v4 (s : State) : State := (keeperBook (u4 s) (checkLines lfs.entPa (leBytes 8 lfs.raw) ++ writeLines lfs.entPa (leBytes 8 (movedEntry lfs.raw 0 mms.dst))) []).2
def uq (s : State) : State := s.updPort 1 (fun x => { x with inbox := dropFirst m31 x.inbox })

/-! Lemmas that spare the kernel an evaluation. -/

theorem leNat_leBytes (n v : Nat) (h : v < 256 ^ n) : leNat (leBytes n v) = v := by
  induction n generalizing v with
  | zero => simp only [Nat.pow_zero] at h; simp only [leBytes, leNat]; omega
  | succ n ih =>
    have hv : v / 256 < 256 ^ n := by rw [Nat.pow_succ] at h; omega
    simp only [leBytes, leNat, ih _ hv, BitVec.toNat_ofNat]
    omega

theorem leBytes_len (n v : Nat) : (leBytes n v).length = n := by
  induction n generalizing v with
  | zero => rfl
  | succ n ih => simp only [leBytes, List.length_cons, ih]

/-- A block whose last four bytes are the CRC32C of the rest passes the check of R418. -/
theorem blockCrc_seal (b : List Byte) (h : b.length = 4092) : blockCrc (b ++ leBytes 4 (crc32c b)) = true := by
  have h1 : (b ++ leBytes 4 (crc32c b)).drop 0xFFC = leBytes 4 (crc32c b) := by rw [← h]; exact List.drop_left
  have h2 : (b ++ leBytes 4 (crc32c b)).take 0xFFC = b := by rw [← h]; exact List.take_left
  have h3 : (leBytes 4 (crc32c b)).take 4 = leBytes 4 (crc32c b) := List.take_of_length_le (Nat.le_of_eq (leBytes_len _ _))
  have h4 : crc32c b < 256 ^ 4 := BitVec.isLt _
  simp only [blockCrc, recField, h1, h2, h3, leNat_leBytes 4 _ h4, List.length_append, h, leBytes_len, BEq.rfl, Bool.and_self]

theorem manifestOk_mBlk : manifestOk (rdy.wr Reg.KPR_UPD_LEN_LEN 2) mBlk = true := by
  unfold manifestOk
  rw [show blockCrc mBlk = true from blockCrc_seal mBody (leBytes_len _ _)]
  decide +kernel

theorem regDefault_ctxState (c : Nat) (hc : c < 4096) : regDefault (Reg.SEC_CTX_STATE c).key = 0 := by
  have h1 : (Reg.SEC_CTX_STATE c).key / 64 = 0x3008000 + c * 4 := by simp only [Reg.SEC_CTX_STATE, Fld.key]; omega
  have h2 : (Reg.SEC_CTX_STATE c).key % 64 = 29 := by simp only [Reg.SEC_CTX_STATE, Fld.key]; omega
  have h3 : rowsAt (0x3008000 + c * 4) = rowsSEC := by
    unfold rowsAt
    repeat (first | rw [if_neg (by omega)] | rw [if_pos (by omega)])
  unfold regDefault fieldRowOf regAt
  rw [h1, h2, h3]
  unfold rowsSEC
  repeat rw [List.find?_cons_of_neg (by simp only [RegRow.hit, dimsHit, Bool.and_eq_true, decide_eq_true_eq, beq_iff_eq]; omega)]
  rw [List.find?_cons_of_pos (by simp only [RegRow.hit, dimsHit, Bool.and_eq_true, decide_eq_true_eq, beq_iff_eq]; omega)]
  rfl

/-- A key that a map does not list reads as its blank. -/
theorem get_unlisted {α : Type} (d : Nat → α) (m : SMap α) (k : Nat) (h : ∀ x ∈ m, x.1 ≠ k) : SMap.get d m k = d k := by
  induction m with
  | nil => rfl
  | cons x rest ih =>
    rw [SMap.get, if_neg (h x (by simp))]
    exact ih (fun y hy => h y (by simp [hy]))

theorem serviceBusy_free (s : State) (h : ∀ x ∈ s.regs, x.1 < 0x3008000 * 64 ∨ 0x300C000 * 64 ≤ x.1)
    (hi : (instRuns s || s.exp.removing.isSome) = false) : serviceBusy s = 0 := by
  have hc : (List.range 4096).any (fun c => ctxState s c != 0) = false := by
    rw [List.any_eq_false]
    intro c hc
    have hc' := List.mem_range.mp hc
    have : ctxState s c = 0 := by
      unfold ctxState State.rd
      rw [get_unlisted _ _ _ (fun x hx => ?_), regDefault_ctxState c hc']
      have := h x hx
      simp only [Reg.SEC_CTX_STATE, Fld.key]
      omega
    simp [this]
  unfold serviceBusy
  rw [hc, hi]
  rfl

set_option maxRecDepth 100000
set_option Elab.async false

/-! Ill-formed terms: for each check of `Instr.wf` a command that breaks only it. -/

theorem test_ill_formed_1 : ([
    .tileStart 32 false, .rqDoorbell 65536 0, .rqDoorbell 0 (2^32), .cqHeadDoorbell 65536 0,
    .cqHeadDoorbell 0 (2^32), .generate 65536 (List.replicate 128 0) [], .generate 0 [] [],
    .cancel 65536 (List.replicate 128 0), .cancel 0 [], .signal 65536 (List.replicate 128 0), .signal 0 [],
    .wait 65536 (List.replicate 128 0), .wait 0 [], .opcodeUnknown 65536 (List.replicate 128 0),
    .opcodeUnknown 0 [], .fetchError 65536, .coalesceTimeout 65536, .tokenRingConsReread 0 (2^64), .rqDrained 65536,
    .synCellSet 32768 0, .synCellSet 0 (2^64), .synAdd 32768 0, .synAdd 0 (2^64), .waitSlotArm 256 0,
    .waitSlotArm 0 (2^32), .itnLoadGo 8 false, .headerArrived [], .slotFree 8, .slotSizeWrite 4, .itnBind 8 0,
    .itnBind 0 4096, .itnUnbind 4096, .bindOpRefused 4 0, .bindOpRefused 0 4096] : List Instr).all (fun c => !c.wf) = true := by decide +kernel

theorem test_ill_formed_2 : ([
    .activation 2 0, .activation 0 4096, .partitionStop 2, .stepStart 2 [] [] [], .sealBeat 2, .segmentOneStart 2,
    .workArrives 2, .phaseBoundary 2 0 0 0, .phaseBoundary 0 32 0 0, .arrayPass 2 0 0 0 [] false none,
    .arrayPass 0 0 0 2 [] false none, .weightBufferLoad 2 0 0 0 0 0 none, .weightBufferLoad 0 0 0 32 0 0 none,
    .weightBufferLoad 0 0 0 0 4096 0 none, .weightBufferLoad 0 0 0 0 0 4 none, .elementPipelineEntry 2 0 0 [],
    .tileDmaEntry 2 0 0 [], .threadOverrun 2 0 0 [], .threadOverrun 0 32 0 [], .threadOverrun 0 0 32768 [],
    .allowanceExpiry 2 [] [], .tierAccessFault 2 0 [] [], .tierAccessFault 0 (2^16) [] [],
    .scatterBegin 2 0 [] (.bank 0 0) (.bank 0 0), .scatterBegin 0 32 [] (.bank 0 0) (.bank 0 0), .scatterOverrun 2,
    .bookingIssue 2 0 false, .bookingFallback 2, .scatterComplete 2, .saveDone 2 false, .restoreDone 2 false,
    .urgentPreempt 2 0 0, .urgentPreempt 0 4096 0, .urgentStop 2 0] : List Instr).all (fun c => !c.wf) = true := by decide +kernel

theorem test_ill_formed_3 : ([
    .stallEnd 2 0, .rampStep 32 0 false, .rampStep 0 2 false, .lockstepError 32,
    .transparentTestBeat 32 0 0 0 false false, .transparentTestBeat 0 32 0 0 false false, .cellarPageRead 2 0,
    .cellarPageRead 0 1024, .cellarReadDone 1024 0, .cellarReadDone 0 10, .tier1Read 4096 0 0 0 [],
    .tier1Read 0 (2^52) 0 0 [], .tier1Read 0 0 16385 0 [], .tier1Read 0 0 0 10 [], .programStart 64 0 [],
    .programStart 0 10 [], .programDone 64 0 false, .programDone 0 1024 false, .programOverrun 64,
    .eraseStart 64 [], .eraseSuspend 64, .eraseDone 64 false, .eraseOverrun 64, .refreshThreshold 1024 0,
    .refreshThreshold 0 128, .forcedRelocation 1024 0, .forcedRelocation 0 128, .threshKWrite 65536,
    .blockQuery 1024 false 0, .blockQuery 0 false 128, .blockRebuild 64 false false, .tableLoad false 64 0 0 0,
    .tableLoad false 0 32 0 0, .tableLoad false 0 0 2 0] : List Instr).all (fun c => !c.wf) = true := by decide +kernel

theorem test_ill_formed_4 : ([
    .tableLoad false 0 0 0 256, .install 64 false [] false, .setRemove 64, .recheckNow 64 false, .instOpRefused 64,
    .modelSlotSet 64 0, .modelSlotSet 0 64, .modelSlotClear 64, .grant 4096, .revoke 4096, .grantQuery 4096,
    .grantOpRefused 4096, .setrecWrite 8, .xltInvalidate 4096, .migrate 4 0, .migrate 0 4096, .copyProdWrite 8 0,
    .copyProdWrite 0 (2^32), .copyDescriptor 8 [] [] none none 0, .copyResume 8 [] [] none none 0, .copySkip 8,
    .copyDisable 8, .sequenceRelease 4096 0 false, .releaseResume 4096, .portEnable 2, .portRetrain 2,
    .portTrained 2 0 0 0 0, .portTrained 0 2 0 0 0, .portTrained 0 0 256 0 0, .portTrained 0 0 0 256 0,
    .portTrained 0 0 0 0 128, .trainingRetry 2, .flitReceive 2 {} false 0 0, .nak 2 0] : List Instr).all (fun c => !c.wf) = true := by decide +kernel

theorem test_ill_formed_5 : ([
    .nak 0 (2^32), .replayTimeout 2, .linkLost 2, .unknownMessage 2, .roll 2, .roster 2, .rollFail 2, .announce 2,
    .t3Read 2 false, .t3Write 2, .t3Fence 2, .t3Data 2, .t3FenceAck 2, .stepMessage 2 [], .tokens 2,
    .releaseMessage 2, .spanFree 2, .spanHalt 2, .exportCommit 16384, .exportLoad 16384, .quoteMessage 2,
    .quoteReply 2 false, .relay 2 false false, .capWrite 256, .forceDivWrite 2 0, .forceDivWrite 0 256,
    .dividerChange 2 false, .voltageSettled 2 false, .ageingSample 0x100000000, .throttleRepeat 6,
    .throttleClear 6 false, .droopFire 33, .droopClear 33, .tamper 5 false] : List Instr).all (fun c => !c.wf) = true := by decide +kernel

theorem test_ill_formed_6 : ([
    .ctxOpen 4096, .ctxConfigure 4096 (List.replicate 128 0) false, .ctxConfigure 0 [] false, .ctxEnd 4096,
    .quote 2 0 (List.replicate 32 0) false, .quote 0 4096 (List.replicate 32 0) false, .quote 0 0 [] false,
    .quotePeer 128 (List.replicate 32 0), .quotePeer 0 [], .enroll [] false, .service [] false false 0,
    .service (List.replicate 2884 0) false false 4, .scrap 0 4, .provision [] false false false,
    .mbxOpcodeUnknown 256, .daybookFetch 2 0 0 false, .mctpControl false 256 0, .mctpControl false 0 256,
    .pldmRequest false 2 0, .eraseSuspended 64, .laneFailure 2, .flitSlot 2 false []] : List Instr).all (fun c => !c.wf) = true := by decide +kernel

/-! Small steps and functions, with results from the spec's worked examples and rules. -/

/-- The state that a command leaves. -/
def after (c : Instr) (s : State) : State := match exec c s with | .next t => t | _ => s

/-- The check value of CRC32C on the digits 1 to 9 (the published one). -/
theorem test_crc32c : crc32c ((List.range 9).map (fun i => BitVec.ofNat 8 (0x31 + i))) = 0xE3069283 := by decide +kernel

/-- The first bytes of SHAKE256 of nothing (the published ones). -/
theorem test_shake256 : (shake256 []).take 4 = [0x46, 0xB9, 0xDD, 0x2B] := by decide +kernel

/-- The four weights 3, −2, 7, −1 of column 5, as IW8 codes of rows 0 to 3. -/
def exBuf (i : Nat) : Nat := if i = 5 then 3 else if i = 69 then 0xFE else if i = 133 then 7 else if i = 197 then 0xFF else 0
/-- Their trailer: group scale code 0x08, column sum 7. -/
def exTrailer (i : Nat) : Nat := if i = 5 then 0x08 else if i = 74 then 7 else 0

/-- 04_numeric_formats.md, the worked example of R105 and R106: P = 150. -/
theorem test_block_partial : blockPartial 0 exBuf exTrailer [120, 60, 110, 160] 100 5 = F32.ofInt 150 := by decide +kernel

/-- ... the column scaler gives 2.34375, and the release 0.1171875. -/
theorem test_release : tallyAfter true 0 (groupScale exTrailer 5) (F32.ofInt 150) = 0x40160000 ∧
    releaseRead 0x40160000 0x3D4CCCCD 0x3F800000 = 0x3DF00000 := by decide +kernel

/-- 08_expander_and_weight_lifecycle.md, the worked example of R193 and R195: word 12 holds 0x2A, rebuilt codes and clamps. -/
def exTable (i : Nat) : Nat := nth [0, 1, 0, 0xFE, 0, 0, 3, 0] (i - 8 * 0x2A)
def exDelta : List Nat := List.replicate (0x80 + 12) 0 ++ [0x2A] ++ List.replicate 499 0
def exBase : List Nat := List.replicate 48 0 ++ [0x75, 0xAF, 0x02, 0x36]
theorem test_delta_codes :
    (List.range 8).map (fun i => deltaCode 2 ((List.range 2048).map exTable) exBase exDelta [] (96 + i)) =
      [(5, false), (7, true), (-1, false), (-7, true), (2, false), (0, false), (7, true), (3, false)] := by decide +kernel

/-- R106's example through the release read of a kernel: 2.34375 in the tally of array 0, s_a = 0.05 in a bank of the
element pipeline, S_t = 1.0. -/
theorem test_release_row :
    let t : Tile := { owners := [(4, 3)], arr0 := { tally := [(128 * 2 + 5, 0x40160000)] } }
    let s : State := { State.reset with tiles := [(0, t.puts 4 8 [0xCD, 0xCC, 0x4C, 0x3D])] }
    evalRow s 0 0 3 (.release 0 0 2 5 1 none (some (.bank 4 8))) = [0x3DF00000] := by decide +kernel

/-- R131 by hand: a = 0.5, b = 1 and carry 4 give 3, 2.5 and 2.25; a mark at position 1 (R132) gives 3, 1 and 1.5. -/
theorem test_scan :
    let a := List.replicate 3 0x3F000000
    let b := List.replicate 3 0x3F800000
    scanRow 1 0x40800000 (scanPairs a b none 3) = [0x40400000, 0x40200000, 0x40100000] ∧
    scanRow 1 0x40800000 (scanPairs a b (some 1) 3) = [0x40400000, 0x3F800000, 0x3FC00000] := by decide +kernel

/-- R154 by hand with one position: m' = s, w = 1 from a table whose first segment is the constant 1, l = 1. -/
theorem test_attention_first :
    let tab := [0x3F800000]
    attMax 1 (F32.inf 1) [0x40000000] = 0x40000000 ∧ attWeights tab 0x3F800000 1 0x40000000 [0x40000000] = [0x3F800000] ∧
    attSum tab 0x3F800000 (F32.inf 1) 0x40000000 0 [0x3F800000] = 0x3F800000 := by decide +kernel

/-- 06_attention_and_kv_cache.md, its first worked example: 77 pages at K4V4, 149 at K8V8, and the bytes of a step. -/
theorem test_kv_geometry :
    let g : Buckets := { attLayers := 72, kvHeads := 8, headGroups := 2, maxLen := 32768 }
    tokblkPages g 4 = 77 ∧ tokblkPages g 8 = 149 ∧ kvSeq g 4 4096 = 320864256 ∧
      kvSeq g 4 4097 = 320864256 + 294912 := by decide +kernel

/-- ... and the buckets of n = 4,096 and n = 4,097. -/
theorem test_buckets : bucketOf 4096 = 4 ∧ bucketOf 4097 = 5 := by decide +kernel

/-- 09_memory_tiers_and_scratchpads.md, the worked example of R226. -/
theorem test_granules : granAvailOf 2 2 = 125808 ∧ granAvailOf 0 2 = 128880 := by decide +kernel

/-- 09_memory_tiers_and_scratchpads.md, the worked example of R244: unhashed, hashed with 0x1F and with 0x07. -/
theorem test_scratch_hash :
    ((List.range 64).map (fun i => (scrPlace (2048 * i) 0).1)).eraseDups.length = 1 ∧
    ((List.range 64).map (fun i => (scrPlace (2048 * i) 0x1F).1)).eraseDups.length = 32 ∧
    ((List.range 64).map (fun i => (scrPlace (2048 * i) 0x07).1)).eraseDups.length = 8 := by decide +kernel

/-- 13_chain.md, the worked example of R350: 3.0 and −0.7 in a block take E = 129 and the codes 96 and −22. -/
theorem test_span_codec : (encodeBlock [0x40400000, 0xBF333333]).exp = 129 ∧
    (encodeBlock [0x40400000, 0xBF333333]).mant = [96, -22] := by decide +kernel

/-- 14_power_clocks_thermal.md, the worked example of R361: tiles 0 to 11 decode with K summing to 51.6 W, tiles 12 to 31 prefill
with 84 W, P_U = 40 W. -/
def exPower : State := ((rdy.wrs ((List.range 32).map (fun n => (Reg.PWR_TILE_K_MW n, if n < 12 then 4300 else 4200)))).wrs
  ((List.range 32).map (fun n => (Reg.PWR_TILE_MAXDIV n, 4)))).wrs [(Reg.PWR_UNCORE_PU_DW, 400)]
theorem test_cap_dividers : [180, 160, 120, 90].map (capDivOf exPower [0xFFF, 0xFFFFF000] 0) = [4, 5, 6, 8] ∧
    [180, 160, 120, 90].map (capDivOf exPower [0xFFF, 0xFFFFF000] 1) = [4, 5, 6, 8] := by decide +kernel

/-- R296: an add saturates. -/
theorem test_syn_add_saturates :
    (after (.synAdd 9 2) (up.wr (Reg.SYN_CELL 9) (2 ^ 64 - 2))).rd (Reg.SYN_CELL 9) = 2 ^ 64 - 1 := by
  decide +kernel

/-- R187: the threshold is held within 1,000 to 6,000. -/
theorem test_thresh : (after (.threshKWrite 999) rdy).rd Reg.CEL_DISTURB_CFG_THRESH_K = 1000 ∧
    (after (.threshKWrite 6001) rdy).rd Reg.CEL_DISTURB_CFG_THRESH_K = 6000 := by decide +kernel

/-- R370: after a thermal trip the clocks are stopped, and a command that needs them does nothing. -/
theorem test_trip : (after .thermalTrip rdy).chip.tripped = true ∧
    after (.synAdd 9 2) (after .thermalTrip rdy) = after .thermalTrip rdy := by decide +kernel

/-- A step runs the command in front and leaves the queue's rest. -/
theorem test_step : (match step { up with pending := [.synAdd 9 2, .flr] } with
    | .next t => decide (t.pending = [.flr]) && decide (t.rd (Reg.SYN_CELL 9) = 2) | _ => false) = true := by decide +kernel

/-- No word spells a command: the table gives no row bits. -/
theorem test_no_words : decodeTableWord 32 0 = none := rfl

/-- Obligations.StepKeepsStores: the hypotheses are met, the state after reset and what its step leaves. -/
theorem witness_StepKeepsStores : State.reset.stores ∧ (∃ t, State.reset.stepsTo t) :=
  ⟨⟨by decide +kernel, by decide +kernel⟩, ⟨_, rfl⟩⟩

/-! Witnesses of the statements' hypotheses. -/

def w1_1_1 : List Instr := []
def w2_2_1 : State := (up.wr (Reg.SYN_CELL 32767) 5)
def w2_2_2 : State := (up.wr (Reg.SYN_CELL 0) 5)
def w2_3_1 : State := (up.wr (Reg.SYN_W_VALUE 255) 9)
def w2_4_1 : State := (up.wrs [(Reg.MSIX_CTRL_MASK 7, 0), (Reg.MSIX_DATA_DATA 7, 9)])
def w3_1_1 : RqConf := ({})
def w3_1_2 : State := ({ up with rqs := [(3, some {})] }.wr (Reg.HIF_RQ_STATUS_STATE 3) 1)
def w3_1_4 : State := ({ up with rqs := [(65535, some {})] }.wr (Reg.HIF_RQ_STATUS_STATE 65535) 4)
def w3_3_1 : State := (up.wr Reg.HIF_IRQ_STATUS_DB_DROP 1)
def w3_4_1 : CqConf := ({ written := 2 })
def w3_4_2 : State := { up with cqs := [(4095, some { written := 2 })] }
def w4_1_1_1 : State := (rdy.wrs [(Reg.HIF_CQ_SEL_QUEUE, 4095), (Reg.HIF_CQ_CFG_SIZE_LOG2 4095, 16), (Reg.HIF_CQ_BASE 4095, 0x1234)])
def w4_1_2_1 : State := ({ rdy with cqs := [(0, some {})] }.wrs [(Reg.HIF_CQ_STATUS_ENABLED 0, 1)])
def w4_1_2_2 : CqConf := ({})
def w4_1_3_1 : State := ({ rdy with cqs := [(0, some {})] }.wrs [(Reg.HIF_CQ_STATUS_ENABLED 0, 1), (Reg.HIF_CQ_CFG_VECTOR 0, 2047), (Reg.HIF_CQ_CFG_IRQ_EN 0, 1)])
def w4_2_1_1 : State := ({ rdy with cqs := [(0, some {})] }.wrs [(Reg.HIF_RQ_SEL_QUEUE, 65535), (Reg.HIF_RQ_CFG_SIZE_LOG2 65535, 4), (Reg.HIF_RQ_BASE 65535, 0x12345), (Reg.HIF_RQ_CFG_CONTEXT 65535, 9), (Reg.SEC_CTX_STATE 9, 2)])
def w4_2_2_1 : State := ({ rdy with ops := [{ rq := 5 }] }.wrs [(Reg.HIF_RQ_SEL_QUEUE, 5), (Reg.HIF_RQ_STATUS_STATE 5, 1)])
def w4_2_3_1 : State := ({ rdy with rqs := [(5, some {})] }.wrs [(Reg.HIF_RQ_SEL_QUEUE, 5), (Reg.HIF_RQ_STATUS_STATE 5, 2)])
def w4_2_4_1 : State := ({ rdy with rqs := [(5, some {})] }.wrs [(Reg.HIF_RQ_SEL_QUEUE, 5), (Reg.HIF_RQ_STATUS_STATE 5, 2), (Reg.SEC_CTX_STATE 0, 1)])
def w5_1_1 : List Byte := []
def w5_1_3 : RqConf := ({ ctx := 1, rung := [(5, 3)] })
def w5_2_1 : List Byte := (bytesOf 128 [(0,1,5)])
def w5_3_1 : List Byte := (bytesOf 128 [(0,1,1)])
def w5_4_1_3 : State := { fq with part0 := {} }
def w5_5_1 : List Byte := (bytesOf 128 [(0,1,3),(0x50,4,32767)])
def w5_6_1 : List Byte := (bytesOf 128 [(0,1,4),(0x50,4,32767)])
def w5_7_1_1 : List Byte := (bytesOf 128 [(0,1,2),(4,2,9)])
def w5_7_2_1 : List Byte := (bytesOf 128 [(0,1,2)])
def w5_7_2_4 : State := { fq with ops := [{ gen with inStep := some 0 }] }
def w5_7_2_5 : Operation := ({ gen with inStep := some 0 })
def w6_2 : State := (up.wr Reg.HIF_IRQ_STATUS_RQ_HALT 1)
def w7_1_1 : Operation := ({ id := 4, phase := .signal, desc := { syncCell := 2, syncValue := 5 } })
def w7_1_2 : State := { up with ops := [{ id := 4, phase := .signal, desc := { syncCell := 2, syncValue := 5 } }] }
def w7_2_1 : Operation := ({ id := 4, phase := .waitCell, rq := 1 })
def w7_2_2 : State := ({ up with ops := [{ id := 4, phase := .waitCell, rq := 1 }] }.wr (Reg.HIF_RQ_STATUS_STATE 1) 4)
def w7_3_1 : State := ({ up with rqs := [(65535, some {})] }.wr (Reg.HIF_RQ_STATUS_STATE 65535) 3)
def w7_4_1 : CqConf := ({ irqEn := true, coalUs := 3, unreported := 1, vector := 2047 })
def w7_4_2 : State := ({ up with cqs := [(4095, some { irqEn := true, coalUs := 3, unreported := 1, vector := 2047 })] }.wr (Reg.MSIX_CTRL_MASK 2047) 0)
def w7_5_1 : StagedToken := ({ op := 4, token := 9, pos := 3 })
def w7_5_2 : List StagedToken := []
def w7_5_3 : Operation := ({ id := 4, phase := .decode, desc := { tringBase := 64, tringLog2 := 4 } })
def w7_5_4 : State := { up with ops := [{ id := 4, phase := .decode, desc := { tringBase := 64, tringLog2 := 4 } }], staged := [{ op := 4, token := 9, pos := 3 }] }
def w7_7_1 : State := { up with ops := [{ id := 4 }] }
def w8_1_1 : Operation := ({})
def w8_2_1 : Operation := ({ id := 4, cq := 7, desc := { opcode := 3 } })
def w8_2_2 : CqConf := ({ written := 15 })
def w8_2_3 : State := { up with cqs := [(7, some { written := 15 })], ops := [{ id := 4, cq := 7, desc := { opcode := 3 } }] }
def w8_3_1 : Operation := ({ id := 4, cq := 4095 })
def w8_3_2 : CqConf := ({ held := [1] })
def w8_3_3 : State := { up with cqs := [(4095, some { held := [1] })], ops := [{ id := 4, cq := 4095 }] }
def w9_5_1 : Straps := ({ chainHead := true, bootSel := true, spiVsel := false })
def w9_5_2 : State := { up with chip := { up.chip with coldLow := true } }
def w9_6_1 : Straps := ({ chainHead := true, bootSel := false, spiVsel := true })
def w9_6_2 : State := { up with chip := { up.chip with perstLow := true } }
def w10_1_1 : List Bool := [true]
def w10_1_2 : BootRec := ({ good := true })
def w10_1_3 : State := { State.reset with kpr := { boot0 := { good := true } } }
def w10_2_1 : State := State.reset
def w10_3_1_1 : PciConf := ({ mem := true })
def w10_3_2_1 : PciConf := ({ mem := true, msixEn := true, bar4Log2 := 40 })
def w10_5_1_1 : State := (up.wr Reg.SRM_LC_STATE 3)
def w10_5_2_1 : State := (up.wr Reg.SRM_LC_STATE 2)
def w10_6_1 : State := { rdy with rqs := [(0, some {})] }
def w11_1_1 : State := { up with kpr := { released := true } }
def w11_2_1 : State := { rdy with chn := { room := 2 }, chip := { rdy.chip with tileGo := false } }
def w11_4_1 : State := { up with chip := { up.chip with tilesStarted := 31 } }
def w12_1_1 : ErrRec := ({ errOf 0x0101 4 with cls := 15, code := 65535 })
def w12_2_1 : ErrRec := (errOf 0x0101 4)
def w12_4_1 : State := { rdy with err := { buffer := [errOf 3 1] } }
def w13_1 : ErrRec := ({ errOf 0x0101 4 with cls := 15 })
def w13_4 : State := { rdy with err := { buffer := List.replicate 64 (errOf 3 1), first := [(15, some (errOf 3 1))] } }
def w14_1_1 : ErrRec := (errOf 3 1)
def w14_1_2 : List ErrRec := []
def w14_5_1 : State := { rdy with err := { first := [(15, some (errOf 3 1))] } }
def w14_6_1_1 : State := (rdy.wr Reg.ERR_RING_PROD_PROD 1)
def w14_7_1 : State := (rdy.wr Reg.ERR_IRQ_STATUS_ALERT 1)
def w15_1_1_1 : State := (rdy.wrs [(Reg.KPR_HOSTIF_MIN, 1), (Reg.KPR_HOSTIF_MAX, 2)])
def w15_2_1 : State := (rdy.wr Reg.KPR_MCTP_CFG_SMB_EN 1)
def w15_3_1 : State := (rdy.wr Reg.KPR_MCTP_CFG_SMB_EN 0)
def w16_2_1 : List Byte := [1,2,3]
def w16_2_2 : Manifest := ({})
def w16_2_3 : State := { rdy with kpr := { rdy.kpr with upd := some {} } }
def w16_5_1_1 : State := (rdy.wr Reg.KPR_UPD_STATUS_STATE 3)
def w16_5_2_1 : State := ({ rdy with kpr := { rdy.kpr with upd := some {} } }.wr Reg.KPR_UPD_STATUS_STATE 1)
def w16_6_2 : State := (rdy.wr Reg.KPR_STATUS_STATE 3)
def w16_8_2 : State := ({ rdy with kpr := { rdy.kpr with boot0 := { good := true } } }.wr Reg.KPR_STATUS_TRIAL 1)
def w16_1_1 : State := (rdy.wr Reg.KPR_UPD_LEN_LEN 2)
def w16_3_1 : Manifest := ({ patchBlocks := 2 })
def w16_3_2 : PatchAt := ({ out := [], head := [7, 0, 0], insert := 0, ended := false, good := true })
def w16_3_3 : State := { rdy with kpr := { rdy.kpr with upd := some { patchBlocks := 2 } } }
def w16_4_1_1 : ChainMsg := ({ msgType := 0x30 })
def w16_4_1_2 : State := { rdy with chn := { fore := { inbox := [{ msgType := 0x30 }] } } }
def w16_4_2_1 : ChainMsg := ({ msgType := 0x30, addr := 1 })
def w16_4_2_2 : State := ({ rdy with chn := { aft := { inbox := [{ msgType := 0x30, addr := 1 }] } }, kpr := { rdy.kpr with upd := some {} } }.wr Reg.KPR_UPD_STATUS_RELAYED 1)
def w17_1_1 : State := (rdy.wr Reg.ITN_LOAD_LEN_LEN 3)
def w17_2_1 : State := (rdy.wr Reg.ITN_LOAD_STATUS_STATE 1)
def w17_3_1 : State := ({ rdy with loadLen := 0 }.wr Reg.ITN_LOAD_STATUS_STATE 1)
def w17_4_1 : List Byte := [1,2,3,4]
def w17_4_2 : State := ({ rdy with loadLen := 4 }.wrs [(Reg.ITN_LOAD_STATUS_STATE, 1), (Reg.ITN_LOAD_STATUS_SLOT, 7)])
def w17_4_4 : State := ({ rdy with loadLen := 0 }.wrs [(Reg.ITN_LOAD_STATUS_STATE, 1), (Reg.ITN_LOAD_STATUS_SLOT, 0)])
def w17_4_5 : List Byte := [0,2,0,4]
def w17_4_6 : State := ({ rdy with loadLen := 3 }.wrs [(Reg.ITN_LOAD_STATUS_STATE, 1), (Reg.ITN_LOAD_STATUS_SLOT, 0)])
def w17_5_1 : State := (rdy.wrs [(Reg.ITN_LOAD_STATUS_STATE, 2)])
def w17_6_1 : State := (rdy.wrs [(Reg.ITN_LOAD_STATUS_STATE, 1)])
def w17_8_1 : State := (rdy.wrs [(Reg.ITN_SLOT_STATE 7, 3)])
def w17_8_2 : State := (rdy.wrs [(Reg.ITN_SLOT_STATE 0, 4)])
def w18_3 : Option Image := (some {})
def w19_1_1 : State := (rdy.wrs [(Reg.SEC_CTX_STATE 4095, 1), (Reg.ITN_SLOT_STATE 7, 3)])
def w19_2_1 : State := (rdy.wrs [(Reg.SEC_CTX_STATE 4095, 1), (Reg.ITN_SLOT_STATE 7, 4)])
def w20_2_1 : State := (run .body)
def w20_2_2 : State := { run .idle with part1 := { (run .body).part0 with tileMask := 2 } }
def w20_4_1 : State := (run .scatter)
def w20_6_1 : State := { run .prologue with part0 := { (run .prologue).part0 with ctx := 2 } }
def w20_7_1 : State := (run .sealed)
def w21_1_1 : State := (run .waiting)
def w21_2_1_1 : List Nat := []
def w21_2_1_3 : List (Nat × Bool) := []
def w21_2_1_4 : State := { run .waiting with cel := { forced := [0] } }
def w21_2_2_1 : List Nat := [0x200000]
def w21_3_1 : State := (run .prologue)
def w22_1_1 : List RowExpr := [.literal [0x3F800000]]
def w22_1_2 : ScrRef := (.bank 0 0)
def w22_1_3 : ScrRef := (.bank 1 64)
def w22_2_1_1_2_1 : Booking := ({ bk with lines := [{ check := true, addr := 0x40000, bytes := List.replicate 64 1, mask := List.replicate 64 true }] })
def w22_2_1_1_2_2 : State := { sc with part0 := { sc.part0 with bookings := [{ bk with lines := [{ check := true, addr := 0x40000, bytes := List.replicate 64 1, mask := List.replicate 64 true }] }] } }
def w22_2_2_1 : State := { sc with part0 := { sc.part0 with bookings := [bk65] } }
def w22_3_1 : State := { sc with part0 := { sc.part0 with stall := { retry := true, seen := [0] } } }
def w22_4_1 : Watch := ({ owner := 4, addr := 0x40000, mask := List.replicate 64 true, dirty := true })
def w22_4_2 : State := { sc with part0 := { sc.part0 with watches := [{ owner := 4, addr := 0x40000, mask := List.replicate 64 true, dirty := true }] } }
def w22_5_1 : Booking := ({ bk with aborts := 8 })
def w22_5_2 : State := { sc with part0 := { sc.part0 with bookings := [{ bk with aborts := 8 }] } }
def w23_1_1_1 : State := (sv .saving)
def w23_1_2_1 : State := { sv .saving with part0 := { (sv .saving).part0 with incoming := some 2 } }
def w23_2_2_1 : State := (sv .restoring)
def w23_2_1_1 : State := (svr (sv .restoring))
def w24_1_1 : PhaseEntry := ⟨1, 16, 0, 0x21⟩
def w24_2_1 : List FeedGroup := [{ bank := 3 }]
def w24_2_2 : TimeEntry := ⟨0, 8, 0, 0, 0, 1, 0⟩
def w24_2_3 : KernelEntry := ({ mode := 0, threads := 2 })
def w24_2_4 : List (Option Nat) := (some 0 :: List.replicate 63 none)
def w24_2_5 : State := { run .body with tiles := [(0, { owners := [(3, 1)] })] }
def w24_3_1 : Option (Nat × Nat) := (some (0, 0))
def w24_4_2 : TimeEntry := ⟨0, 64, 1, 1, 1, 1, 0⟩
def w24_4_4 : RackBlock := ({ block := 3, bytes := [1], trailer := [2] })
def w24_4_5 : List RackBlock := []
def w24_4_6 : State := { run .body with tiles := [(0, { arr1 := { rack := [{ block := 3, bytes := [1], trailer := [2] }] } })] }
def w24_4_8 : TimeEntry := ⟨0, 64, 1, 0, 1, 1, 0⟩
def w24_5_1_1 : TimeEntry := ⟨0, 64, 1, 1, 1, 1, 1⟩
def w24_5_1_2 : KernelEntry := ({ mode := 4, threads := 3 })
def w24_5_1_3 : State := { run .body with tiles := [(0, { owners := [(5, 2)] })] }
def w24_6_1 : Nat → Nat := (fun j => 7 * j % 256)
def w25_1_1_1 : TimeEntry := ⟨0, 8, 6, 0, 0, 1, 1⟩
def w25_1_1_2 : Nat × Nat × Nat := (1, 1, 2)
def w25_1_1_4 : TimeEntry := ⟨0, 8, 7, 0, 0, 1, 0⟩
def w25_1_1_5 : Nat × Nat × Nat := (0, 0, 1)
def w25_1_2_1 : TimeEntry := ⟨0, 8, 7, 0, 0, 0, 0⟩
def w25_1_2_3 : State := { fst with tiles := [(0, { filled := true })] }
def w25_2_1 : EntryRun := ({ t := ⟨0, 8, 6, 0, 0, 1, 1⟩, kernel := { flags := 2 }, first := 0, count := 2, base := 0, rep := 0 })
def w25_2_2 : KernelRun := ({ writes := [{ slot := some 0 }] })
def w25_2_3 : Slot := ({ op := 4, decode := true, fault := some 5 })
def w25_2_4 : ScrWrite := ({ slot := some 0 })
def w25_2_5 : State := { run .body with part0 := { (run .body).part0 with plan := [{ op := 4, decode := true }, { op := 4, decode := true, fault := some 5 }] } }
def w25_3_2 : ConvWork := ({ s := run .body })
def w25_3_3 : ConvRow := ({ row := .literal [0] })
def w25_4_1 : List ZeroRun := [{ tile := 0, dst := .bank 3 4, len := 8 }]
def w25_4_2 : Thread := ({ row := 0, state := 1 })
def w25_4_3 : State := { run .body with tiles := [(0, { owners := [(3, 3)], threads := [(5, { row := 0, state := 1 })] })] }
def w25_5_1_1 : List Nat := [0]
def w25_6_1 : ErrRec := (errOf 5 1)
def w25_6_2 : Slot := ({ op := 4, decode := true })
def w25_6_3 : State := { run .body with part0 := { (run .body).part0 with plan := [{ op := 4, decode := true }, { op := 4, decode := true }] } }
def w26_1_1_1 : Arr := ((rg0 7 8 1).tile 0).arr0
def w26_1_1_2 : State := (rg0 7 8 1)
def w26_1_2_1 : Arr := ((rg0 16 0 0).tile 0).arr0
def w26_1_2_2 : State := (rg0 16 0 0)
def w26_1_4_1 : Arr := ((rg0 16 8 8).tile 0).arr0
def w26_1_4_2 : State := (rg0 16 8 8)
def w26_2_1 : State := { run .body with part0 := { (run .body).part0 with stall := { seen := [0, 3] } } }
def w26_4_1 : State := ({ run .body with tiles := [(0, { retention := false, owners := [(2, 4)], testBank := 2, testLine := 4088 })] }.wr Reg.MEM_SCR_TEST_CTRL_ENABLE 1)
def w27_1_1 : State := (up.wrs [(Reg.CEL_CAL_SEL_WORD, 2 ^ Reg.CEL_CAL_SEL_WORD.width - 1)])
def w27_4_2 : RegRow := ((barReg Reg.HIF_TIME.off).get (by decide))
def w28_1_1 : RegRow := ((barReg (Reg.MEM_CH_BASE 0).off).get (by decide))
def w28_2_4_3 : RegRow := ((barReg (Reg.SYN_CELL 3).off).get (by decide))
def w28_2_4_5 : RegRow := ((barReg Reg.MEM_MIG_VA.off).get (by decide))
def w28_2_4_6 : State := { up with hold := [(Reg.MEM_MIG_VA.off, 7)] }
def w28_2_5_3 : FieldRow := (((barReg Reg.MEM_MIG_VA.off).get (by decide)).fields.head (by decide))
def w28_2_5_4 : RegRow := ((barReg Reg.KPR_TRACE_MASK.off).get (by decide))
def w28_2_5_6 : FieldRow := (((barReg Reg.KPR_TRACE_MASK.off).get (by decide)).fields.head (by decide))
def w29_3_1 : State := (up.wrs [(Reg.MEM_IRQ_STATUS_GRANT_DONE, 1), (Reg.MEM_IRQ_STATUS_SCRUB_DONE, 1)])
def w30_2_1 : State := { up with chip := { up.chip with d3hot := true }, heldOut := [.aer], out := [.aer] }
def w30_3_1 : State := { up with chip := { up.chip with d3hot := true } }
def w30_3_2 : Emit := (.hostWrite 0 [] false)
def w30_5_1 : List Nat := [0, 5]
def w30_5_3 : State := { run .body with chip := { up.chip with d3hot := true } }
def w31_1_1_1 : Nat × Nat := (0, 0)
def w31_1_1_2 : State := { cel0 with cel := { cel0.cel with blocks := [(0, { use := 6 })] } }
def w31_2_1_1 : State := { cel0 with cel := { cel0.cel with bankOps := [(0, some { erase := true, plane := 1, block := 2 })] } }
def w31_2_2_1 : State := { cel0 with cel := { cel0.cel with inFlight := [{ plane := 0, part := 0, set := 3, n := 299 }] } }
def w31_3_1 : ReadOp := ({ plane := 0, part := 0, set := 3, n := 299, live := false })
def w31_3_2 : Nat × Nat := (1, 43)
def w31_3_3 : State := { cel0 with cel := { cel0.cel with inFlight := [{ plane := 0, part := 0, set := 3, n := 299, live := false }] } }
def w31_4_1 : ReadOp := ({ plane := 0, part := 0, set := 3, n := 299 })
def w31_4_2 : State := { cel0 with cel := { inFlight := [{ plane := 0, part := 0, set := 3, n := 299 }] } }
def w31_6_2 : Leaf := ({ va := 0x2000000, size := 2^21, tier := 1, addr := 3 * 2^40, w := false, entPa := 0x20080, raw := 3 * 2^40 + 0x25 })
def w31_6_5 : State := { t1 with part0 := {} }
def w31_7_2 : State := { w4 with ctxs := [] }
def w32_1_2 : Nat × Nat := (3, 7)
def w32_1_3 : State := { inst with exp := { inst.exp with todo := [(0, 3, 7)] } }
def w32_2_1 : BankOp := ({ erase := false, plane := 33, block := 7 })
def w32_2_2 : Reloc := ({ plane := 33, src := 4, dst := 7, page := 254 })
def w32_2_3 : State := { eop false false false with cel := { (eop false false false).cel with relocs := [{ plane := 33, src := 4, dst := 7, page := 254 }] } }
def w32_3_1 : BankOp := ({ erase := false, plane := 15, block := 3 })
def w32_3_2 : State := { inst with exp := { inst.exp with todo := [(0, 3, 7), (0, 3, 8)], shard := [1, 2, 3] }, cel := { inst.cel with bankOps := [(0, some { erase := false, plane := 15, block := 3 })] } }
def w32_4_2 : State := (eop false false false)
def w32_5_2 : Stale := ({ plane := 33, block := 7 })
def w32_5_3 : State := { rdy with cel := { stale := [{ plane := 33, block := 7 }] } }
def w32_6_1_1 : BankOp := ({ erase := true, plane := 33, block := 7 })
def w32_6_1_2 : State := (eop true false false)
def w32_6_2_1 : BankOp := ({ erase := true, plane := 33, block := 7, suspending := true })
def w32_6_2_2 : State := (eop true true false)
def w33_1_1 : State := (bl 6000000 0)
def w33_2_1 : State := (bl 9000000 1)
def w33_4_1 : State := { bl 6000000 0 with pwr := { brakeStuck := true } }
def w33_7_1_2 : List (Nat × Nat) := []
def w33_7_1_5 : List Nat := [3]
def w33_7_2_3 : List (Nat × Nat) := [(0, 3)]
def w33_7_2_8 : State := { rdy with cel := { orderly := false } }
def w34_1_1 : BufBlock := ({ arr := 0, block := 1, set := 3 })
def w34_1_2 : List BufBlock := []
def w34_2_1_1 : BufBlock := ({ arr := 0, block := 1, set := 3, live := false })
def w34_2_1_3 : State := { rb with exp := { rb.exp with buffered := [{ arr := 0, block := 1, set := 3, live := false }] } }
def w34_2_2_3 : State := { rb with tiles := [(0, { arr0 := { rack := [⟨0,[],[]⟩, ⟨1,[],[]⟩] } })] }
def w34_3_1_2 : State := { rb with exp := { sets := [(3, { state := 3, form := 2, planes := [0], pages := [300], index := [0,1,2], blocks := 3 })] } }
def w34_3_2_2 : State := { rb with exp := { sets := [(3, { state := 3, form := 2, planes := [0], pages := [300], index := [0,1,2], blocks := 3 })] }, cel := { rb.cel with data := [(0, 2)] } }
def w35_1_2 : State := (rdy.wr (Reg.EXP_TBL_TAG_B 0) 2)
def w35_2_1 : State := { rdy with exp := { tblBusy := true } }
def w35_3_1 : State := ({ rdy with exp := { tblBusy := true, tblId := 31, tblSlot := 1, tblEpoch := 255 } }.wr Reg.EXP_TBL_CRC_CRC (crc32c timg))
def w35_4_1_2 : State := ({ rdy with exp := { tblBusy := true, tblId := 31, tblSlot := 1, tblEpoch := 255 } })
def w36_1_1 : List (Nat × Nat) := [(0, 0)]
def w36_1_2 : List (Nat × Nat) := [(0, 1)]
def w36_2_1_1 : List Byte := (hd1 1)
def w36_3_1_3 : State := { is0 with exp := { is0.exp with todo := [(0, 0, 0)] } }
def w36_3_2_2_2 : List Byte := [1]
def w36_3_2_3_2 : List Byte := (shake256 [1,2,3,4])
def w36_3_2_3_3 : State := { is0 with cel := { alloc := [(0, 4)] } }
def w36_4_1_1 : BankOp := ({ erase := false, plane := 15, block := 0 })
def w36_4_1_2 : State := (isD true)
def w36_4_2_2 : State := (isD false)
def w36_6_1_1 : State := ({ rdy with exp := { sets := [(3, { state := 3 })] } }.wrs [(Reg.EXP_MSLOT_VALID 63, 1), (Reg.EXP_MSLOT_SET 63, 3)])
def w36_6_2_1 : State := ({ rdy with exp := { sets := [(3, { state := 3 })] } })
def w37_1_1_1 : State := (setS 3)
def w37_3_1 : State := (rdy.wr Reg.CEL_STATUS_PHASE 4)
def w37_4_1_2 : State := (setS 2)
def w39_3_1 : State := { rdy with gran := [(5, .scrub none), (6, .owned 1)], dram := [(5 * 2^21, 1), (6 * 2^21 - 1, 2), (6 * 2^21, 3)] }
def w40_2_1 : State := { rdy with walks := [{ ctx := 4095, leaf := {} }, { ctx := 1, leaf := {} }] }
def w40_5_1_1 : Leaf := ({ va := 0, size := 2^21, tier := 0, addr := 0, w := true, entPa := 0x20000, raw := 0x23 })
def w41_3_2 : State := { mem with mig := some mm }
def w41_4_1 : Mig := { mm with page := some lf }
def w41_4_3 : State := { mem with mig := some { mm with page := some lf }, part0 := { pins := [{ ctx := 1, leaf := lf, kind := .step }] } }
def w41_6_2_2 : State := { mem with mig := some { mm with page := some lf } }
def w41_5_3_2 : State := { m4 with chip := { m4.chip with d3hot := true }, mig := some mmh }
def w42_1 : CopyDesc := (parseCopy cd)
def w43_2_2_2 : List Byte := (List.replicate 64 0)
def w43_6_2 : State := (ch.wr (Reg.MEM_CH_PROD_PROD 7) 0)
def w44_1_1 : State := { sq with ops := [ga] }
def w44_2_2_1 : Operation := { gen with copyBlock := some 0 }
def w44_3_3 : State := ((copyShared sn 1 0x40000 0 0).2.2)
def w44_4_1_2 : State := { sq with releases := [rx] }
def w44_4_2_1 : List Nat := [0x40000000]
def w44_5_1 : Release := { ctx := 1, seqIndex := 0, seqPa := 0x40000, held := true }
def w44_5_2 : State := { sq with releases := [{ ctx := 1, seqIndex := 0, seqPa := 0x40000, held := true }] }
def w44_6_1 : State := { sq with dram := dramWrite sq.dram 0x40030 (List.replicate 128 7) }
def w44_7_2 : State := { sq with dram := dramWrite sq.dram 0x40030 (List.replicate 128 5) }
def w45_2_2 : State := (rdy.wr Reg.SRV_GB_SEL_CONTEXT 4095)
def w45_3_1_1 : State := { sq with ops := [gp], dram := dramWrite sq.dram 0x40016 [1] }
def w45_3_2_1 : State := { sq with ops := [gp] }
def w46_2_1 : Operation := { gen with phase := .waiting, desc := { gen.desc with deadlineUs := 3 } }
def w46_2_2 : State := { sq with ops := [{ gen with phase := .waiting, desc := { gen.desc with deadlineUs := 3 } }], timeKc := 1125 }
def w46_3_1_1 : State := (ev9 180)
def w46_3_2_1 : State := (ev9 89)
def w46_3_2_2 : State := (ev9 255)
def w47_1_2_1 : State := { sq with part0 := { sq.part0 with divLimit := 0 } }
def w47_2_1 : PowerSample := ({ pkg1ms := 1000, pkg10ms := 1000 })
def w47_2_3 : PowerSample := ({ pkg1ms := 9000, pkg10ms := 9000 })
def w47_1_1_4 : State := { sq with part0 := { sq.part0 with divLimit := 255 } }
def w48_6_1 : State := { ts with pwr := { ts.pwr with lowMargin := [(31, 59)] } }
def w49_1_2_1 : State := { up with pwr := { up.pwr with curOn := true } }
def w49_1_4_1 : State := { pd with pwr := { up.pwr with curOn := true } }
def w49_2_1 : State := { pd with pwr := { up.pwr with thermHw := true } }
def w49_2_2 : State := { pd with pwr := { up.pwr with railOut := true } }
def w49_2_3 : State := (pd.wr Reg.PWR_STATUS_BRAKE_IN 1)
def w49_4_3_1 : State := { pd with pwr := { pd.pwr with droops := [0] }, part0 := { pd.part0 with stall := { droop := true } } }
def w49_5_3_1 : State := (pd.wr Reg.PWR_BRAKE_GLITCH_COUNT 65535)
def w49_5_5_1 : State := { pd with pwr := { pd.pwr with brakeStuck := true } }
def w50_1_1_1 : State := (tr 0)
def w50_1_1_2 : State := (tr 1)
def w50_1_3_1 : State := ((tr 0).wr Reg.CHN_LEVEL_LINK_MIN (LV-1))
def w50_2_1_1 : State := (rdy.wr (Reg.CHN_P_STATUS_STATE 1) 3)
def w50_2_1_2 : Flit := ({})
def w51_1_2_1 : State := (rdy.wr (Reg.CHN_P_CTRL_ENABLE 0) 1)
def w51_1_5_1 : State := { upP 1 with chn := { aft := { replays := 16 } } }
def w51_1_6_1 : State := { upP 1 with chn := { aft := { replays := 15 } } }
def w51_2_1_1 : State := { upP 1 with chn := { aft := { unacked := [f1] } } }
def w51_2_2_1 : State := (upP 1)
def w51_2_3_2 : List Flit := []
def w51_3_1 : State := { upP 1 with chn := { aft := { unacked := [f1, { f1 with seq := 2 }] } } }
def w51_3_2 : State := { upP 0 with chn := { fore := { unacked := [f1, { f1 with seq := 2 }] } } }
def w51_4_1_1 : State := (upP 0)
def w51_4_2_2 : Flit := { f1 with seq := 0 }
def w51_4_2_3 : State := { upP 1 with chn := { aft := { rxSeq := 2^32 - 1 } } }
def w51_5_2_1 : State := { upP 1 with chn := { aft := { queue := [mg1] } } }
def w52_1_1_1 : State := (rdy.wr Reg.CHN_ROLL_STATUS_BUSY 1)
def w52_1_2_1 : State := (rc 2)
def w52_1_3_1 : State := (rc 0)
def w52_2_1_1 : ChainMsg := (m1 64)
def w52_2_1_2 : State := (inb 0 (rc 2) (m1 64))
def w52_2_2_1 : ChainMsg := (m1 2)
def w52_2_2_2 : State := (inb 0 (rc 0) (m1 2))
def w52_2_2_3 : ChainMsg := (m1 63)
def w52_2_2_4 : State := (inb 0 (rc 0) (m1 63))
def w52_3_1_1 : State := (inb 1 (rc 2) m2)
def w52_3_2_1 : State := (inb 1 (cid (rc 2) 9) m2)
def w52_3_2_2 : State := (inb 0 (cid (rc 0) 9) m2)
def w52_3_3_1 : State := (inb 0 ((cid (rc 2) 9).wr Reg.CHN_ROLL_STATUS_BUSY 1) m3)
def w52_3_4_1 : State := (inb 0 (rc 0) m40)
def w52_3_5_1 : State := (inb 1 (ros (rc 0)) m41)
def w52_3_5_2 : RosterRec := ({ room := 2, words := [2 + 65536 * 3, 5, 6, 9] })
def w52_3_5_3 : List Nat := [196610, 7, 8, 9]
def w52_3_6_1 : State := ((rc 2).updPort 1 (fun x => { x with inbox := [m99] }))
def w53_1_1_1 : State := (ex 1)
def w53_1_2_1 : ExportEntry := { ee with w := false, context := 2 }
def w53_1_2_2 : State := ((ex 0).wr Reg.CHN_EXP_DATA1_CONTEXT 2)
def w53_1_3_1 : State := { ex 1 with chn := { exports := [(5, { valid := true })] } }
def w53_2_1_1_1 : State := (inb 1 (eq false) m10)
def w53_2_1_2_1 : State := (inb 0 (eq false) m10b)
def w53_2_2_1_1 : State := (inb 1 (eq false) m11)
def w53_2_2_2_1 : State := (inb 1 (eq true) m11)
def w53_2_3_1 : State := (inb 1 er m12)
def w53_2_4_1 : State := (inb 1 er m18)
def w53_2_5_1 : State := (inb 1 { er with chn := { er.chn with fences := [(3, [4], some (0, 1))] } } m1a)
def w53_2_5_2 : List Nat := [4]
def w53_2_5_3 : Option (Nat × Nat) := (some (0,1))
def w53_2_5_4 : State := (inb 1 { er with chn := { er.chn with fences := [(3, [4,5], none)] } } m1a)
def w53_2_5_5 : List Nat := [4,5]
def w53_2_6_1 : State := (inb 1 er m21)
def w53_2_7_1 : State := (inb 1 sp m21)
def w53_2_8_1 : State := (inb 1 sp m22)
def w53_2_9_1 : State := (inb 1 sl m22)
def w53_2_9_2 : List Operation := [{ gen with id := 5 }]
def w53_2_10_1 : State := (inb 0 sl m23)
def w53_2_11_1 : State := (inb 0 er m24)
def w53_2_12_1 : State := (inb 0 sl m24)
def w53_2_13_1_1 : State := (inb 0 er m20)
def w53_2_13_1_2 : List SpanRow := []
def w53_2_13_2_1 : State := (inb 1 sl m20)
def w53_2_13_2_2 : List SpanRow := [{}]
def w53_3_2 : State := { er with chn := { er.chn with fences := [(2, [], none), (3, [4], none)] } }
def w54_2_2_1 : State := (rdy.wr Reg.SEC_MBX_STATUS_BUSY 1)
def w54_3_4_1 : State := { mc with ops := [gen] }
def w54_3_6_2 : State := { mem with ops := [gen] }
def w54_4_1 : State := { run .body with releases := [{ ctx := 1, seqIndex := 0, seqPa := 0 }, { ctx := 2, seqIndex := 0, seqPa := 0 }] }
def w55_1_1 : State := (ix 5 1)
def w55_1_2 : State := (ix 6 1)
def w55_1_3 : State := (ix 1024 1)
def w55_1_4 : State := (ix 1025 2)
def w55_1_5 : State := (ix (2^34-1024) (2^24-1))
def w55_2_1 : State := (ix (2^34) (2^24))
def w55_3_1 : List Byte := (gb (makeQuote (qr 0x10 (1 + 65536 * 4095) non q1) (some 4095) (argDigest (qr 0x10 (1 + 65536 * 4095) non q1))))
def w55_3_3 : State := (qr 0x10 (1 + 65536 * 4095) non q1)
def w55_5_1_1 : State := { q2 with sec := { q2.sec with peerRoom := some 3 } }
def w55_6_2_1 : State := (inb 1 { q2 with sec := { q2.sec with peerRoom := some 3 } } m31r)
def w55_6_1_1 : State := (inb 1 q2 m31)
def w56_1_1_1 : State := (lc 1)
def w56_1_2_1 : State := (lc 0)
def w56_1_2_2 : List Byte := (bytesOf 40 [] ++ idPubBytes ++ bytesOf 2968 [])
def w56_1_5_1_1 : State := (lk 1)
def w56_1_5_1_2 : List Byte := (tok 2 3 0)
def w56_1_6_1_1 : State := (lc 3)
def w56_2_3 : State := ((run .body).wr Reg.SRM_TAMPER_COUNT 255)
def w56_1_5_2_2 : List Byte := (tok 1 0 5)
def w58_1 : State := { run .body with chip := { up.chip with tripped := true } }

/-- Obligations.StepRunsFront: the hypotheses of the statement are met together. -/
theorem witness_StepRunsFront :
    up.pending = [] := by decide +kernel

/-- Obligations.SyncCellsAndWaitSlots: the hypotheses of each clause are met together. -/
theorem witness_SyncCellsAndWaitSlots :
    ((up.hostOk (Reg.SYN_CELL 32767).off = true) ∧ (∀ (w : Nat), w < 256 → up.flag (Reg.SYN_W_CTRL_ARMED w) = false)) ∧
    ((w2_2_1.hostOk (Reg.SYN_ADD 32767).off = true) ∧ (∀ (w : Nat), w < 256 → w2_2_1.flag (Reg.SYN_W_CTRL_ARMED w) =
    false)) ∧
    ((w2_2_2.hostOk (Reg.SYN_ADD 0).off = true) ∧ (∀ (w : Nat), w < 256 → w2_2_2.flag (Reg.SYN_W_CTRL_ARMED w) =
    false)) ∧
    ((w2_3_1.hostOk (Reg.SYN_W_CTRL_ARMED 255).off = true) ∧ (bitOf (2 ^ 31 + 7 * 65536 + 32767) 31 = true) ∧
    (w2_3_1.rd (Reg.SYN_CELL (bitsOf (2 ^ 31 + 7 * 65536 + 32767) 0 15)) < w2_3_1.rd (Reg.SYN_W_VALUE 255))) ∧
    ((w2_4_1.hostOk (Reg.SYN_W_CTRL_ARMED 255).off = true) ∧ (bitOf (2 ^ 31 + 7 * 65536 + 32767) 31 = true) ∧
    (w2_4_1.rd (Reg.SYN_W_VALUE 255) ≤ w2_4_1.rd (Reg.SYN_CELL (bitsOf (2 ^ 31 + 7 * 65536 + 32767) 0 15))) ∧
    (w2_4_1.safe = false) ∧ (w2_4_1.msixOpen (bitsOf (2 ^ 31 + 7 * 65536 + 32767) 16 11) = true)) := by
  and_intros <;> decide +kernel

/-- Obligations.Doorbells: the hypotheses of each clause are met together. -/
theorem witness_Doorbells :
    ((w3_1_2.barOk = true) ∧ (w3_1_2.rq 3 = some w3_1_1) ∧ (w3_1_2.rd (Reg.HIF_RQ_STATUS_STATE 3) = 1 ∨ w3_1_2.rd
    (Reg.HIF_RQ_STATUS_STATE 3) = 4) ∧ (15 ≠ w3_1_2.rd (Reg.HIF_RQ_TAIL_TAIL 3)) ∧ ((15 + 2 ^ 32 - w3_1_2.rd
    (Reg.HIF_RQ_HEAD_HEAD 3)) % 2 ^ 32 ≤ 2 ^ w3_1_1.sizeLog2)) ∧
    ((w3_1_4.barOk = true) ∧ (w3_1_4.rq 65535 = some w3_1_1) ∧ (w3_1_4.rd (Reg.HIF_RQ_STATUS_STATE 65535) = 1 ∨
    w3_1_4.rd (Reg.HIF_RQ_STATUS_STATE 65535) = 4) ∧ (16 ≠ w3_1_4.rd (Reg.HIF_RQ_TAIL_TAIL 65535)) ∧ ((16 + 2 ^ 32 -
    w3_1_4.rd (Reg.HIF_RQ_HEAD_HEAD 65535)) % 2 ^ 32 ≤ 2 ^ w3_1_1.sizeLog2)) ∧
    ((w3_1_2.barOk = true) ∧ (w3_1_2.rq 3 = some w3_1_1) ∧ (w3_1_2.rd (Reg.HIF_RQ_STATUS_STATE 3) = 1 ∨ w3_1_2.rd
    (Reg.HIF_RQ_STATUS_STATE 3) = 4) ∧ (0 = w3_1_2.rd (Reg.HIF_RQ_TAIL_TAIL 3))) ∧
    ((w3_3_1.barOk = true) ∧ (w3_3_1.rq 3 = none) ∧ (w3_3_1.flag Reg.HIF_IRQ_STATUS_DB_DROP = true)) ∧
    ((w3_4_2.barOk = true) ∧ (w3_4_2.cq 4095 = some w3_4_1) ∧ (w3_4_1.held = []) ∧ (w3_4_1.head ≤ 2) ∧ (2 ≤
    w3_4_1.written) ∧ (2 < w3_4_1.head + 2 ^ 32)) := by
  and_intros <;> decide +kernel

/-- Obligations.QueueCommands: the hypotheses of each clause are met together. -/
theorem witness_QueueCommands :
    ((w4_1_1_1.ready = true) ∧ (4095 = w4_1_1_1.rd Reg.HIF_CQ_SEL_QUEUE) ∧ (w4_1_1_1.hostOk Reg.HIF_CQ_CMD_OP.off =
    true) ∧ (w4_1_1_1.cq 4095 = none) ∧ (4 ≤ w4_1_1_1.rd (Reg.HIF_CQ_CFG_SIZE_LOG2 4095)) ∧ (w4_1_1_1.rd
    (Reg.HIF_CQ_CFG_SIZE_LOG2 4095) ≤ 16)) ∧
    ((w4_1_2_1.ready = true) ∧ (0 = w4_1_2_1.rd Reg.HIF_CQ_SEL_QUEUE) ∧ (w4_1_2_1.hostOk Reg.HIF_CQ_CMD_OP.off =
    true) ∧ (w4_1_2_1.cq 0 = some w4_1_2_2) ∧ (cqUsed w4_1_2_1 0 = false)) ∧
    ((w4_1_3_1.ready = true) ∧ (0 = w4_1_3_1.rd Reg.HIF_CQ_SEL_QUEUE) ∧ (w4_1_3_1.hostOk Reg.HIF_CQ_CMD_OP.off =
    true) ∧ (w4_1_3_1.cq 0 = some w4_1_2_2)) ∧
    ((rdy.ready = true) ∧ (0 = rdy.rd Reg.HIF_CQ_SEL_QUEUE) ∧ (rdy.hostOk Reg.HIF_CQ_CMD_OP.off = true)) ∧
    ((w4_2_1_1.ready = true) ∧ (65535 = w4_2_1_1.rd Reg.HIF_RQ_SEL_QUEUE) ∧ (w4_2_1_1.hostOk Reg.HIF_RQ_CMD_OP.off =
    true) ∧ (w4_2_1_1.rd (Reg.HIF_RQ_STATUS_STATE 65535) = 0) ∧ (4 ≤ w4_2_1_1.rd (Reg.HIF_RQ_CFG_SIZE_LOG2 65535)) ∧
    (w4_2_1_1.rd (Reg.HIF_RQ_CFG_SIZE_LOG2 65535) ≤ 16) ∧ ((w4_2_1_1.cq (w4_2_1_1.rd (Reg.HIF_RQ_CFG_CQ
    65535))).isSome = true) ∧ (w4_2_1_1.rd (Reg.SEC_CTX_STATE (w4_2_1_1.rd (Reg.HIF_RQ_CFG_CONTEXT 65535))) = 1 ∨
    w4_2_1_1.rd (Reg.SEC_CTX_STATE (w4_2_1_1.rd (Reg.HIF_RQ_CFG_CONTEXT 65535))) = 2)) ∧
    ((w4_2_2_1.ready = true) ∧ (5 = w4_2_2_1.rd Reg.HIF_RQ_SEL_QUEUE) ∧ (w4_2_2_1.hostOk Reg.HIF_RQ_CMD_OP.off =
    true) ∧ (w4_2_2_1.rd (Reg.HIF_RQ_STATUS_STATE 5) ≠ 0) ∧ (rqBusy w4_2_2_1 5 = true)) ∧
    ((w4_2_3_1.ready = true) ∧ (5 = w4_2_3_1.rd Reg.HIF_RQ_SEL_QUEUE) ∧ (w4_2_3_1.hostOk Reg.HIF_RQ_CMD_OP.off =
    true) ∧ (w4_2_3_1.rd (Reg.HIF_RQ_STATUS_STATE 5) ≠ 0) ∧ (rqBusy w4_2_3_1 5 = false)) ∧
    ((w4_2_4_1.ready = true) ∧ (5 = w4_2_4_1.rd Reg.HIF_RQ_SEL_QUEUE) ∧ (w4_2_4_1.hostOk Reg.HIF_RQ_CMD_OP.off =
    true) ∧ (w4_2_4_1.rq 5 = some w3_1_1) ∧ (w4_2_4_1.rd (Reg.HIF_RQ_STATUS_STATE 5) = 2) ∧ (w4_2_4_1.rd
    (Reg.SEC_CTX_STATE w3_1_1.ctx) = 1 ∨ w4_2_4_1.rd (Reg.SEC_CTX_STATE w3_1_1.ctx) = 2)) ∧
    ((rdy.ready = true) ∧ (0 = rdy.rd Reg.HIF_RQ_SEL_QUEUE) ∧ (rdy.hostOk Reg.HIF_RQ_CMD_OP.off = true)) := by
  and_intros <;> decide +kernel

/-- Obligations.DescriptorFetch: the hypotheses of each clause are met together. -/
theorem witness_DescriptorFetch :
    ((fq.live = true) ∧ (fq.rq 2 = some w5_1_3) ∧ (fetchReady fq 2 = true)) ∧
    ((fq.live = true) ∧ (fq.rq 2 = some w5_1_3) ∧ (fetchReady fq 2 = true) ∧ ((parseDesc w5_2_1).opcode = 0 ∨ 4 <
    (parseDesc w5_2_1).opcode)) ∧
    ((fq.live = true) ∧ (fq.rq 2 = some w5_1_3) ∧ (fetchReady fq 2 = true) ∧ ((parseDesc w5_1_1).opcode = 0 ∨ 4 <
    (parseDesc w5_1_1).opcode)) ∧
    ((fq.live = true) ∧ (fq.rq 2 = some w5_1_3) ∧ (fetchReady fq 2 = true) ∧ ((parseDesc w5_3_1).opcode = 1) ∧
    (generateOk w5_3_1 (parseDesc w5_3_1) = false)) ∧
    ((w5_4_1_3.live = true) ∧ (w5_4_1_3.rq 2 = some w5_1_3) ∧ (fetchReady w5_4_1_3 2 = true) ∧ ((parseDesc
    gBytes).opcode = 1) ∧ (generateOk gBytes (parseDesc gBytes) = true) ∧ (decodePart w5_4_1_3 w5_1_3.ctx = none) ∧
    (runPart w5_4_1_3 w5_1_3.ctx = none) ∧ (instantPassed (takeDesc w5_4_1_3 2 w5_1_3 gBytes w5_1_1).fst
    w5_4_1_3.timeKc = false)) ∧
    ((fq.live = true) ∧ (fq.rq 2 = some w5_1_3) ∧ (fetchReady fq 2 = true) ∧ ((parseDesc gBytes).opcode = 1) ∧
    (generateOk gBytes (parseDesc gBytes) = true) ∧ (decodePart fq w5_1_3.ctx = some 0)) ∧
    ((fq.live = true) ∧ (fq.rq 2 = some w5_1_3) ∧ (fetchReady fq 2 = true) ∧ ((parseDesc w5_5_1).opcode = 3) ∧
    (shortOk w5_5_1 (parseDesc w5_5_1) = true)) ∧
    ((fq.live = true) ∧ (fq.rq 2 = some w5_1_3) ∧ (fetchReady fq 2 = true) ∧ ((parseDesc w5_6_1).opcode = 4) ∧
    (shortOk w5_6_1 (parseDesc w5_6_1) = true)) ∧
    ((fq.live = true) ∧ (fq.rq 2 = some w5_1_3) ∧ (fetchReady fq 2 = true) ∧ ((parseDesc w5_7_1_1).opcode = 2) ∧
    (shortOk w5_7_1_1 (parseDesc w5_7_1_1) = true) ∧ (cancelTarget (takeDesc fq 2 w5_1_3 w5_7_1_1 []).snd (takeDesc
    fq 2 w5_1_3 w5_7_1_1 []).fst = none)) ∧
    ((w5_7_2_4.live = true) ∧ (w5_7_2_4.rq 2 = some w5_1_3) ∧ (fetchReady w5_7_2_4 2 = true) ∧ ((parseDesc
    w5_7_2_1).opcode = 2) ∧ (shortOk w5_7_2_1 (parseDesc w5_7_2_1) = true) ∧ (cancelTarget (takeDesc w5_7_2_4 2
    w5_1_3 w5_7_2_1 []).snd (takeDesc w5_7_2_4 2 w5_1_3 w5_7_2_1 []).fst = some w5_7_2_5) ∧ (w5_7_2_5.inStep = some
    0) ∧ (w5_7_2_5.stop = none)) := by
  and_intros <;> decide +kernel

/-- Obligations.QueueHalts: the hypotheses of each clause are met together. -/
theorem witness_QueueHalts :
    (∀ i, i < 19 → up.rd (Reg.HIF_IVEC_VECTOR i) < 2048) ∧
    (∀ i, i < 19 → w6_2.rd (Reg.HIF_IVEC_VECTOR i) < 2048) := by
  and_intros <;> decide +kernel

/-- Obligations.SignalsAndDelivery: the hypotheses of each clause are met together. -/
theorem witness_SignalsAndDelivery :
    ((w7_1_2.live = true) ∧ (w7_1_2.op 4 = some w7_1_1) ∧ (w7_1_1.phase = OpPhase.signal) ∧ ((w7_1_2.ops.any fun x =>
    x.rq == w7_1_1.rq && decide (x.id < w7_1_1.id)) = false)) ∧
    ((w7_2_2.live = true) ∧ (w7_2_2.op 4 = some w7_2_1) ∧ (w7_2_1.phase = OpPhase.waitCell) ∧ (w7_2_1.desc.syncValue
    ≤ w7_2_2.rd (Reg.SYN_CELL w7_2_1.desc.syncCell)) ∧ (w7_2_2.rd (Reg.HIF_RQ_STATUS_STATE w7_2_1.rq) = 4)) ∧
    ((w7_3_1.live = true) ∧ (w7_3_1.rd (Reg.HIF_RQ_STATUS_STATE 65535) = 3) ∧ (rqBusy w7_3_1 65535 = false)) ∧
    ((w7_4_2.live = true) ∧ (w7_4_2.cq 4095 = some w7_4_1) ∧ (w7_4_1.irqEn = true) ∧ (w7_4_1.coalUs ≠ 0) ∧
    (w7_4_1.unreported ≠ 0) ∧ (w7_4_2.msixOpen w7_4_1.vector = true) ∧ (w7_4_2.chip.d3hot = false)) ∧
    ((w7_5_4.live = true) ∧ (w7_5_4.staged = w7_5_1 :: w7_5_2) ∧ (w7_5_4.op w7_5_1.op = some w7_5_3) ∧ (ringFull
    w7_5_3 = false) ∧ (w7_5_3.phase ≠ OpPhase.ending) ∧ (w7_5_4.chip.d3hot = false)) ∧
    ((w7_7_1.live = true) ∧ (w7_7_1.chip.d3hot = false)) := by
  and_intros <;> decide +kernel

/-- Obligations.CompletionRecords: the hypotheses of each clause are met together. -/
theorem witness_CompletionRecords :
    ((w8_2_3.op 4 = some w8_2_1) ∧ (tokensDue w8_2_3 4 = false) ∧ (w8_2_1.noRecord = false) ∧ (w8_2_3.cq w8_2_1.cq =
    some w8_2_2) ∧ (w8_2_2.held = []) ∧ (w8_2_2.written - w8_2_2.head < 2 ^ w8_2_2.sizeLog2) ∧ (w8_2_2.irqEn = false)
    ∧ (w8_2_1.desc.opcode ≠ 1) ∧ (w8_2_3.live = true) ∧ (w8_2_3.chip.d3hot = false)) ∧
    ((w8_3_3.op 4 = some w8_3_1) ∧ (tokensDue w8_3_3 4 = false) ∧ (w8_3_1.noRecord = false) ∧ (w8_3_1.cq < 4096) ∧
    (w8_3_3.cq w8_3_1.cq = some w8_3_2) ∧ (w8_3_2.held ≠ []) ∧ (w8_3_2.held.length < 16383)) := by
  and_intros <;> decide +kernel

/-- Obligations.ResetPins: the hypotheses of each clause are met together. -/
theorem witness_ResetPins :
    (rdy.rd Reg.PWR_STATUS_BRAKE_IN = 0) ∧
    ((rdy.chip.coldLow = false) ∧ (rdy.chip.tripped = false) ∧ (rdy.rd Reg.PWR_STATUS_BRAKE_IN = 0) ∧ (rdy.flag
    Reg.PWR_THR_ACTIVE_EXTERNAL_BRAKE = false)) ∧
    ((Instr.hotReset = Instr.hotReset ∨ Instr.hotReset = Instr.linkDisable) ∧ (rdy.alive = true) ∧ (rdy.chip.linkUp =
    true) ∧ (rdy.rd Reg.PWR_STATUS_BRAKE_IN = 0) ∧ (rdy.flag Reg.PWR_THR_ACTIVE_EXTERNAL_BRAKE = false)) ∧
    ((Instr.linkDisable = Instr.hotReset ∨ Instr.linkDisable = Instr.linkDisable) ∧ (rdy.alive = true) ∧
    (rdy.chip.linkUp = true) ∧ (rdy.rd Reg.PWR_STATUS_BRAKE_IN = 0) ∧ (rdy.flag Reg.PWR_THR_ACTIVE_EXTERNAL_BRAKE =
    false)) ∧
    (w9_5_2.chip.coldLow = true) ∧
    (w9_6_2.chip.perstLow = true) := by
  and_intros <;> decide +kernel

/-- Obligations.StartAndLink: the hypotheses of each clause are met together. -/
theorem witness_StartAndLink :
    ((w10_1_3.alive = true) ∧ (w10_1_3.chip.coreUp = true) ∧ (w10_1_3.chip.pllLocked = false) ∧
    (w10_1_3.chip.pllFailed = false) ∧ (w10_1_3.rd Reg.SRM_LC_STATE ≠ 4) ∧ (w10_1_3.chip.spiVsel = false) ∧
    (w10_1_3.chip.bootSel = false) ∧ (governing w10_1_3.kpr = some w10_1_2) ∧ (w10_1_2.trial = 0) ∧ (slotBoots
    w10_1_3 w10_1_2.active (w10_1_1.headD true) = true)) ∧
    ((w10_2_1.alive = true) ∧ (w10_2_1.chip.pllLocked = false)) ∧
    ((w10_2_1.alive = true) ∧ (w10_2_1.chip.coreUp = true) ∧ (w10_3_1_1.msixEn = false ∨ w10_3_1_1.msixMask = true)) ∧
    ((w10_2_1.alive = true) ∧ (w10_2_1.chip.coreUp = true)) ∧
    ((w10_5_1_1.chip.ioUp = true) ∧ (w10_5_1_1.rd Reg.SRM_LC_STATE = 0 ∨ w10_5_1_1.rd Reg.SRM_LC_STATE = 3)) ∧
    ((w10_5_2_1.chip.ioUp = true) ∧ (w10_5_2_1.rd Reg.SRM_LC_STATE ≠ 0) ∧ (w10_5_2_1.rd Reg.SRM_LC_STATE ≠ 3) ∧ (3 ≠
    1)) ∧
    ((w10_6_1.alive = true) ∧ (w10_6_1.chip.linkUp = true)) := by
  and_intros <;> decide +kernel

/-- Obligations.KeeperReadyAndTiles: the hypotheses of each clause are met together. -/
theorem witness_KeeperReadyAndTiles :
    ((w11_1_1.live = true) ∧ (w11_1_1.kpr.released = true) ∧ (w11_1_1.ready = false) ∧ (w11_1_1.kpr.fallback = false)
    ∧ (w11_1_1.chip.tripFlag = false) ∧ (w11_1_1.sec.pendTamper = false) ∧ (∀ i, i < 19 → w11_1_1.rd
    (Reg.HIF_IVEC_VECTOR i) < 2048)) ∧
    ((w11_2_1.live = true) ∧ (w11_2_1.ready = true) ∧ (1 < w11_2_1.chn.room) ∧ (w11_2_1.chip.tileGo = false)) ∧
    ((w11_1_1.live = true) ∧ (w11_1_1.kpr.released = true) ∧ (w11_1_1.ready = false) ∧ (w11_1_1.kpr.attempts < 2) ∧
    (slotBoots w11_1_1 w11_1_1.kpr.trying (w10_1_1.headD true) = true)) ∧
    ((w11_4_1.live = true) ∧ (w11_4_1.chip.tileGo = true) ∧ (w11_4_1.chip.tilesStarted = 31) ∧ (∀ i, i < 19 →
    w11_4_1.rd (Reg.HIF_IVEC_VECTOR i) < 2048)) := by
  and_intros <;> decide +kernel

/-- Obligations.SafeStateEntry: the hypotheses of each clause are met together. -/
theorem witness_SafeStateEntry :
    ((rdy.safe = false) ∧ (w12_1_1.cls < 16) ∧ (w12_1_1.code < 2 ^ 16) ∧ (∀ i, i < 19 → rdy.rd (Reg.HIF_IVEC_VECTOR
    i) < 2048)) ∧
    ((safe.safe = true) ∧ (w12_2_1.cls < 16) ∧ (∀ i, i < 19 → safe.rd (Reg.HIF_IVEC_VECTOR i) < 2048)) ∧
    ((rdy.live = true) ∧ (rdy.ready = true)) ∧
    ((w12_4_1.live = true) ∧ (w12_4_1.ready = true) ∧ (w12_4_1.err.buffer ≠ [])) := by
  and_intros <;> decide +kernel

/-- Obligations.ErrorReports: the hypotheses of each clause are met together. -/
theorem witness_ErrorReports :
    ((w13_1.cls < 16) ∧ (2 ≤ w13_1.partition) ∧ (∀ i, i < 19 → rdy.rd (Reg.HIF_IVEC_VECTOR i) < 2048)) ∧
    ((w13_1.cls < 16) ∧ (2 ≤ w13_1.partition) ∧ (∀ i, i < 19 → w13_4.rd (Reg.HIF_IVEC_VECTOR i) < 2048)) := by
  and_intros <;> decide +kernel

/-- Obligations.ErrorBlock: the hypotheses of each clause are met together. -/
theorem witness_ErrorBlock :
    ((w12_4_1.live = true) ∧ (w12_4_1.ready = true) ∧ (w12_4_1.err.buffer = w14_1_1 :: w14_1_2) ∧ (w14_1_1.rq =
    65535) ∧ (w12_4_1.err.dropped = 0) ∧ (ringHeld w12_4_1 < 1024) ∧ (∀ i, i < 19 → w12_4_1.rd (Reg.HIF_IVEC_VECTOR
    i) < 2048)) ∧
    ((rdy.hostOk Reg.KPR_DB_MARK_VALUE.off = true) ∧ (rdy.err.dropped = 0)) ∧
    ((rdy.hostOk Reg.KPR_FETCH_CMD_SRC.off = true) ∧ (rdy.ready = true)) ∧
    (w14_5_1.hostOk Reg.ERR_CTRL_CLEAR.off = true) ∧
    ((w14_6_1_1.hostOk Reg.ERR_RING_CONS_CONS.off = true) ∧ ((1 + 2 ^ 32 - w14_6_1_1.rd Reg.ERR_RING_CONS_CONS) % 2 ^
    32 ≤ ringHeld w14_6_1_1)) ∧
    ((w14_6_1_1.hostOk Reg.ERR_RING_CONS_CONS.off = true) ∧ (ringHeld w14_6_1_1 < (2 + 2 ^ 32 - w14_6_1_1.rd
    Reg.ERR_RING_CONS_CONS) % 2 ^ 32)) ∧
    ((w14_7_1.hostOk Reg.ERR_IRQ_STATUS_ALERT.off = true) ∧ (w14_7_1.safe = false) ∧ (w14_7_1.rd Reg.KPR_STATUS_STATE
    ≠ 5)) := by
  and_intros <;> decide +kernel

/-- Obligations.ManagementInterface: the hypotheses of each clause are met together. -/
theorem witness_ManagementInterface :
    ((w15_1_1_1.hostOk Reg.KPR_DRV_IF_VERSION.off = true) ∧ (w15_1_1_1.ready = true) ∧ (w15_1_1_1.rd
    Reg.KPR_HOSTIF_MIN ≤ 1) ∧ (1 ≤ w15_1_1_1.rd Reg.KPR_HOSTIF_MAX)) ∧
    ((w15_1_1_1.hostOk Reg.KPR_DRV_IF_VERSION.off = true) ∧ (w15_1_1_1.ready = true) ∧ (65535 < w15_1_1_1.rd
    Reg.KPR_HOSTIF_MIN ∨ w15_1_1_1.rd Reg.KPR_HOSTIF_MAX < 65535)) ∧
    ((w15_2_1.live = true) ∧ (w15_2_1.ready = true) ∧ (w15_2_1.flag Reg.KPR_MCTP_CFG_SMB_EN = true)) ∧
    ((w15_3_1.live = true) ∧ (w15_3_1.flag Reg.KPR_MCTP_CFG_SMB_EN = false)) := by
  and_intros <;> decide +kernel

/-- Obligations.FirmwareUpdate: the hypotheses of each clause are met together. -/
theorem witness_FirmwareUpdate :
    ((w16_2_3.live = true) ∧ (w16_2_3.kpr.upd = some w16_2_2) ∧ (w16_2_3.flag Reg.KPR_UPD_STATUS_RELAYED = false) ∧
    (blockCrc w16_2_1 = false)) ∧
    ((w16_5_1_1.hostOk Reg.KPR_UPD_CMD_OP.off = true) ∧ (w16_5_1_1.ready = true) ∧ (w16_5_1_1.rd
    Reg.KPR_UPD_STATUS_STATE = 3)) ∧
    ((w16_5_2_1.hostOk Reg.KPR_UPD_CMD_OP.off = true) ∧ (w16_5_2_1.ready = true) ∧ (updRuns w16_5_2_1 = true) ∧
    (w16_5_2_1.rd Reg.KPR_STATUS_STATE ≠ 3)) ∧
    ((w16_6_2.live = true) ∧ (w16_6_2.rd Reg.KPR_STATUS_STATE = 3) ∧ (drainOver w16_6_2 = true)) ∧
    ((w16_6_2.live = true) ∧ (w16_6_2.rd Reg.KPR_STATUS_STATE = 3) ∧ (w16_6_2.ops = [])) ∧
    ((w16_8_2.live = true) ∧ (w16_8_2.ready = true) ∧ (w16_8_2.flag Reg.KPR_STATUS_TRIAL = true) ∧ (governing
    w16_8_2.kpr = some w10_1_2)) ∧
    ((w16_1_1.hostOk Reg.KPR_UPD_CMD_OP.off = true) ∧ (w16_1_1.ready = true) ∧ (updHeld w16_1_1 = false) ∧
    (w16_1_1.rd Reg.KPR_UPD_STATUS_STATE ≠ 3) ∧ (w16_1_1.flag Reg.KPR_UPD_CFG_RELAY = false) ∧ (manifestOk w16_1_1
    mBlk = true) ∧ (w16_1_1.rd Reg.KPR_UPD_LEN_LEN = 1 + (parseManifest mBlk).patchBlocks) ∧ (slotUsable w16_1_1
    (parseManifest mBlk).signerSlot = true) ∧ (bindCode w16_1_1 (parseManifest mBlk) = 0)) ∧
    ((w16_3_3.live = true) ∧ (w16_3_3.kpr.upd = some w16_3_1) ∧ (w16_3_3.flag Reg.KPR_UPD_STATUS_RELAYED = false) ∧
    (w16_3_3.flag Reg.KPR_UPD_CFG_RELAY = false) ∧ (blockCrc tBlk = true) ∧ (recField tBlk 0 4 = w16_3_3.kpr.updNext)
    ∧ (w16_3_3.kpr.updApply = true) ∧ (w16_3_3.kpr.updNext ≠ w16_3_1.patchBlocks) ∧ (1 ≤ recField tBlk 4 2) ∧
    (recField tBlk 4 2 ≤ 4084) ∧ (recField tBlk 6 2 = 0) ∧ (w16_3_2 = List.foldl (patchByte (if w16_3_3.kpr.trying =
    0 then w16_3_3.kpr.image0 else w16_3_3.kpr.image1) w16_3_3.kpr.running.resultLen w16_3_1.resultLen)
    { out := w16_3_3.kpr.updOut, head := w16_3_3.kpr.updHead, insert := w16_3_3.kpr.updInsert, ended := w16_3_3.kpr.updEnded, good := true }
    (List.take (recField tBlk 4 2) (List.drop 8 tBlk))) ∧ (w16_3_2.good = true)) ∧
    ((w16_4_1_2.live = true) ∧ (w16_4_1_2.ready = true) ∧ (List.find? (fun x => x.msgType == 48) (w16_4_1_2.port
    0).inbox = some w16_4_1_1) ∧ (w16_4_1_1.addr % 2 ^ 32 = 0) ∧ (updHeld w16_4_1_2 = false) ∧ (w16_4_1_2.rd
    Reg.KPR_UPD_STATUS_STATE ≠ 3)) ∧
    ((w16_4_2_2.live = true) ∧ (w16_4_2_2.ready = true) ∧ (List.find? (fun x => x.msgType == 48) (w16_4_2_2.port
    1).inbox = some w16_4_2_1) ∧ (w16_4_2_1.addr % 2 ^ 32 ≠ 0) ∧ (w16_4_2_2.flag Reg.KPR_UPD_STATUS_RELAYED = true) ∧
    (w16_4_2_2.kpr.relayId = w16_4_2_1.addr / 2 ^ 40 % 2 ^ 24) ∧ (w16_4_2_2.kpr.relayRoom = w16_4_2_1.addr / 2 ^ 32 %
    256) ∧ (w16_4_2_2.kpr.upd.isSome = true)) :=
  ⟨by decide +kernel, by decide +kernel, by decide +kernel, by decide +kernel, by decide +kernel, by decide +kernel,
    ⟨by decide +kernel, by decide +kernel, by decide +kernel, by decide +kernel, by decide +kernel, manifestOk_mBlk, by decide +kernel, by decide +kernel, by decide +kernel⟩,
    ⟨by decide +kernel, by decide +kernel, by decide +kernel, by decide +kernel, blockCrc_seal tBody (leBytes_len _ _), by decide +kernel, by decide +kernel, by decide +kernel, by decide +kernel, by decide +kernel, by decide +kernel, by decide +kernel, by decide +kernel⟩,
    by decide +kernel, by decide +kernel⟩

/-- Obligations.ItinerarySlots: the hypotheses of each clause are met together. -/
theorem witness_ItinerarySlots :
    ((w17_1_1.hostOk Reg.ITN_LOAD_CTRL_SLOT.off = true) ∧ (w17_1_1.ready = true) ∧ (loadRunning w17_1_1 = false) ∧
    (w17_1_1.rd (Reg.ITN_SLOT_BOUND_COUNT 7) = 0) ∧ (w17_1_1.rd (Reg.ITN_SLOT_STATE 7) ≠ 3)) ∧
    ((w17_2_1.hostOk Reg.ITN_LOAD_CTRL_SLOT.off = true) ∧ (w17_2_1.ready = true) ∧ (loadRunning w17_2_1 = true)) ∧
    ((w17_3_1.live = true) ∧ (w17_3_1.rd Reg.ITN_LOAD_STATUS_STATE = 1) ∧ (headerChecks w17_3_1 hBytes
    w17_3_1.loadLen = none)) ∧
    ((w17_4_2.live = true) ∧ (w17_4_2.rd Reg.ITN_LOAD_STATUS_STATE = 1) ∧ (loadSlot w17_4_2 < 8)) ∧
    ((w17_4_4.live = true) ∧ (w17_4_4.rd Reg.ITN_LOAD_STATUS_STATE = 1) ∧ (loadSlot w17_4_4 < 8)) ∧
    ((w17_4_6.live = true) ∧ (w17_4_6.rd Reg.ITN_LOAD_STATUS_STATE = 1) ∧ (loadSlot w17_4_6 < 8)) ∧
    ((w17_5_1.live = true) ∧ (w17_5_1.rd Reg.ITN_LOAD_STATUS_STATE = 2)) ∧
    ((w17_6_1.live = true) ∧ (w17_6_1.rd Reg.ITN_LOAD_STATUS_STATE = 1)) ∧
    ((w17_6_1.hostOk Reg.ITN_LOAD_CTRL_SLOT.off = true) ∧ (loadRunning w17_6_1 = true)) ∧
    ((w17_8_1.hostOk (Reg.ITN_SLOT_FREE 7).off = true) ∧ (w17_8_1.rd (Reg.ITN_SLOT_BOUND_COUNT 7) = 0) ∧ (w17_8_1.rd
    (Reg.ITN_SLOT_STATE 7) = 3 ∨ w17_8_1.rd (Reg.ITN_SLOT_STATE 7) = 4)) ∧
    ((w17_8_2.hostOk (Reg.ITN_SLOT_FREE 0).off = true) ∧ (w17_8_2.rd (Reg.ITN_SLOT_BOUND_COUNT 0) = 0) ∧ (w17_8_2.rd
    (Reg.ITN_SLOT_STATE 0) = 3 ∨ w17_8_2.rd (Reg.ITN_SLOT_STATE 0) = 4)) ∧
    ((rdy.hostOk Reg.ITN_CFG_SLOT_SIZE.off = true) ∧ (∀ (k : Nat), k < 8 → rdy.rd (Reg.ITN_SLOT_STATE k) = 0) ∧
    (usedAbove rdy (granAvailOf 3 (rdy.rd Reg.MEM_CFG_SETREC_GIB)) = false)) := by
  and_intros <;> decide +kernel

/-- Obligations.LoadEnds: the hypotheses of the statement are met together. -/
theorem witness_LoadEnds :
    (loadSlot rdy < 8) ∧ (∀ i, i < 19 → rdy.rd (Reg.HIF_IVEC_VECTOR i) < 2048) := by decide +kernel

/-- Obligations.Binding: the hypotheses of each clause are met together. -/
theorem witness_Binding :
    ((w19_1_1.hostOk Reg.ITN_BIND_OP.off = true) ∧ (w19_1_1.ready = true) ∧ (runningOrPending w19_1_1 4095 = false) ∧
    (∀ i, i < 19 → w19_1_1.rd (Reg.HIF_IVEC_VECTOR i) < 2048) ∧ (registered w19_1_1 4095 = true) ∧ (w19_1_1.rd
    (Reg.ITN_SLOT_STATE 7) = 3) ∧ (w19_1_1.flag (Reg.SEC_CTX_BOUND 4095) = false)) ∧
    ((w19_2_1.hostOk Reg.ITN_BIND_OP.off = true) ∧ (w19_2_1.ready = true) ∧ (runningOrPending w19_2_1 4095 = false) ∧
    (∀ i, i < 19 → w19_2_1.rd (Reg.HIF_IVEC_VECTOR i) < 2048) ∧ (w19_2_1.rd (Reg.ITN_SLOT_STATE 7) ≠ 3)) ∧
    ((bound.hostOk Reg.ITN_BIND_OP.off = true) ∧ (bound.ready = true) ∧ (runningOrPending bound 1 = false) ∧ (∀ i, i
    < 19 → bound.rd (Reg.HIF_IVEC_VECTOR i) < 2048) ∧ (bound.flag (Reg.SEC_CTX_BOUND 1) = true) ∧ (bound.rd
    (Reg.SEC_CTX_SLOT 1) = 0)) ∧
    ((rdy.hostOk Reg.ITN_BIND_OP.off = true) ∧ (rdy.ready = true) ∧ (runningOrPending rdy 4095 = false) ∧ (∀ i, i <
    19 → rdy.rd (Reg.HIF_IVEC_VECTOR i) < 2048) ∧ (2 = 2 ∨ 2 = 3)) ∧
    ((rdy.hostOk Reg.ITN_BIND_OP.off = true) ∧ (rdy.ready = true) ∧ (runningOrPending rdy 4095 = false) ∧ (∀ i, i <
    19 → rdy.rd (Reg.HIF_IVEC_VECTOR i) < 2048) ∧ (3 = 2 ∨ 3 = 3)) := by
  and_intros <;> decide +kernel

/-- Obligations.Activation: the hypotheses of each clause are met together. -/
theorem witness_Activation :
    ((bound.hostOk (Reg.ITN_P_CTRL_CONTEXT 0).off = true) ∧ (bound.ready = true) ∧ (boundSlot bound 1 = some 0) ∧
    (bound.image 0 = some img) ∧ ((bound.part 0).stage = PStage.idle) ∧ (activationCode (bound.wr
    (Reg.ITN_P_CTRL_CONTEXT 0) 1) 0 1 = 0)) ∧
    ((w20_2_1.hostOk (Reg.ITN_P_CTRL_CONTEXT 0).off = true) ∧ (w20_2_1.ready = true) ∧ ((w20_2_1.part 0).inStep =
    true) ∧ ((w20_2_1.part 0).pendStop = false) ∧ ((w20_2_1.part 0).pendCtx = none) ∧ (activationCode (w20_2_1.wr
    (Reg.ITN_P_CTRL_CONTEXT 0) 1) 0 1 = 0)) ∧
    ((w20_2_2.hostOk (Reg.ITN_P_CTRL_CONTEXT 1).off = true) ∧ (w20_2_2.ready = true) ∧ ((w20_2_2.part 1).inStep =
    true) ∧ ((w20_2_2.part 1).pendStop = false) ∧ ((w20_2_2.part 1).pendCtx = none) ∧ (activationCode (w20_2_2.wr
    (Reg.ITN_P_CTRL_CONTEXT 1) 1) 1 1 = 0)) ∧
    ((rdy.hostOk (Reg.ITN_P_CTRL_CONTEXT 1).off = true) ∧ (rdy.ready = true) ∧ (activationCode (rdy.wr
    (Reg.ITN_P_CTRL_CONTEXT 1) 4095) 1 4095 ≠ 0)) ∧
    ((w20_4_1.hostOk (Reg.ITN_P_CTRL_CONTEXT 0).off = true) ∧ (w20_4_1.ready = true) ∧ ((w20_4_1.part 0).inStep =
    true) ∧ ((w20_4_1.part 0).pendCtx = none) ∧ ((w20_4_1.span 0).running = false)) ∧
    ((w20_2_1.hostOk (Reg.ITN_P_CTRL_CONTEXT 1).off = true) ∧ (w20_2_1.ready = true) ∧ ((w20_2_1.part 1).stage =
    PStage.idle)) ∧
    ((w20_6_1.hostOk (Reg.SRV_P_URGENT_CONTEXT 0).off = true) ∧ (w20_6_1.ready = true) ∧ ((w20_6_1.part
    0).beforeScatter = true) ∧ ((w20_6_1.part 0).ctx ≠ 1) ∧ ((w20_6_1.part 0).pendStop = false) ∧ ((w20_6_1.part
    0).pendCtx = none) ∧ ((w20_6_1.span 0).running = false) ∧ (activationCode (w20_6_1.wr (Reg.SRV_P_URGENT_CONTEXT
    0) 1) 0 1 = 0)) ∧
    ((w20_7_1.hostOk (Reg.SRV_P_URGENT_CONTEXT 0).off = true) ∧ (w20_7_1.ready = true) ∧ ((w20_7_1.part
    0).beforeScatter = true) ∧ ((w20_7_1.part 0).pendCtx = none) ∧ ((w20_7_1.span 0).running = false)) := by
  and_intros <;> decide +kernel

/-- Obligations.StepBegins: the hypotheses of each clause are met together. -/
theorem witness_StepBegins :
    ((w21_1_1.live = true) ∧ ((w21_1_1.part 0).stage = PStage.waiting) ∧ ((w21_1_1.part 0).pendCtx = none) ∧
    ((w21_1_1.part 0).pendStop = false) ∧ ((w21_1_1.part 0).stopCode = 0)) ∧
    ((w21_2_1_4.live = true) ∧ (startDone w21_2_1_4 = true) ∧ ((w21_2_1_4.part 0).stage = PStage.waiting) ∧
    ((w21_2_1_4.part 0).stall = { }) ∧ (ramped w21_2_1_4 0 = true) ∧ ((w21_2_1_4.part 0).pendCtx = none) ∧
    ((w21_2_1_4.part 0).pendStop = false) ∧ ((w21_2_1_4.part 0).stopCode = 0) ∧ (spanLater w21_2_1_4 0 = true ∨
    candidates w21_2_1_4 0 ≠ []) ∧ (spanReady w21_2_1_4 0 = true) ∧ (bankHolds w21_2_1_4 0 = true)) ∧
    ((w21_1_1.live = true) ∧ (startDone w21_1_1 = true) ∧ ((w21_1_1.part 0).stage = PStage.waiting) ∧ ((w21_1_1.part
    0).stall = { }) ∧ (ramped w21_1_1 0 = true) ∧ ((w21_1_1.part 0).pendCtx = none) ∧ ((w21_1_1.part 0).pendStop =
    false) ∧ ((w21_1_1.part 0).stopCode = 0) ∧ (spanLater w21_1_1 0 = true ∨ candidates w21_1_1 0 ≠ []) ∧ (spanReady
    w21_1_1 0 = true) ∧ (bankHolds w21_1_1 0 = false)) ∧
    ((w21_3_1.live = true) ∧ ((w21_3_1.part 0).stage = PStage.prologue) ∧ ((w21_3_1.part 0).stall = { })) ∧
    ((w20_7_1.live = true) ∧ ((w20_7_1.part 0).stage = PStage.sealed) ∧ ((w20_7_1.part 0).stall = { }) ∧
    ((w20_7_1.part 0).plan ≠ [])) := by
  and_intros <;> decide +kernel

/-- Obligations.Scatter: the hypotheses of each clause are met together. -/
theorem witness_Scatter :
    ((w20_2_1.live = true) ∧ ((w20_2_1.part 0).stage = PStage.body) ∧ ((w20_2_1.part 0).stall = { })) ∧
    ((sc.live = true) ∧ ((sc.part 0).stage = PStage.scatter) ∧ ((sc.part 0).bookings[0]? = some bk) ∧ (bk.aborts < 8)
    ∧ (issueHeld (sc.part 0) bk = false) ∧ (bookSize bk.lines bk.refs ≤ 64) ∧ (∀ (w : Watch), w ∈ (sc.part 0).watches
    → w.owner = bk.owner → w.dirty = false) ∧ (bk.lines.any (lineHeld sc) = false) ∧ (checksOk sc bk.lines = true)) ∧
    ((w22_2_1_1_2_2.live = true) ∧ ((w22_2_1_1_2_2.part 0).stage = PStage.scatter) ∧ ((w22_2_1_1_2_2.part
    0).bookings[0]? = some w22_2_1_1_2_1) ∧ (w22_2_1_1_2_1.aborts < 8) ∧ (issueHeld (w22_2_1_1_2_2.part 0)
    w22_2_1_1_2_1 = false) ∧ (bookSize w22_2_1_1_2_1.lines w22_2_1_1_2_1.refs ≤ 64) ∧ (∀ (w : Watch), w ∈
    (w22_2_1_1_2_2.part 0).watches → w.owner = w22_2_1_1_2_1.owner → w.dirty = false) ∧ (w22_2_1_1_2_1.lines.any
    (lineHeld w22_2_1_1_2_2) = false) ∧ (checksOk w22_2_1_1_2_2 w22_2_1_1_2_1.lines = false)) ∧
    ((sc.live = true) ∧ ((sc.part 0).stage = PStage.scatter) ∧ ((sc.part 0).bookings[0]? = some bk) ∧ (bk.aborts < 8)
    ∧ (issueHeld (sc.part 0) bk = false) ∧ (bookSize bk.lines bk.refs ≤ 64)) ∧
    ((w22_2_2_1.live = true) ∧ ((w22_2_2_1.part 0).stage = PStage.scatter) ∧ ((w22_2_2_1.part 0).bookings[0]? = some
    bk65) ∧ (bk65.aborts < 8) ∧ (issueHeld (w22_2_2_1.part 0) bk65 = false) ∧ (64 < bookSize bk65.lines bk65.refs)) ∧
    ((w22_3_1.live = true) ∧ ((w22_3_1.part 0).bookings[0]? = some bk) ∧ (issueHeld (w22_3_1.part 0) bk = true)) ∧
    ((w22_4_2.live = true) ∧ ((w22_4_2.part 0).stage = PStage.scatter) ∧ ((w22_4_2.part 0).bookings[0]? = some bk) ∧
    (bk.aborts < 7) ∧ (issueHeld (w22_4_2.part 0) bk = false) ∧ (bookSize bk.lines bk.refs ≤ 64) ∧ (w22_4_1 ∈
    (w22_4_2.part 0).watches) ∧ (w22_4_1.owner = bk.owner) ∧ (w22_4_1.dirty = true) ∧ (∃ l, l ∈ bk.lines ∧
    w22_4_1.meets l = true)) ∧
    ((w22_5_2.live = true) ∧ (List.find? (fun x => decide (8 ≤ x.aborts)) (w22_5_2.part 0).bookings = some w22_5_1)) ∧
    (sc.live = true) ∧
    ((sc.live = true) ∧ ((sc.part 0).stage = PStage.scatter) ∧ ((sc.part 0).bookings ≠ [])) ∧
    ((w20_4_1.live = true) ∧ ((w20_4_1.part 0).stage = PStage.scatter) ∧ ((w20_4_1.part 0).bookings = []) ∧
    ((w20_4_1.part 0).stall = { }) ∧ (w20_4_1.rd Reg.KPR_TRACE_MASK = 0)) := by
  and_intros <;> decide +kernel

/-- Obligations.SaveAndRestore: the hypotheses of each clause are met together. -/
theorem witness_SaveAndRestore :
    ((w23_1_1_1.live = true) ∧ ((w23_1_1_1.part 0).stage = PStage.saving) ∧ ((w23_1_1_1.part 0).incoming = none)) ∧
    ((w23_1_2_1.live = true) ∧ ((w23_1_2_1.part 0).stage = PStage.saving) ∧ ((w23_1_2_1.part 0).incoming = some 2)) ∧
    ((w23_2_2_1.live = true) ∧ ((w23_2_2_1.part 0).stage = PStage.restoring)) ∧
    ((w23_2_1_1.live = true) ∧ ((w23_2_1_1.part 0).stage = PStage.restoring) ∧ ((restore w23_2_1_1 0).fst = true)) := by
  and_intros <;> decide +kernel

/-- Obligations.TileTimetable: the hypotheses of each clause are met together. -/
theorem witness_TileTimetable :
    ((w20_2_1.live = true) ∧ ((w20_2_1.part 0).stall = { }) ∧ (segRuns (w20_2_1.part 0) (w20_2_1.partImage 0) 1 0 =
    true) ∧ (List.find? (fun x => x.start == 16) (phasesOf (w20_2_1.partImage 0) 0 1) = some w24_1_1)) ∧
    ((w24_2_5.live = true) ∧ (entryNow w24_2_5 0 0 0 0 = some w24_2_2) ∧ (w24_2_2.index < 64) ∧ (0 = w24_2_2.index /
    2) ∧ (0 = w24_2_2.index % 2) ∧ (kernelOf (w24_2_5.partImage 0) 0 w24_2_2.opRef = some w24_2_3) ∧ (w24_2_4 =
    passSlots (w24_2_5.part 0).plan ((w24_2_5.partImage 0).segs.getD w24_2_2.seg { }) 0) ∧ (w24_2_4.length = 64 * 1)
    ∧ ((1 * if 4 ≤ w24_2_3.mode then 4 else 1) ≤ w24_2_2.len) ∧ ((if w24_2_2.flags % 2 = 0 then ((w24_2_5.tile 0).arr
    0).badBuf0 else ((w24_2_5.tile 0).arr 0).badBuf1) = false) ∧ (∀ (g : FeedGroup), g ∈ w24_2_1 → feedOwned
    (w24_2_5.tile 0) 0 g = true)) ∧
    ((w24_4_6.live = true) ∧ (entryNow w24_4_6 0 1 0 1 = some w24_4_2) ∧ (kernelOf (w24_4_6.partImage 0)
    (w24_4_2.index / 2) w24_4_2.opRef = some w24_2_3) ∧ (w24_2_3.mode = 0) ∧ (((w24_4_6.tile (w24_4_2.index / 2)).arr
    (w24_4_2.index % 2)).rack = w24_4_4 :: w24_4_5)) ∧
    ((w24_4_6.live = true) ∧ (entryNow w24_4_6 0 6 0 1 = some w24_4_8) ∧ (kernelOf (w24_4_6.partImage 0)
    (w24_4_8.index / 2) w24_4_8.opRef = some w24_2_3) ∧ (w24_2_3.mode = 0) ∧ (((w24_4_6.tile (w24_4_8.index / 2)).arr
    (w24_4_8.index % 2)).rack = w24_4_4 :: w24_4_5)) ∧
    ((w24_5_1_3.live = true) ∧ (entryNow w24_5_1_3 0 2 0 1 = some w24_5_1_1) ∧ (0 = w24_5_1_1.index / 2) ∧ (1 =
    w24_5_1_1.index % 2) ∧ (kernelOf (w24_5_1_3.partImage 0) 0 w24_5_1_1.opRef = some w24_5_1_2) ∧ (w24_5_1_2.mode ≠
    0) ∧ ((w24_5_1_3.tile 0).owner 5 = 1 + 1)) ∧
    ((w24_5_1_3.live = true) ∧ (entryNow w24_5_1_3 0 2 0 1 = some w24_5_1_1) ∧ (0 = w24_5_1_1.index / 2) ∧ (1 =
    w24_5_1_1.index % 2) ∧ (kernelOf (w24_5_1_3.partImage 0) 0 w24_5_1_1.opRef = some w24_5_1_2) ∧ (w24_5_1_2.mode ≠
    0) ∧ ((w24_5_1_3.tile 0).owner 5 = 1 + 1) ∧ ((w24_5_1_3.partImage 0).kvBits = 8)) ∧
    ((w24_5_1_3.live = true) ∧ (entryNow w24_5_1_3 0 2 0 1 = some w24_5_1_1) ∧ (0 = w24_5_1_1.index / 2) ∧ (1 =
    w24_5_1_1.index % 2) ∧ (kernelOf (w24_5_1_3.partImage 0) 0 w24_5_1_1.opRef = some w24_5_1_2) ∧ (w24_5_1_2.mode ≠
    0) ∧ ((w24_5_1_3.tile 0).owner 5 = 1 + 1) ∧ ((scratchLoad 1 8 fun j => ((w24_5_1_3.tile 0).loseLine 5 1).byte 5
    (0 * 64 + j)) = scratchLoad 1 (w24_5_1_3.partImage 0).kvBits fun j => ((w24_5_1_3.tile 0).loseLine 5 1).byte 5 (0
    * 64 + j))) := by
  and_intros <;> decide +kernel

/-- Obligations.KernelsAndSlotFaults: the hypotheses of each clause are met together. -/
theorem witness_KernelsAndSlotFaults :
    ((w20_2_1.live = true) ∧ (Instr.elementPipelineEntry 0 3 0 kruns = Instr.elementPipelineEntry 0 3 0 kruns ∧ 6 = 6
    ∧ 3 = 3 ∧ 2 = 2 ∨ Instr.elementPipelineEntry 0 3 0 kruns = Instr.tileDmaEntry 0 3 0 kruns ∧ 6 = 7 ∧ 3 = 4 ∧ 2 =
    3) ∧ (entryNow w20_2_1 0 3 0 6 = some w25_1_1_1) ∧ (tileKernels (w20_2_1.partImage 0) w25_1_1_1.index = some
    kimg) ∧ (kimg.invocations[w25_1_1_1.opRef]? = some w25_1_1_2) ∧ (kuns w20_2_1 3 2
    { start := 0, len := 8, cls := 6, flags := 0, index := 0, seg := 1, opRef := 1 } kimg (1, 1, 2) = List.foldl
    (runStage 0 w25_1_1_1.index 3 2
    { t := w25_1_1_1, kernel := kimg.dir.getD w25_1_1_2.fst { }, first := w25_1_1_2.snd.fst, count := w25_1_1_2.snd.snd, base := threadBase kimg w25_1_1_2.fst + w25_1_1_2.snd.fst, rep := 0 })
    (runThreads w20_2_1 0 w25_1_1_1.index (threadBase kimg w25_1_1_2.fst + w25_1_1_2.snd.fst) w25_1_1_2.snd.snd)
    kruns) ∧ ((fillEntries (w20_2_1.partImage 0) w25_1_1_1.index).contains 3 = false)) ∧
    ((w20_2_1.live = true) ∧ (Instr.tileDmaEntry 0 4 0 kruns = Instr.elementPipelineEntry 0 4 0 kruns ∧ 7 = 6 ∧ 4 = 3
    ∧ 3 = 2 ∨ Instr.tileDmaEntry 0 4 0 kruns = Instr.tileDmaEntry 0 4 0 kruns ∧ 7 = 7 ∧ 4 = 4 ∧ 3 = 3) ∧ (entryNow
    w20_2_1 0 4 0 7 = some w25_1_1_4) ∧ (tileKernels (w20_2_1.partImage 0) w25_1_1_4.index = some kimg) ∧
    (kimg.invocations[w25_1_1_4.opRef]? = some w25_1_1_5) ∧ (kuns w20_2_1 4 3
    { start := 0, len := 8, cls := 7, flags := 0, index := 0, seg := 1, opRef := 0 } kimg (0, 0, 1) = List.foldl
    (runStage 0 w25_1_1_4.index 4 3
    { t := w25_1_1_4, kernel := kimg.dir.getD w25_1_1_5.fst { }, first := w25_1_1_5.snd.fst, count := w25_1_1_5.snd.snd, base := threadBase kimg w25_1_1_5.fst + w25_1_1_5.snd.fst, rep := 0 })
    (runThreads w20_2_1 0 w25_1_1_4.index (threadBase kimg w25_1_1_5.fst + w25_1_1_5.snd.fst) w25_1_1_5.snd.snd)
    kruns) ∧ ((fillEntries (w20_2_1.partImage 0) w25_1_1_4.index).contains 4 = false)) ∧
    ((w25_1_2_3.live = true) ∧ (Instr.tileDmaEntry 0 0 0 kruns = Instr.elementPipelineEntry 0 0 0 kruns ∧ 7 = 6 ∧ 4 =
    3 ∧ 3 = 2 ∨ Instr.tileDmaEntry 0 0 0 kruns = Instr.tileDmaEntry 0 0 0 kruns ∧ 7 = 7 ∧ 4 = 4 ∧ 3 = 3) ∧ (entryNow
    w25_1_2_3 0 0 0 7 = some w25_1_2_1) ∧ (tileKernels (w25_1_2_3.partImage 0) w25_1_2_1.index = some fkimg) ∧
    (fkimg.invocations[w25_1_2_1.opRef]? = some w25_1_1_5) ∧ (kuns w25_1_2_3 4 3
    { start := 0, len := 8, cls := 7, flags := 0, index := 0, seg := 0, opRef := 0 } fkimg (0, 0, 1) = List.foldl
    (runStage 0 w25_1_2_1.index 4 3
    { t := w25_1_2_1, kernel := fkimg.dir.getD w25_1_1_5.fst { }, first := w25_1_1_5.snd.fst, count := w25_1_1_5.snd.snd, base := threadBase fkimg w25_1_1_5.fst + w25_1_1_5.snd.fst, rep := 0 })
    (runThreads w25_1_2_3 0 w25_1_2_1.index (threadBase fkimg w25_1_1_5.fst + w25_1_1_5.snd.fst) w25_1_1_5.snd.snd)
    kruns) ∧ ((fillEntries (w25_1_2_3.partImage 0) w25_1_2_1.index).contains 0 = true) ∧ ((w25_1_2_3.tile
    w25_1_2_1.index).filled = true)) ∧
    ((fst.live = true) ∧ (Instr.tileDmaEntry 0 0 0 kruns = Instr.elementPipelineEntry 0 0 0 kruns ∧ 7 = 6 ∧ 4 = 3 ∧ 3
    = 2 ∨ Instr.tileDmaEntry 0 0 0 kruns = Instr.tileDmaEntry 0 0 0 kruns ∧ 7 = 7 ∧ 4 = 4 ∧ 3 = 3) ∧ (entryNow fst 0
    0 0 7 = some w25_1_2_1) ∧ (tileKernels (fst.partImage 0) w25_1_2_1.index = some fkimg) ∧
    (fkimg.invocations[w25_1_2_1.opRef]? = some w25_1_1_5) ∧ (kuns fst 4 3
    { start := 0, len := 8, cls := 7, flags := 0, index := 0, seg := 0, opRef := 0 } fkimg (0, 0, 1) = List.foldl
    (runStage 0 w25_1_2_1.index 4 3
    { t := w25_1_2_1, kernel := fkimg.dir.getD w25_1_1_5.fst { }, first := w25_1_1_5.snd.fst, count := w25_1_1_5.snd.snd, base := threadBase fkimg w25_1_1_5.fst + w25_1_1_5.snd.fst, rep := 0 })
    (runThreads fst 0 w25_1_2_1.index (threadBase fkimg w25_1_1_5.fst + w25_1_1_5.snd.fst) w25_1_1_5.snd.snd) kruns)
    ∧ ((fillEntries (fst.partImage 0) w25_1_2_1.index).contains 0 = true) ∧ ((fst.tile w25_1_2_1.index).filled =
    false)) ∧
    ((bitOf w25_2_1.kernel.flags 1 = true) ∧ ((w25_2_5.part 0).plan[1]? = some w25_2_3) ∧ (w25_2_3.fault.isSome =
    true) ∧ (w25_2_4 ∈ (liveRun w25_2_5 0 0 3 w25_2_1 w25_2_2).writes)) ∧
    (w25_3_3.slot = none) ∧
    ((w25_4_3.live = true) ∧ ((w25_4_3.part 0).inStep = true) ∧ (0 ∈ (w25_4_3.part 0).tiles) ∧ (SMap.get threadBlank
    (w25_4_3.tile 0).threads 5 = w25_4_2) ∧ (w25_4_2.row ≠ 255) ∧ (zeroRuns w25_4_3 (if dmaThread w25_4_3 0 0 5 =
    true then 4 else 3) (List.filter (fun z => z.tile == 0) [{ dst := ScrRef.bank 3 4, len := 8 }]) = zeroRuns
    w25_4_3 (if dmaThread w25_4_3 0 0 5 = true then 4 else 3) (List.filter (fun z => z.tile == 0) w25_4_1))) ∧
    ((w20_2_1.live = true) ∧ ((w20_2_1.part 0).inStep = true) ∧ (zeroRuns w20_2_1 4 (List.filter (fun z =>
    (w20_2_1.part 0).tiles.contains z.tile) [{ dst := ScrRef.bank 3 4, len := 8 }]) = zeroRuns w20_2_1 4 (List.filter
    (fun z => (w20_2_1.part 0).tiles.contains z.tile) w25_4_1))) ∧
    ((w20_2_1.live = true) ∧ ((w20_2_1.part 0).inStep = true) ∧ (zeroRuns w20_2_1 4 (List.filter (fun z =>
    (w20_2_1.part 0).tiles.contains z.tile) [{ dst := ScrRef.bank 3 4, len := 8 }]) = zeroRuns w20_2_1 4 (List.filter
    (fun z => (w20_2_1.part 0).tiles.contains z.tile) w25_4_1)) ∧ (Code.XLT_E_NOT_PRESENT ∈ accessCodes) ∧
    (Code.XLT_E_NOT_PRESENT ≠ Code.XLT_E_UNCORR) ∧ (Code.XLT_E_NOT_PRESENT ≠ Code.XLT_E_TIER2) ∧
    (Code.XLT_E_NOT_PRESENT ≠ Code.XLT_E_TIER3)) ∧
    (((w25_6_3.part 0).plan[0]? = some w25_6_2) ∧ (w25_6_3.op w25_6_2.op = some gen) ∧ (allEnded ((w25_6_3.part
    0).plan.set 0
    { op := w25_6_2.op, decode := w25_6_2.decode, chunk := w25_6_2.chunk, chunkPos := w25_6_2.chunkPos, bucket := w25_6_2.bucket, record := w25_6_2.record, recPa := w25_6_2.recPa, stream := w25_6_2.stream, strPa := w25_6_2.strPa, token := w25_6_2.token, fault := if w25_6_2.fault.isNone = true then some w25_6_1.code else w25_6_2.fault })
    = false)) := by
  and_intros <;> decide +kernel

/-- Obligations.RampsAndStalls: the hypotheses of each clause are met together. -/
theorem witness_RampsAndStalls :
    ((w26_1_1_2.live = true) ∧ (partOfTile w26_1_1_2 0 = some 0) ∧ ((w26_1_1_2.part 0).inStep = true) ∧
    ((w26_1_1_2.part 0).stall = { }) ∧ (w26_1_1_1 = (w26_1_1_2.tile 0).arr 0) ∧ (8 = gapSteps (w26_1_1_2.rd
    (Reg.ITN_P_STATUS_DIVIDER 0)) (gapNow w26_1_1_2 0 0 0)) ∧ (w26_1_1_1.gapDown = 8) ∧ (w26_1_1_1.gapUp < 8) ∧
    (w26_1_1_1.duty < 16)) ∧
    ((w26_1_2_2.live = true) ∧ (partOfTile w26_1_2_2 0 = some 0) ∧ ((w26_1_2_2.part 0).inStep = true) ∧
    ((w26_1_2_2.part 0).stall = { }) ∧ (w26_1_2_1 = (w26_1_2_2.tile 0).arr 0) ∧ (8 = gapSteps (w26_1_2_2.rd
    (Reg.ITN_P_STATUS_DIVIDER 0)) (gapNow w26_1_2_2 0 0 0)) ∧ (w26_1_2_1.gapDown < 8) ∧ (w26_1_2_1.gapUp = 0) ∧ (0 <
    w26_1_2_1.duty)) ∧
    ((w26_1_1_2.live = true) ∧ (partOfTile w26_1_1_2 0 = some 0) ∧ ((w26_1_1_2.part 0).inStep = true) ∧
    ((w26_1_1_2.part 0).stall = { }) ∧ (w26_1_1_1 = (w26_1_1_2.tile 0).arr 0) ∧ (8 = gapSteps (w26_1_1_2.rd
    (Reg.ITN_P_STATUS_DIVIDER 0)) (gapNow w26_1_1_2 0 0 0)) ∧ (8 ≤ w26_1_1_1.gapDown)) ∧
    ((w26_1_4_2.live = true) ∧ (partOfTile w26_1_4_2 0 = some 0) ∧ ((w26_1_4_2.part 0).inStep = true) ∧
    ((w26_1_4_2.part 0).stall = { }) ∧ (w26_1_4_1 = (w26_1_4_2.tile 0).arr 0) ∧ (8 = gapSteps (w26_1_4_2.rd
    (Reg.ITN_P_STATUS_DIVIDER 0)) (gapNow w26_1_4_2 0 0 0)) ∧ (8 ≤ w26_1_4_1.gapUp)) ∧
    ((w26_2_1.live = true) ∧ ((w26_2_1.part 0).inStep = true) ∧ ((w26_2_1.part 0).stall.any = false) ∧ ((w26_2_1.part
    0).stall.seen ≠ [])) ∧
    ((w20_2_1.live = true) ∧ (partOfTile w20_2_1 0 = some 0)) ∧
    ((w26_4_1.live = true) ∧ (partOfTile w26_4_1 0 = some 0) ∧ (testPlace w26_4_1 = some (0, 2, 4088)) ∧
    (w26_4_1.flag Reg.MEM_SCR_TEST_CTRL_ENABLE = true) ∧ ((w26_4_1.part 0).inStep = true) ∧ ((w26_4_1.part 0).stall =
    { }) ∧ (w26_4_1.image (w26_4_1.part 0).slot = some img) ∧ (segRuns (w26_4_1.part 0) (w26_4_1.partImage 0) 1 0 =
    true) ∧ (testWindow (w26_4_1.partImage 0) img.windowLog2 0 1 31 = true)) := by
  and_intros <;> decide +kernel

/-- Obligations.RegisterReads: the hypotheses of each clause are met together. -/
theorem witness_RegisterReads :
    (readOk w27_1_1 16777316 = true) ∧
    (readOk up 33554460 = true) ∧
    (readOk up 46137380 = true) ∧
    ((readOk up Reg.HIF_TIME.off = true) ∧ (barReg Reg.HIF_TIME.off = some w27_4_2) ∧ (w27_4_2.pair = true) ∧
    (Reg.HIF_TIME.off % 4 = 0)) ∧
    ((readOk up 0 = true) ∧ (∀ (w : Nat), w ∈ touched 0 4 → w ≠ 16777316 ∧ w ≠ 33554460 ∧ w ≠ 46137380 ∧ ∀ (r :
    RegRow), barReg w = some r → r.pair = false)) ∧
    ((readOk up 0 = true) ∧ (∀ (w : Nat), w ∈ touched 0 5 → w ≠ 16777316 ∧ w ≠ 33554460 ∧ w ≠ 46137380 ∧ ∀ (r :
    RegRow), barReg w = some r → r.pair = false)) ∧
    ((readOk up Reg.HIF_TIME.off = true) ∧ (barReg Reg.HIF_TIME.off = some w27_4_2) ∧ (w27_4_2.pair = true)) := by
  and_intros <;> decide +kernel

/-- Obligations.RegisterPairs: the hypotheses of each clause are met together. -/
theorem witness_RegisterPairs :
    ((barReg (Reg.MEM_CH_BASE 0).off = some w28_1_1) ∧ (w28_1_1.pair = true)) ∧
    ((barReg Reg.HIF_TIME.off = some w27_4_2) ∧ (w27_4_2.pair = true) ∧ (readOk up (Reg.HIF_TIME.off + 4) = true)) ∧
    ((barReg Reg.HIF_TIME.off = some w27_4_2) ∧ (w27_4_2.pair = true) ∧ (up.snap = [])) ∧
    ((barReg (Reg.MEM_CH_BASE 0).off = some w28_1_1) ∧ (w28_1_1.pair = true) ∧ (up.hostOk ((Reg.MEM_CH_BASE 0).off +
    4) = true)) ∧
    ((barReg (Reg.MEM_CH_BASE 0).off = some w28_1_1) ∧ (w28_1_1.pair = true) ∧ (up.hostOk (Reg.MEM_CH_BASE 0).off =
    true)) ∧
    ((barReg (Reg.SYN_CELL 3).off = some w28_2_4_3) ∧ (w28_2_4_3.pair = true) ∧ (up.hostOk (Reg.SYN_CELL 3).off =
    true)) ∧
    ((barReg Reg.MEM_MIG_VA.off = some w28_2_4_5) ∧ (w28_2_4_5.pair = true) ∧ (w28_2_4_6.hostOk Reg.MEM_MIG_VA.off =
    true)) ∧
    ((barReg Reg.MEM_MIG_VA.off = some w28_2_4_5) ∧ (w28_2_4_5.pair = true) ∧ (w28_2_4_5.fields = [w28_2_5_3]) ∧
    (w28_2_5_3.acc = Acc.rw) ∧ (lineAligned Reg.MEM_MIG_VA.off = false) ∧ (Reg.MEM_MIG_VA.off < 4259840 ∨ 4849664 ≤
    Reg.MEM_MIG_VA.off)) ∧
    ((barReg Reg.KPR_TRACE_MASK.off = some w28_2_5_4) ∧ (w28_2_5_4.pair = true) ∧ (w28_2_5_4.fields = [w28_2_5_6]) ∧
    (w28_2_5_6.acc = Acc.rw) ∧ (lineAligned Reg.KPR_TRACE_MASK.off = false) ∧ (Reg.KPR_TRACE_MASK.off < 4259840 ∨
    4849664 ≤ Reg.KPR_TRACE_MASK.off)) := by
  and_intros <;> decide +kernel

/-- Obligations.RegisterWrites: the hypotheses of each clause are met together. -/
theorem witness_RegisterWrites :
    (up.hostOk Reg.HIF_RQ_SEL_QUEUE.off = true) ∧
    (up.hostOk Reg.GEN_ID_FAMILY.off = true) ∧
    (w29_3_1.hostOk Reg.MEM_IRQ_STATUS_GRANT_DONE.off = true) ∧
    ((up.hostOk 2097152 = true) ∧ (2097152 % 4 = 0) ∧ ((wordReg 2097152).isSome = true)) ∧
    ((up.hostOk Reg.KPR_TRACE_MASK.off = true) ∧ (Reg.KPR_TRACE_MASK.off % 4 = 0) ∧ ((wordReg
    Reg.KPR_TRACE_MASK.off).isSome = true)) ∧
    ((up.hostOk (Reg.KPR_TRACE_MASK.off + 4) = true) ∧ ((Reg.KPR_TRACE_MASK.off + 4) % 4 = 0) ∧ ((wordReg
    (Reg.KPR_TRACE_MASK.off + 4)).isSome = true)) ∧
    ((up.hostOk (Reg.SYN_CELL 3).off = true) ∧ ((Reg.SYN_CELL 3).off % 4 = 0) ∧ ((wordReg (Reg.SYN_CELL
    3).off).isSome = true)) ∧
    ((up.hostOk (Reg.SYN_ADD 3).off = true) ∧ ((Reg.SYN_ADD 3).off % 4 = 0) ∧ ((wordReg (Reg.SYN_ADD 3).off).isSome =
    true)) ∧
    ((up.hostOk 1048572 = true) ∧ (∀ (w : Nat), w ∈ touched 1048572 4 → wordReg w = none)) ∧
    ((up.hostOk 1048568 = true) ∧ (∀ (w : Nat), w ∈ touched 1048568 8 → wordReg w = none)) ∧
    ((up.hostOk 1048572 = true) ∧ (∀ (w : Nat), w ∈ touched 1048572 3 → wordReg w = none)) ∧
    ((up.barOk = true) ∧ (0 = 0 ∨ 0 = 2)) ∧
    ((up.barOk = true) ∧ (2 = 0 ∨ 2 = 2)) ∧
    ((up.barOk = true) ∧ (3 ≠ 4) ∧ (3 ≠ 8)) ∧
    ((up.live = true) ∧ (up.chip.d3hot = false) ∧ (∀ i, i < 19 → up.rd (Reg.HIF_IVEC_VECTOR i) < 2048)) := by
  and_intros <;> decide +kernel

/-- Obligations.PowerManagementState: the hypotheses of each clause are met together. -/
theorem witness_PowerManagementState :
    ((up.alive = true) ∧ (up.chip.linkUp = true)) ∧
    ((w30_2_1.alive = true) ∧ (w30_2_1.chip.d3hot = true) ∧ (w30_2_1.safe = false)) ∧
    ((w30_3_1.chip.tripped = false) ∧ (w30_3_1.safe = false) ∧ (w30_3_1.chip.d3hot = true) ∧ (emitToHost Emit.aer =
    true)) ∧
    ((w30_3_1.chip.tripped = false) ∧ (w30_3_1.safe = false) ∧ (w30_3_1.chip.d3hot = true) ∧ (emitToHost w30_3_2 =
    true)) ∧
    (w30_3_1.chip.d3hot = true) ∧
    ((w30_5_3.live = true) ∧ (w30_5_3.chip.d3hot = true) ∧ ((w30_5_3.part 0).inStep = true)) := by
  and_intros <;> decide +kernel

/-- Obligations.CellarReads: the hypotheses of each clause are met together. -/
theorem witness_CellarReads :
    ((w31_1_1_2.live = true) ∧ ((w31_1_1_2.part 0).inStep = true) ∧ ((w31_1_1_2.part 0).stall = { }) ∧ (SMap.get
    countBlank (w31_1_1_2.part 0).issued 0 < (List.filter (fun e => e.cls == 4 && e.index == 0) (w31_1_1_2.partImage
    0).entries).length) ∧ (w31_1_1_2.bankBusy (0 / 16) = false) ∧ ((w31_1_1_2.cel.inFlight.any fun r => r.plane == 0)
    = false) ∧ (setOnPlane w31_1_1_2 0 0 = some 3) ∧ (runPage w31_1_1_2 3 0 (SMap.get countBlank (w31_1_1_2.part
    0).issued 0) = some w31_1_1_1) ∧ (SMap.get countBlank (w31_1_1_2.part 0).issued 0 < runLen (w31_1_1_2.set 3) 0) ∧
    ((w31_1_1_2.pblock 0 (w31_1_1_2.physOf 0 w31_1_1_1.fst)).use = 6)) ∧
    ((cel0.live = true) ∧ ((cel0.part 0).inStep = true) ∧ ((cel0.part 0).stall = { }) ∧ (SMap.get countBlank
    (cel0.part 0).issued 0 < (List.filter (fun e => e.cls == 4 && e.index == 0) (cel0.partImage 0).entries).length) ∧
    (cel0.bankBusy (0 / 16) = false) ∧ ((cel0.cel.inFlight.any fun r => r.plane == 0) = false) ∧ (setOnPlane cel0 0 0
    = some 3) ∧ (runPage cel0 3 0 (SMap.get countBlank (cel0.part 0).issued 0) = some w31_1_1_1) ∧ (SMap.get
    countBlank (cel0.part 0).issued 0 < runLen (cel0.set 3) 0) ∧ ((cel0.pblock 0 (cel0.physOf 0 w31_1_1_1.fst)).use ≠
    6)) ∧
    ((w31_2_1_1.live = true) ∧ ((w31_2_1_1.part 0).inStep = true) ∧ ((w31_2_1_1.part 0).stall = { }) ∧ (SMap.get
    countBlank (w31_2_1_1.part 0).issued 0 < (List.filter (fun e => e.cls == 4 && e.index == 0) (w31_2_1_1.partImage
    0).entries).length) ∧ (w31_2_1_1.bankBusy (0 / 16) = true)) ∧
    ((w31_2_2_1.live = true) ∧ ((w31_2_2_1.part 0).inStep = true) ∧ ((w31_2_2_1.part 0).stall = { }) ∧ (SMap.get
    countBlank (w31_2_2_1.part 0).issued 0 < (List.filter (fun e => e.cls == 4 && e.index == 0) (w31_2_2_1.partImage
    0).entries).length) ∧ (w31_2_2_1.bankBusy (0 / 16) = false) ∧ ((w31_2_2_1.cel.inFlight.any fun r => r.plane == 0)
    = true)) ∧
    ((w31_3_3.live = true) ∧ (List.find? (fun x => x.plane == 0) w31_3_3.cel.inFlight = some w31_3_1) ∧ (runPage
    w31_3_3 w31_3_1.set w31_3_1.plane w31_3_1.n = some w31_3_2) ∧ (w31_3_1.part < 2)) ∧
    ((w31_4_2.live = true) ∧ (List.find? (fun x => x.plane == 0) w31_4_2.cel.inFlight = some w31_4_1) ∧ (runPage
    w31_4_2 w31_4_1.set w31_4_1.plane w31_4_1.n = none)) ∧
    ((cel0.live = true) ∧ (List.find? (fun x => x.plane == 7) cel0.cel.inFlight = none)) ∧
    ((w31_6_5.live = true) ∧ (∀ (w : CachedWalk), w ∈ w31_6_5.walks → w.ctx = 1 → w.leaf.covers 33554437 = true →
    w.leaf = w31_6_2) ∧ (walk w31_6_5 1 33554437 false = Xlt.ok w31_6_2) ∧ (w31_6_2.tier = 1) ∧ (dataPage
    (w31_6_5.set ((w31_6_2.addr + (33554437 - w31_6_2.va)) / 2 ^ 40)).planes (w31_6_5.set ((w31_6_2.addr + (33554437
    - w31_6_2.va)) / 2 ^ 40)).pages ((w31_6_2.addr + (33554437 - w31_6_2.va)) % 2 ^ 40 / 16384) = some w31_1_1_1) ∧
    (w31_6_5.bankBusy (w31_1_1_1.fst / 16) = false) ∧ (permits w31_6_5 (w31_1_1_1.fst / 16) w21_2_1_1 8000 = true) ∧
    (runPage w31_6_5 ((w31_6_2.addr + (33554437 - w31_6_2.va)) / 2 ^ 40) w31_1_1_1.fst w31_1_1_1.snd = some
    w31_1_1_1)) ∧
    ((w31_7_2.live = true) ∧ (∀ (w : CachedWalk), w ∈ w31_7_2.walks → w.ctx = 1 → w.leaf.covers 0 = false) ∧ (walk
    w31_7_2 1 0 false = Xlt.no 1025)) := by
  and_intros <;> decide +kernel

/-- Obligations.CellarOperations: the hypotheses of each clause are met together. -/
theorem witness_CellarOperations :
    ((w32_1_3.live = true) ∧ (w32_1_3.bankOp 0 = none) ∧ (relocOf w32_1_3 0 = none) ∧ (installTarget w32_1_3 0 = some
    w32_1_2)) ∧
    ((w32_2_3.live = true) ∧ (w32_2_3.bankOp 2 = some w32_2_1) ∧ (w32_2_1.erase = false) ∧ (w32_2_1.dead = false) ∧
    (w32_2_3.rd Reg.KPR_TRACE_MASK = 0) ∧ (List.find? (fun r => r.plane == w32_2_1.plane && r.dst == w32_2_1.block)
    w32_2_3.cel.relocs = some w32_2_2) ∧ (w32_2_2.page < 255)) ∧
    ((w32_3_2.live = true) ∧ (w32_3_2.bankOp 0 = some w32_3_1) ∧ (w32_3_1.erase = false) ∧ (w32_3_1.dead = false) ∧
    (w32_3_2.rd Reg.KPR_TRACE_MASK = 0) ∧ (List.find? (fun r => r.plane == w32_3_1.plane && r.dst == w32_3_1.block)
    w32_3_2.cel.relocs = none) ∧ (w32_3_2.exp.inst = some (3, 0)) ∧ (installTarget w32_3_2 0 = some (3, 7)) ∧
    (List.filter (fun x => x != (0, 3, 7)) w32_3_2.exp.todo ≠ [])) ∧
    ((w32_4_2.live = true) ∧ (w32_4_2.bankOp 2 = some w32_2_1) ∧ (w32_2_1.erase = false) ∧ (w32_2_1.dead = false)) ∧
    ((w32_5_3.live = true) ∧ (w32_5_3.bankOp 2 = none) ∧ (List.find? (fun y => y.plane / 16 == 2) w32_5_3.cel.stale =
    some w32_5_2)) ∧
    ((w32_6_1_2.live = true) ∧ (w32_6_1_2.bankOp 2 = some w32_6_1_1) ∧ (w32_6_1_1.erase = true) ∧
    (w32_6_1_1.suspended = false) ∧ (w32_6_1_1.dead = false)) ∧
    ((w32_6_2_2.live = true) ∧ (w32_6_2_2.bankOp 2 = some w32_6_2_1) ∧ (w32_6_2_1.erase = true) ∧
    (w32_6_2_1.suspended = false) ∧ (w32_6_2_1.dead = false) ∧ (w32_6_2_1.suspending = true)) ∧
    ((w32_6_1_2.live = true) ∧ (w32_6_1_2.bankOp 2 = some w32_6_1_1) ∧ (w32_6_1_1.erase = true) ∧
    (w32_6_1_1.suspended = false) ∧ (w32_6_1_1.dead = false) ∧ (List.find? (fun x => x.plane == w32_6_1_1.plane &&
    x.block == w32_6_1_1.block) w32_6_1_2.cel.stale = none)) := by
  and_intros <;> decide +kernel

/-- Obligations.CellarUpkeep: the hypotheses of each clause are met together. -/
theorem witness_CellarUpkeep :
    ((w33_1_1.live = true) ∧ ((w33_1_1.pblock 33 127).use = 1) ∧ ((w33_1_1.pblock 33 127).queued = 0) ∧
    ((w33_1_1.pblock 33 127).stage = 0) ∧ (refreshAt w33_1_1 ≤ sweepsOf w33_1_1 (w33_1_1.pblock 33 127))) ∧
    ((w33_2_1.live = true) ∧ ((w33_2_1.pblock 33 127).use = 1) ∧ (3 * refreshAt w33_2_1 ≤ 2 * sweepsOf w33_2_1
    (w33_2_1.pblock 33 127))) ∧
    (w33_1_1.live = true) ∧
    ((w33_4_1.live = true) ∧ (w33_4_1.pwr.brakeStuck = true)) ∧
    (rdy.hostOk Reg.CEL_DISTURB_CFG_THRESH_K.off = true) ∧
    ((w33_1_1.hostOk Reg.CEL_BQ_SEL_PLANE.off = true) ∧ (w33_1_1.ready = true)) ∧
    ((rdy.live = true) ∧ (rdy.ready = true) ∧ (rdy.chip.tilesStarted = 32) ∧ (rdy.rd Reg.CEL_STATUS_PHASE = 0)) ∧
    ((rdy.live = true) ∧ (rdy.ready = true) ∧ (rdy.chip.tilesStarted = 32) ∧ (rdy.rd Reg.CEL_STATUS_PHASE = 0) ∧ (∀
    i, i < 19 → rdy.rd (Reg.HIF_IVEC_VECTOR i) < 2048) ∧ (rdy.cel.bankOps = []) ∧ (rdy.cel.relocs = [])) ∧
    ((w33_7_2_8.live = true) ∧ (w33_7_2_8.ready = true) ∧ (w33_7_2_8.chip.tilesStarted = 32) ∧ (w33_7_2_8.rd
    Reg.CEL_STATUS_PHASE = 0) ∧ (∀ i, i < 19 → w33_7_2_8.rd (Reg.HIF_IVEC_VECTOR i) < 2048) ∧ (w33_7_2_8.cel.bankOps
    = []) ∧ (w33_7_2_8.cel.relocs = [])) := by
  and_intros <;> decide +kernel

/-- Obligations.BlockRebuild: the hypotheses of each clause are met together. -/
theorem witness_BlockRebuild :
    ((rb.live = true) ∧ (List.filter (fun x => x.arr == 0) rb.exp.buffered = w34_1_1 :: w34_1_2) ∧ (partOfTile rb (0
    / 2) = some 0) ∧ (w34_1_1.live = true) ∧ (((rb.tile (0 / 2)).arr (0 % 2)).rack.length < 2) ∧ ((rb.part
    0).waitRacks = []) ∧ ((rebuild rb w34_1_1.set w34_1_1.base w34_1_1.block).fault = none)) ∧
    ((w34_2_1_3.live = true) ∧ (List.filter (fun x => x.arr == 0) w34_2_1_3.exp.buffered = w34_2_1_1 :: w34_1_2) ∧
    (partOfTile w34_2_1_3 (0 / 2) = some 0) ∧ (w34_2_1_1.live = false)) ∧
    ((w34_2_2_3.live = true) ∧ (List.filter (fun x => x.arr == 0) w34_2_2_3.exp.buffered = w34_1_1 :: w34_1_2) ∧
    (partOfTile w34_2_2_3 (0 / 2) = some 0) ∧ (w34_1_1.live = true) ∧ (2 ≤ ((w34_2_2_3.tile (0 / 2)).arr (0 %
    2)).rack.length)) ∧
    ((2 ≤ (w34_3_1_2.set 3).form) ∧ (bitOf ((w34_3_1_2.set 3).index.getD 1 0) 63 = false) ∧ (malformed (w34_3_1_2.set
    3).form 1 (blockOf w34_3_1_2 3 1) = true)) ∧
    ((2 ≤ (w34_3_2_2.set 3).form) ∧ (bitOf ((w34_3_2_2.set 3).index.getD 0 0) 63 = false) ∧ (malformed (w34_3_2_2.set
    3).form 0 (blockOf w34_3_2_2 3 0) = false) ∧ (tableSlot w34_3_2_2 (nth (blockOf w34_3_2_2 3 0) 1) (nth (blockOf
    w34_3_2_2 3 0) 2) = none)) ∧
    (nth w21_2_1_1 (128 + wordOf 2 5) ≠ 255) := by
  and_intros <;> decide +kernel

/-- Obligations.DecodeTables: the hypotheses of each clause are met together. -/
theorem witness_DecodeTables :
    ((rdy.hostOk Reg.EXP_TBL_CMD_SET.off = true) ∧ (rdy.ready = true) ∧ (rdy.exp.tblBusy = false) ∧ (tableRefs rdy 31
    1 = 0) ∧ (rdy.rd (tagFld 31 (1 - 1)) ≠ 255)) ∧
    ((w35_1_2.hostOk Reg.EXP_TBL_CMD_SET.off = true) ∧ (w35_1_2.ready = true) ∧ (w35_1_2.exp.tblBusy = false) ∧
    (tableRefs w35_1_2 0 0 = 0) ∧ (w35_1_2.rd (tagFld 0 (1 - 0)) ≠ 1)) ∧
    ((w35_2_1.hostOk Reg.EXP_TBL_CMD_SET.off = true) ∧ (w35_2_1.ready = true) ∧ (w35_2_1.exp.tblBusy = true)) ∧
    ((w35_3_1.live = true) ∧ (w35_3_1.exp.tblBusy = true) ∧ (w35_3_1.exp.tblSet = none) ∧ (timg.length = 2048) ∧
    (crc32c timg = w35_3_1.rd Reg.EXP_TBL_CRC_CRC) ∧ (w35_3_1.exp.tblId < 32) ∧ (w35_3_1.exp.tblSlot < 2) ∧
    (w35_3_1.exp.tblEpoch < 256) ∧ (∀ i, i < 19 → w35_3_1.rd (Reg.HIF_IVEC_VECTOR i) < 2048)) ∧
    ((w35_4_1_2.live = true) ∧ (w35_4_1_2.exp.tblBusy = true) ∧ (w35_4_1_2.exp.tblSet = none)) ∧
    ((w35_4_1_2.live = true) ∧ (w35_4_1_2.exp.tblBusy = true) ∧ (w35_4_1_2.exp.tblSet = none) ∧ (w5_1_1.length ≠ 2048
    ∨ crc32c w5_1_1 ≠ w35_4_1_2.rd Reg.EXP_TBL_CRC_CRC)) := by
  and_intros <;> decide +kernel

/-- Obligations.SetInstallation: the hypotheses of each clause are met together. -/
theorem witness_SetInstallation :
    ((rdy.hostOk Reg.EXP_INST_CMD_OP.off = true) ∧ (rdy.ready = true) ∧ (instRuns rdy = false) ∧ ((rdy.set 63).state
    = 0) ∧ (metaGood hd0 (readMeta hd0) = true) ∧ (indexBytes rdy + 8 * (readMeta hd0).core.blocks ≤ indexRoom
    (rdy.rd Reg.MEM_CFG_SETREC_GIB)) ∧ (dataAlloc rdy (readMeta hd0).core = some w36_1_1) ∧ (metaAlloc rdy (readMeta
    hd0).core w36_1_1 (metaBytes (readMeta hd0).core) = some w36_1_2)) ∧
    ((rdy.hostOk Reg.EXP_INST_CMD_OP.off = true) ∧ (rdy.ready = true) ∧ (instRuns rdy = false) ∧ ((rdy.set 63).state
    = 0)) ∧
    ((rdy.hostOk Reg.EXP_INST_CMD_OP.off = true) ∧ (rdy.ready = true) ∧ (instRuns rdy = false) ∧ ((rdy.set 63).state
    = 0) ∧ (metaGood w36_2_1_1 (readMeta w36_2_1_1) = false)) ∧
    ((w36_3_1_3.live = true) ∧ (w36_3_1_3.exp.inst = some (3, 0)) ∧ (w36_3_1_3.exp.todo ≠ [])) ∧
    ((is0.live = true) ∧ (is0.exp.inst = some (3, 0)) ∧ (is0.exp.todo = [])) ∧
    ((is0.live = true) ∧ (is0.exp.inst = some (3, 0)) ∧ (is0.exp.todo = []) ∧ (w17_4_1.length ≠ min (2 ^ 26)
    ((is0.set 3).dataBytes - 0 * 2 ^ 26) ∨ shake256 w17_4_1 ≠ w36_3_2_2_2)) ∧
    ((w36_3_2_3_3.live = true) ∧ (w36_3_2_3_3.exp.inst = some (3, 0)) ∧ (w36_3_2_3_3.exp.todo = []) ∧ (w17_4_1.length
    = min (2 ^ 26) ((w36_3_2_3_3.set 3).dataBytes - 0 * 2 ^ 26)) ∧ (shake256 w17_4_1 = w36_3_2_3_2) ∧ (shardStripes
    w36_3_2_3_3 3 0 (ceilDiv w17_4_1.length 16384) ≠ [])) ∧
    ((w36_4_1_2.live = true) ∧ (w36_4_1_2.bankOp 0 = some w36_4_1_1) ∧ (w36_4_1_1.erase = false) ∧ (w36_4_1_1.dead =
    false) ∧ (w36_4_1_2.rd Reg.KPR_TRACE_MASK = 0) ∧ (List.find? (fun r => r.plane == w36_4_1_1.plane && r.dst ==
    w36_4_1_1.block) w36_4_1_2.cel.relocs = none) ∧ (w36_4_1_2.exp.inst = some (3, 0)) ∧ (w36_4_1_2.exp.todo = [(0,
    0, 0)]) ∧ (w36_4_1_2.exp.instAbort = true) ∧ (∀ i, i < 19 → w36_4_1_2.rd (Reg.HIF_IVEC_VECTOR i) < 2048)) ∧
    ((w36_4_2_2.live = true) ∧ (w36_4_2_2.bankOp 0 = some w36_4_1_1) ∧ (w36_4_1_1.erase = false) ∧ (w36_4_1_1.dead =
    false) ∧ (w36_4_2_2.rd Reg.KPR_TRACE_MASK = 0) ∧ (List.find? (fun r => r.plane == w36_4_1_1.plane && r.dst ==
    w36_4_1_1.block) w36_4_2_2.cel.relocs = none) ∧ (w36_4_2_2.exp.inst = some (3, 0)) ∧ (w36_4_2_2.exp.todo = [(0,
    0, 0)]) ∧ (w36_4_2_2.exp.instAbort = false)) ∧
    ((is0.hostOk Reg.EXP_INST_CMD_OP.off = true) ∧ (is0.exp.inst = some (3, 0))) ∧
    ((w36_6_1_1.hostOk Reg.EXP_INST_CMD_OP.off = true) ∧ (w36_6_1_1.ready = true) ∧ (instRuns w36_6_1_1 = false) ∧
    (setPointed w36_6_1_1 3 = true ∨ isBase w36_6_1_1 3 = true)) ∧
    ((w36_6_2_1.hostOk Reg.EXP_INST_CMD_OP.off = true) ∧ (w36_6_2_1.ready = true) ∧ (instRuns w36_6_2_1 = false) ∧
    (setPointed w36_6_2_1 3 = false) ∧ (isBase w36_6_2_1 3 = false) ∧ ((w36_6_2_1.set 3).state = 3)) ∧
    ((w36_6_2_1.hostOk Reg.EXP_INST_CMD_OP.off = true) ∧ (w36_6_2_1.ready = true) ∧ (instRuns w36_6_2_1 = false)) := by
  and_intros <;> decide +kernel

/-- Obligations.SetChecks: the hypotheses of each clause are met together. -/
theorem witness_SetChecks :
    ((w37_1_1_1.hostOk Reg.EXP_INST_CMD_OP.off = true) ∧ (w37_1_1_1.ready = true) ∧ (instRuns w37_1_1_1 = false) ∧
    ((w37_1_1_1.set 3).state = 3) ∧ (metaWrong w37_1_1_1 3 false = false) ∧ (shardsWrong w37_1_1_1 3 false = false)) ∧
    ((w37_1_1_1.hostOk Reg.EXP_INST_CMD_OP.off = true) ∧ (w37_1_1_1.ready = true) ∧ (instRuns w37_1_1_1 = false) ∧
    ((w37_1_1_1.set 3).state = 3) ∧ (metaWrong w37_1_1_1 3 true = true ∨ shardsWrong w37_1_1_1 3 false = true)) ∧
    ((w37_1_1_1.live = true) ∧ (w37_1_1_1.ready = true) ∧ ((w37_1_1_1.set 3).state = 3) ∧ (ageHours w37_1_1_1 ≤
    w37_1_1_1.rd Reg.EXP_RECHECK_CFG_HOURS) ∧ (∀ i, i < 19 → w37_1_1_1.rd (Reg.HIF_IVEC_VECTOR i) < 2048) ∧ (∀ (k :
    Nat), k < 64 → (w37_1_1_1.set k).state = 3 → metaWrong w37_1_1_1 k false = false ∧ shardsWrong w37_1_1_1 k false
    = false)) ∧
    ((w37_3_1.live = true) ∧ (w37_3_1.ready = true) ∧ (w37_3_1.rd Reg.CEL_STATUS_PHASE = 4) ∧ (∀ (n : Nat), n < 64 →
    (w37_3_1.set n).state = 0)) ∧
    ((w37_4_1_2.live = true) ∧ (w37_4_1_2.ready = true) ∧ (w37_4_1_2.rd Reg.CEL_STATUS_PHASE = 4) ∧ ((w37_4_1_2.set
    3).state = 2 ∨ (w37_4_1_2.set 3).state = 3) ∧ (∀ (k : Nat), k < 64 → k ≠ 3 → (w37_4_1_2.set k).state = 0) ∧
    (metaWrong w37_4_1_2 3 (w33_7_1_5.contains 3) = true)) ∧
    ((w37_1_1_1.live = true) ∧ (w37_1_1_1.ready = true) ∧ (w37_1_1_1.rd Reg.CEL_STATUS_PHASE = 4) ∧ ((w37_1_1_1.set
    3).state = 2 ∨ (w37_1_1_1.set 3).state = 3) ∧ (∀ (k : Nat), k < 64 → k ≠ 3 → (w37_1_1_1.set k).state = 0) ∧
    (metaWrong w37_1_1_1 3 (w21_2_1_1.contains 3) = false) ∧ ((w37_1_1_1.set 3).state = 3)) ∧
    ((w37_4_1_2.live = true) ∧ (w37_4_1_2.ready = true) ∧ (w37_4_1_2.rd Reg.CEL_STATUS_PHASE = 4) ∧ ((w37_4_1_2.set
    3).state = 2 ∨ (w37_4_1_2.set 3).state = 3) ∧ (∀ (k : Nat), k < 64 → k ≠ 3 → (w37_4_1_2.set k).state = 0) ∧
    (metaWrong w37_4_1_2 3 (w21_2_1_1.contains 3) = false) ∧ ((w37_4_1_2.set 3).state = 2) ∧ (shardsWrong w37_4_1_2 3
    false = false)) := by
  and_intros <;> decide +kernel

/-- Obligations.ModelSlots: the hypotheses of each clause are met together. -/
theorem witness_ModelSlots :
    ((ms.hostOk Reg.EXP_MSLOT_CMD_SET.off = true) ∧ (ms.ready = true) ∧ ((ms.set 3).state = 3) ∧ (slotUsers ms 63 =
    [])) ∧
    ((msu.hostOk Reg.EXP_MSLOT_CMD_SET.off = true) ∧ (msu.ready = true) ∧ ((msu.set 3).state = 3) ∧ (slotUsers msu 63
    ≠ []) ∧ (swapFits msu 63 3 = true) ∧ (∀ (p : Nat), p ∈ slotUsers msu 63 → (msu.part p).stage ≠ PStage.waiting)) ∧
    ((msu.hostOk Reg.EXP_MSLOT_CMD_SET.off = true) ∧ (msu.ready = true) ∧ ((msu.set 4).state ≠ 3 ∨ slotUsers msu 63 ≠
    [] ∧ swapFits msu 63 4 = false)) ∧
    ((ms.hostOk Reg.EXP_MSLOT_CMD_SET.off = true) ∧ (ms.ready = true) ∧ ((ms.set 5).state ≠ 3 ∨ slotUsers ms 63 ≠ []
    ∧ swapFits ms 63 5 = false)) ∧
    ((ms.hostOk Reg.EXP_MSLOT_CMD_SET.off = true) ∧ (ms.ready = true) ∧ (slotUsers ms 63 = [])) ∧
    ((msu.hostOk Reg.EXP_MSLOT_CMD_SET.off = true) ∧ (msu.ready = true) ∧ (slotUsers msu 63 ≠ [])) := by
  and_intros <;> decide +kernel

/-- Obligations.Granules: the hypotheses of each clause are met together. -/
theorem witness_Granules :
    ((gr.hostOk Reg.MEM_GRANT_CMD_OP.off = true) ∧ (gr.ready = true) ∧ (∀ i, i < 19 → gr.rd (Reg.HIF_IVEC_VECTOR i) <
    2048) ∧ (5 = gr.rd Reg.MEM_GRANT_FIRST_FIRST) ∧ (3 = gr.rd Reg.MEM_GRANT_COUNT_COUNT) ∧ (grantBad gr 4095 5 3 =
    false) ∧ ((granCount gr 5 3 fun x => true) = 0)) ∧
    ((go.hostOk Reg.MEM_GRANT_CMD_OP.off = true) ∧ (go.ready = true) ∧ (∀ i, i < 19 → go.rd (Reg.HIF_IVEC_VECTOR i) <
    2048) ∧ (5 = go.rd Reg.MEM_GRANT_FIRST_FIRST) ∧ (3 = go.rd Reg.MEM_GRANT_COUNT_COUNT) ∧ (grantBad go 4095 5 3 =
    false) ∧ ((granCount go 5 3 fun x => true) ≠ 0)) ∧
    ((go.hostOk Reg.MEM_GRANT_CMD_OP.off = true) ∧ (go.ready = true) ∧ (∀ i, i < 19 → go.rd (Reg.HIF_IVEC_VECTOR i) <
    2048) ∧ (5 = go.rd Reg.MEM_GRANT_FIRST_FIRST) ∧ (3 = go.rd Reg.MEM_GRANT_COUNT_COUNT) ∧ (grantBad go 4095 5 3 =
    false) ∧ ((granCount go 5 3 fun v => v == GranSt.owned 4095) = 3) ∧ (runPinned go 4095 5 3 = false)) ∧
    ((gr.hostOk Reg.MEM_GRANT_CMD_OP.off = true) ∧ (gr.ready = true) ∧ (∀ i, i < 19 → gr.rd (Reg.HIF_IVEC_VECTOR i) <
    2048) ∧ (5 = gr.rd Reg.MEM_GRANT_FIRST_FIRST) ∧ (3 = gr.rd Reg.MEM_GRANT_COUNT_COUNT) ∧ (grantBad gr 4095 5 3 =
    false) ∧ ((granCount gr 5 3 fun v => v == GranSt.owned 4095) ≠ 3)) ∧
    ((go.hostOk Reg.MEM_GRANT_CMD_OP.off = true) ∧ (go.ready = true) ∧ (∀ i, i < 19 → go.rd (Reg.HIF_IVEC_VECTOR i) <
    2048) ∧ (go.granule (go.rd Reg.MEM_GRANT_FIRST_FIRST) = GranSt.owned 4095)) ∧
    ((gr.hostOk Reg.MEM_GRANT_CMD_OP.off = true) ∧ (gr.ready = true) ∧ (∀ i, i < 19 → gr.rd (Reg.HIF_IVEC_VECTOR i) <
    2048) ∧ (gr.granule (gr.rd Reg.MEM_GRANT_FIRST_FIRST) = GranSt.free)) ∧
    ((gr.hostOk Reg.MEM_GRANT_CMD_OP.off = true) ∧ (gr.ready = true) ∧ (∀ i, i < 19 → gr.rd (Reg.HIF_IVEC_VECTOR i) <
    2048)) ∧
    ((w39_3_1.live = true) ∧ (nextScrub w39_3_1 = some 5) ∧ (w39_3_1.granule 5 = GranSt.scrub none) ∧ (∀ i, i < 19 →
    w39_3_1.rd (Reg.HIF_IVEC_VECTOR i) < 2048)) := by
  and_intros <;> decide +kernel

/-- Obligations.RegionsAndWindow: the hypotheses of each clause are met together. -/
theorem witness_RegionsAndWindow :
    ((rdy.hostOk Reg.MEM_CFG_SETREC_GIB.off = true) ∧ (usedAbove rdy (granAvailOf (rdy.rd Reg.ITN_CFG_SLOT_SIZE) 6) =
    false) ∧ (rdy.exp.inst = none) ∧ (rdy.exp.removing = none) ∧ (indexBytes rdy ≤ indexRoom 6)) ∧
    ((rdy.hostOk Reg.MEM_CFG_SETREC_GIB.off = true) ∧ (usedAbove rdy (granAvailOf (rdy.rd Reg.ITN_CFG_SLOT_SIZE) 1) =
    false) ∧ (rdy.exp.inst = none) ∧ (rdy.exp.removing = none) ∧ (indexBytes rdy ≤ indexRoom 1)) ∧
    (w40_2_1.hostOk Reg.XLT_INV_CMD_CONTEXT.off = true) ∧
    ((rdy.barOk = true) ∧ (rdy.flag Reg.XLT_BAR4_CTRL_ENABLE = false)) ∧
    ((w31_7_2.barOk = true) ∧ (w31_7_2.flag Reg.XLT_BAR4_CTRL_ENABLE = true) ∧ (w31_7_2.walks = []) ∧ (walk w31_7_2
    (w31_7_2.rd Reg.XLT_BAR4_CTRL_CONTEXT) (bar4Va w31_7_2 0) false = Xlt.no 1025)) ∧
    ((w4.barOk = true) ∧ (w4.flag Reg.XLT_BAR4_CTRL_ENABLE = true) ∧ (w4.walks = []) ∧ (w40_5_1_1.tier = 0) ∧ (walk
    w4 (w4.rd Reg.XLT_BAR4_CTRL_CONTEXT) (bar4Va w4 131072) false = Xlt.ok w40_5_1_1)) ∧
    ((w4.barOk = true) ∧ (w4.flag Reg.XLT_BAR4_CTRL_ENABLE = true) ∧ (w4.walks = []) ∧ (w4.mig = none) ∧
    (w4.holdRanges = []) ∧ (w40_5_1_1.tier = 0) ∧ (walk w4 (w4.rd Reg.XLT_BAR4_CTRL_CONTEXT) (bar4Va w4 131077) true
    = Xlt.ok w40_5_1_1)) := by
  and_intros <;> decide +kernel

/-- Obligations.Migration: the hypotheses of each clause are met together. -/
theorem witness_Migration :
    ((mg.hostOk Reg.MEM_MIG_CMD_CONTEXT.off = true) ∧ (mg.ready = true) ∧ (mg.mig = none) ∧ (0 < mg.rd
    Reg.MEM_MIG_PAGES_PAGES) ∧ (mg.rd Reg.MEM_MIG_PAGES_PAGES ≤ 2 ^ 20) ∧ (mg.rd Reg.MEM_MIG_VA < 2 ^ 52) ∧ (mg.rd
    Reg.MEM_MIG_DST < 2 ^ 52) ∧ (walk mg 1 (mg.rd Reg.MEM_MIG_VA) false = Xlt.ok lf) ∧ (migPages mg 1 (mg.rd
    Reg.MEM_MIG_VA) lf.size (mg.rd Reg.MEM_MIG_PAGES_PAGES) = true) ∧ (mg.rd Reg.MEM_MIG_VA % lf.size = 0) ∧ (mg.rd
    Reg.MEM_MIG_DST % lf.size = 0) ∧ (mg.rd Reg.MEM_MIG_DST + mg.rd Reg.MEM_MIG_PAGES_PAGES * lf.size ≤ 2 ^ 52) ∧
    (ownsRange mg 1 (mg.rd Reg.MEM_MIG_DST) (mg.rd Reg.MEM_MIG_PAGES_PAGES * lf.size) = true)) ∧
    ((mg.hostOk Reg.MEM_MIG_CMD_CONTEXT.off = true) ∧ (mg.ready = true) ∧ (mg.mig.isSome = true ∨ 1 = 1 ∨ 1 = 3)) ∧
    ((mg.hostOk Reg.MEM_MIG_CMD_CONTEXT.off = true) ∧ (mg.ready = true) ∧ (mg.mig.isSome = true ∨ 3 = 1 ∨ 3 = 3)) ∧
    ((w41_3_2.live = true) ∧ (w41_3_2.mig = some mm) ∧ (mm.page = none) ∧ (walk w41_3_2 mm.ctx mm.va false = Xlt.ok
    lf) ∧ (migSkips w41_3_2 mm.ctx lf = false)) ∧
    ((w41_4_3.live = true) ∧ (w41_4_3.mig = some w41_4_1) ∧ (w41_4_1.page = some lf) ∧ (migSkips w41_4_3 w41_4_1.ctx
    lf = true)) ∧
    ((w41_3_2.hostOk Reg.MEM_MIG_CMD_CONTEXT.off = true) ∧ (w41_3_2.mig = some mm) ∧ (mm.page = none)) ∧
    ((w41_6_2_2.hostOk Reg.MEM_MIG_CMD_CONTEXT.off = true) ∧ (w41_6_2_2.mig = some w41_4_1) ∧ (w41_4_1.page ≠ none)) ∧
    ((∀ i, i < 19 → w41_6_2_2.rd (Reg.HIF_IVEC_VECTOR i) < 2048) ∧ (w41_6_2_2.rd Reg.KPR_TRACE_MASK = 0)) ∧
    ((m4.live = true) ∧ (m4.mig = some mms) ∧ (mms.page = some lfs) ∧ (migSkips m4 mms.ctx lfs = false) ∧
    (mms.dstTier = 0) ∧ (m4.chip.d3hot = false ∨ lfs.tier ≠ 2) ∧ (u4 m4 = agentWrite (countCorr m4 1) mms.dst
    (leafRead m4 lfs 0 lfs.size w5_1_1)) ∧ (keeperBook (u4 m4) (checkLines lfs.entPa (leBytes 8 lfs.raw) ++
    writeLines lfs.entPa (leBytes 8 (movedEntry lfs.raw 0 mms.dst))) [] = (0, v4 m4))) ∧
    ((m4.live = true) ∧ (m4.mig = some mms) ∧ (mms.page = some lfs) ∧ (migSkips m4 mms.ctx lfs = false) ∧
    (mms.dstTier = 0)) ∧
    ((w41_5_3_2.live = true) ∧ (w41_5_3_2.mig = some mmh) ∧ (mmh.page = some lfh) ∧ (migSkips w41_5_3_2 mmh.ctx lfh =
    false) ∧ (mmh.dstTier = 0) ∧ (w41_5_3_2.chip.d3hot = true) ∧ (lfh.tier = 2)) ∧
    ((m4.live = true) ∧ (m4.mig = some mms) ∧ (mms.page = some lfs) ∧ (migSkips m4 mms.ctx lfs = false) ∧
    (mms.dstTier = 0) ∧ (m4.chip.d3hot = false ∨ lfs.tier ≠ 2)) := by
  and_intros <;> decide +kernel

/-- Obligations.FillWritesPattern: the hypotheses of the statement are met together. -/
theorem witness_FillWritesPattern :
    (ch.live = true) ∧ (ch.chip.d3hot = false) ∧ (chRuns ch 7 = true) ∧ (ch.rd (Reg.MEM_CH_STATUS_BUSY 7) = 0) ∧ (0 <
    chWaiting ch 7) ∧ (chWaiting ch 7 ≤ chSize ch 7) ∧ (cd.length = 64) ∧ (w42_1 = parseCopy cd) ∧ (copyBad ch w42_1
    = false) ∧ (w42_1.op = 1) ∧ (w42_1.dstKind = 2) ∧ (w42_1.flags = 0) ∧ (ch.mig = none) ∧ (ch.holdRanges = []) ∧
    (chHeld ch 7 = false) ∧ (∀ (i : Nat), i < w42_1.len → owns ch w42_1.context (w42_1.dst + i) = true) := by decide +kernel

/-- Obligations.CopyChannels: the hypotheses of each clause are met together. -/
theorem witness_CopyChannels :
    ((ch.hostOk (Reg.MEM_CH_PROD_PROD 7).off = true) ∧ (chSize ch 7 < chWaiting (ch.wr (Reg.MEM_CH_PROD_PROD 7) 17)
    7) ∧ (chRuns ch 7 = true)) ∧
    ((ch.hostOk (Reg.MEM_CH_PROD_PROD 7).off = true) ∧ (chWaiting (ch.wr (Reg.MEM_CH_PROD_PROD 7) 16) 7 ≤ chSize ch
    7)) ∧
    ((ch.live = true) ∧ (ch.chip.d3hot = false) ∧ (chRuns ch 7 = true) ∧ (ch.rd (Reg.MEM_CH_STATUS_BUSY 7) = 0) ∧ (0
    < chWaiting ch 7) ∧ (chWaiting ch 7 ≤ chSize ch 7) ∧ (w5_1_1.length < 64)) ∧
    ((ch.live = true) ∧ (ch.chip.d3hot = false) ∧ (chRuns ch 7 = true) ∧ (ch.rd (Reg.MEM_CH_STATUS_BUSY 7) = 0) ∧ (0
    < chWaiting ch 7) ∧ (chWaiting ch 7 ≤ chSize ch 7) ∧ (64 ≤ w43_2_2_2.length) ∧ (copyBad ch (parseCopy w43_2_2_2)
    = true) ∧ (((countCorr ch 1).setChan 7 (some (parseCopy (List.replicate 64 0)))).wrs [(Reg.MEM_CH_TAG 7,
    (parseCopy (List.replicate 64 0)).tag), (Reg.MEM_CH_STATUS_HALTED 7, 0), (Reg.MEM_CH_STATUS_CODE 7, 0)] =
    ((countCorr ch 1).setChan 7 (some (parseCopy w43_2_2_2))).wrs [(Reg.MEM_CH_TAG 7, (parseCopy w43_2_2_2).tag),
    (Reg.MEM_CH_STATUS_HALTED 7, 0), (Reg.MEM_CH_STATUS_CODE 7, 0)])) ∧
    ((2 ^ 32 - 1 < 2 ^ 32) ∧ (∀ i, i < 19 → ch.rd (Reg.HIF_IVEC_VECTOR i) < 2048)) ∧
    ((chh.hostOk (Reg.MEM_CH_CTRL_RESUME 7).off = true) ∧ (chh.rd (Reg.MEM_CH_STATUS_HALTED 7) = 1) ∧ (chh.chan 7 =
    some w42_1)) ∧
    ((chh.hostOk (Reg.MEM_CH_CTRL_SKIP 7).off = true) ∧ (chh.rd (Reg.MEM_CH_STATUS_HALTED 7) = 1)) ∧
    ((chh.hostOk (Reg.MEM_CH_CFG_ENABLE 7).off = true) ∧ (chWaiting chh 7 = 0 ∨ chh.rd (Reg.MEM_CH_STATUS_HALTED 7) =
    1)) ∧
    ((w43_6_2.hostOk (Reg.MEM_CH_CFG_ENABLE 7).off = true) ∧ (chWaiting w43_6_2 7 = 0 ∨ w43_6_2.rd
    (Reg.MEM_CH_STATUS_HALTED 7) = 1)) := by
  and_intros <;> decide +kernel

/-- Obligations.SequenceLife: the hypotheses of each clause are met together. -/
theorem witness_SequenceLife :
    ((w44_1_1.live = true) ∧ (w44_1_1.op 4 = some ga) ∧ (ga.seqPa = some 262144) ∧ (bookOf w44_1_1 ga.ctx = some bo)
    ∧ (ga.phase = OpPhase.attaching) ∧ ((runPart w44_1_1 ga.ctx).isSome = true) ∧ ((attachFrom ga bo (geo w44_1_1
    ga.ctx) (w44_1_1.mnat 262144 8) ga.attach 0 (rootKey w44_1_1 ga.ctx) w44_1_1).1 = Work.done ∧ (attachFrom ga bo
    (geo w44_1_1 ga.ctx) (w44_1_1.mnat 262144 8) ga.attach 0 (rootKey w44_1_1 ga.ctx) w44_1_1).2.1 = 0)) ∧
    ((w44_1_1.live = true) ∧ (w44_1_1.op 4 = some ga) ∧ (ga.phase = OpPhase.attaching)) ∧
    ((sn.live = true) ∧ (sn.op 4 = some w44_2_2_1) ∧ (w44_2_2_1.copyBlock.isSome = true)) ∧
    ((sn.live = true) ∧ (sn.op 4 = some w44_2_2_1) ∧ (w44_2_2_1.seqPa = some 262144) ∧ (w44_2_2_1.copyBlock = some 0)
    ∧ ((runPart sn w44_2_2_1.ctx).isSome = true) ∧ (copyShared sn w44_2_2_1.ctx 262144 0 w44_2_2_1.copied =
    (Work.done, 0, w44_3_3))) ∧
    ((w44_4_1_2.live = true) ∧ (List.find? (fun y => y.ctx == 1 && y.seqIndex == 0 && !y.held) w44_4_1_2.releases =
    some rx) ∧ (w21_2_1_1 = List.filter (fun va => decide (va < w44_4_1_2.mnat rx.seqPa 8 + w44_4_1_2.mnat (rx.seqPa
    + 24) 4 * rx.tokblk * 65536) || (rangeEntry w44_4_1_2 rx.ctx va).isLeft) (pagesDown (w44_4_1_2.mnat rx.seqPa 8)
    rx.tokblk (minNat (maxNat (w44_4_1_2.mnat (rx.seqPa + 24) 4 + 1) rx.mapped) rx.maxBlocks))) ∧ ((freePages rx.ctx
    w21_2_1_1 w44_4_1_2).1 = Work.done)) ∧
    ((s42.live = true) ∧ (List.find? (fun y => y.ctx == 1 && y.seqIndex == 0 && !y.held) s42.releases = some rx2) ∧
    (w21_2_1_1 = List.filter (fun va => decide (va < s42.mnat rx2.seqPa 8 + s42.mnat (rx2.seqPa + 24) 4 * rx2.tokblk
    * 65536) || (rangeEntry s42 rx2.ctx va).isLeft) (pagesDown (s42.mnat rx2.seqPa 8) rx2.tokblk (minNat (maxNat
    (s42.mnat (rx2.seqPa + 24) 4 + 1) rx2.mapped) rx2.maxBlocks))) ∧ ((freePages rx2.ctx w21_2_1_1 s42).1 =
    Work.done)) ∧
    ((s43.live = true) ∧ (List.find? (fun y => y.ctx == 1 && y.seqIndex == 0 && !y.held) s43.releases = some rx2) ∧
    (w44_4_2_1 = List.filter (fun va => decide (va < s43.mnat rx2.seqPa 8 + s43.mnat (rx2.seqPa + 24) 4 * rx2.tokblk
    * 65536) || (rangeEntry s43 rx2.ctx va).isLeft) (pagesDown (s43.mnat rx2.seqPa 8) rx2.tokblk (minNat (maxNat
    (s43.mnat (rx2.seqPa + 24) 4 + 1) rx2.mapped) rx2.maxBlocks))) ∧ ((freePages rx2.ctx w44_4_2_1 s43).1 = Work.fail
    1025)) ∧
    ((s43.live = true) ∧ (List.find? (fun y => y.ctx == 1 && y.seqIndex == 0 && !y.held) s43.releases = some rx2) ∧
    (w44_4_2_1 = List.filter (fun va => decide (va < s43.mnat rx2.seqPa 8 + s43.mnat (rx2.seqPa + 24) 4 * rx2.tokblk
    * 65536) || (rangeEntry s43 rx2.ctx va).isLeft) (pagesDown (s43.mnat rx2.seqPa 8) rx2.tokblk (minNat (maxNat
    (s43.mnat (rx2.seqPa + 24) 4 + 1) rx2.mapped) rx2.maxBlocks)))) ∧
    ((w44_5_2.live = true) ∧ (List.filter (fun y => y.ctx == 1 && y.held) w44_5_2.releases = [w44_5_1])) ∧
    ((262208 % 64 = 0) ∧ (w44_6_1.holdRanges = []) ∧ (w44_6_1.mig = none)) ∧
    ((262208 % 64 = 0) ∧ (w44_7_2.holdRanges = []) ∧ (w44_7_2.mig = none)) := by
  and_intros <;> decide +kernel

/-- Obligations.GuestBook: the hypotheses of each clause are met together. -/
theorem witness_GuestBook :
    ((1 = gs.rd Reg.SRV_GB_SEL_CONTEXT) ∧ (gs.hostOk Reg.SRV_GB_CMD_OP.off = true) ∧ (gs.ready = true) ∧ (bookOf gs 1
    = some bo) ∧ (registered gs 1 = true)) ∧
    ((1 = gs.rd Reg.SRV_GB_SEL_CONTEXT) ∧ (gs.hostOk Reg.SRV_GB_CMD_OP.off = true) ∧ (gs.ready = true) ∧
    (Instr.gbOpRefused = Instr.gbOpRefused ∨ (Instr.gbOpRefused = Instr.gbFlush ∨ Instr.gbOpRefused = Instr.gbEnable
    ∨ Instr.gbOpRefused = Instr.gbDisable) ∧ bookOf gs 1 = none)) ∧
    ((4095 = w45_2_2.rd Reg.SRV_GB_SEL_CONTEXT) ∧ (w45_2_2.hostOk Reg.SRV_GB_CMD_OP.off = true) ∧ (w45_2_2.ready =
    true) ∧ (Instr.gbFlush = Instr.gbOpRefused ∨ (Instr.gbFlush = Instr.gbFlush ∨ Instr.gbFlush = Instr.gbEnable ∨
    Instr.gbFlush = Instr.gbDisable) ∧ bookOf w45_2_2 4095 = none)) ∧
    ((0 = rdy.rd Reg.SRV_GB_SEL_CONTEXT) ∧ (rdy.hostOk Reg.SRV_GB_CMD_OP.off = true) ∧ (rdy.ready = true) ∧
    (Instr.gbEnable = Instr.gbOpRefused ∨ (Instr.gbEnable = Instr.gbFlush ∨ Instr.gbEnable = Instr.gbEnable ∨
    Instr.gbEnable = Instr.gbDisable) ∧ bookOf rdy 0 = none)) ∧
    ((0 = rdy.rd Reg.SRV_GB_SEL_CONTEXT) ∧ (rdy.hostOk Reg.SRV_GB_CMD_OP.off = true) ∧ (rdy.ready = true) ∧
    (Instr.gbDisable = Instr.gbOpRefused ∨ (Instr.gbDisable = Instr.gbFlush ∨ Instr.gbDisable = Instr.gbEnable ∨
    Instr.gbDisable = Instr.gbDisable) ∧ bookOf rdy 0 = none)) ∧
    ((w45_3_1_1.live = true) ∧ (w45_3_1_1.op 4 = some gp) ∧ (gp.publish = some 0) ∧ (gp.seqPa = some 262144) ∧ (0 <
    promptBlocks gp) ∧ (64 * (0 + 1) ≤ gp.length) ∧ (gbEnabled w45_3_1_1 gp.ctx = true) ∧ ((runPart w45_3_1_1
    gp.ctx).isSome = true) ∧ (0 < w45_3_1_1.mnat (262144 + 22) 2)) ∧
    ((w45_3_2_1.live = true) ∧ (w45_3_2_1.op 4 = some gp) ∧ (gp.publish = some 0) ∧ (gp.seqPa = some 262144) ∧ (0 <
    promptBlocks gp) ∧ (64 * (0 + 1) ≤ gp.length) ∧ (gbEnabled w45_3_2_1 gp.ctx = true) ∧ ((runPart w45_3_2_1
    gp.ctx).isSome = true) ∧ (w45_3_2_1.mnat (262144 + 22) 2 ≤ 0)) ∧
    ((rdy.live = true) ∧ (bookOf rdy 1 = none)) ∧
    ((gev.live = true) ∧ (bookOf gev 1 = some bo) ∧ (List.find? (fun i => (readHead gev 1 bo i).state == 3)
    (List.range bo.e) = some 0)) ∧
    ((sq.live = true) ∧ (bookOf sq 1 = some bo) ∧ (List.find? (fun i => (readHead sq 1 bo i).state == 3) (List.range
    bo.e) = none) ∧ (sq.rd (Reg.SRV_GB_CFG_MAX_FRAMES 1) = 0 ∨ gbHeld sq 1 ≤ sq.rd (Reg.SRV_GB_CFG_MAX_FRAMES 1))) ∧
    ((gh.live = true) ∧ (bookOf gh 1 = some bo) ∧ (List.find? (fun i => (readHead gh 1 bo i).state == 3) (List.range
    bo.e) = none) ∧ (0 < gh.rd (Reg.SRV_GB_CFG_MAX_FRAMES 1)) ∧ (gh.rd (Reg.SRV_GB_CFG_MAX_FRAMES 1) < gbHeld gh 1) ∧
    (oldestLeaf gh 1 bo (List.range bo.e) = some 0)) := by
  and_intros <;> decide +kernel

/-- Obligations.DeadlinesAndEval: the hypotheses of each clause are met together. -/
theorem witness_DeadlinesAndEval :
    ((sq.live = true) ∧ (∀ (o : Operation), o ∈ sq.ops → o.alive = true → o.inStep = none → stopCodeAt o sq.timeKc =
    none)) ∧
    ((w46_2_2.live = true) ∧ ((w46_2_2.part 0).busy = true) ∧ ((w46_2_2.part 1).busy = false) ∧ (w46_2_2.ops =
    [w46_2_1]) ∧ (w46_2_1.ctx = (w46_2_2.part 0).ctx) ∧ (w46_2_1.alive = true) ∧ (w46_2_1.inStep = none) ∧
    (w46_2_1.stop = none) ∧ (0 < w46_2_1.desc.deadlineUs) ∧ (w46_2_1.ringKc + w46_2_1.desc.deadlineUs * 375 ≤
    w46_2_2.timeKc)) ∧
    ((w46_3_1_1.hostOk Reg.SRV_EVAL_CTRL_GO.off = true) ∧ (w46_3_1_1.ready = true) ∧ (180 = w46_3_1_1.rd
    Reg.SRV_EVAL_CTRL_CAP_W) ∧ (0 = w46_3_1_1.rd Reg.SRV_EVAL_CTRL_PART) ∧ (180 ≤ w46_3_1_1.rd
    Reg.SRM_LIMITS0_CEIL_W) ∧ (capDivOf w46_3_1_1 (evalMasks w46_3_1_1) 0 180 < 256)) ∧
    ((w46_3_2_1.hostOk Reg.SRV_EVAL_CTRL_GO.off = true) ∧ (w46_3_2_1.ready = true) ∧ (89 = w46_3_2_1.rd
    Reg.SRV_EVAL_CTRL_CAP_W) ∧ (0 = w46_3_2_1.rd Reg.SRV_EVAL_CTRL_PART) ∧ (89 < 90 ∨ w46_3_2_1.rd
    Reg.SRM_LIMITS0_CEIL_W < 89)) ∧
    ((w46_3_2_2.hostOk Reg.SRV_EVAL_CTRL_GO.off = true) ∧ (w46_3_2_2.ready = true) ∧ (255 = w46_3_2_2.rd
    Reg.SRV_EVAL_CTRL_CAP_W) ∧ (0 = w46_3_2_2.rd Reg.SRV_EVAL_CTRL_PART) ∧ (255 < 90 ∨ w46_3_2_2.rd
    Reg.SRM_LIMITS0_CEIL_W < 255)) := by
  and_intros <;> decide +kernel

/-- Obligations.CapWrites: the hypotheses of each clause are met together. -/
theorem witness_CapWrites :
    ((rdy.hostOk Reg.PWR_CAP_CTRL_CAP_W.off = true) ∧ (90 ≤ rdy.rd Reg.SRM_LIMITS0_CEIL_W) ∧ (rdy.rd
    Reg.SRM_LIMITS0_CEIL_W < 256) ∧ (90 = if 0 < 90 then 90 else if rdy.rd Reg.SRM_LIMITS0_CEIL_W < 0 then rdy.rd
    Reg.SRM_LIMITS0_CEIL_W else 0) ∧ (∀ (p : Nat), p < 2 → (rdy.part p).busy = true → capDivOf rdy (mapMasks rdy) p
    90 ≤ (rdy.part p).divLimit)) ∧
    ((rdy.hostOk Reg.PWR_CAP_CTRL_CAP_W.off = true) ∧ (90 ≤ rdy.rd Reg.SRM_LIMITS0_CEIL_W) ∧ (rdy.rd
    Reg.SRM_LIMITS0_CEIL_W < 256) ∧ (120 = if 120 < 90 then 90 else if rdy.rd Reg.SRM_LIMITS0_CEIL_W < 120 then
    rdy.rd Reg.SRM_LIMITS0_CEIL_W else 120) ∧ (∀ (p : Nat), p < 2 → (rdy.part p).busy = true → capDivOf rdy (mapMasks
    rdy) p 120 ≤ (rdy.part p).divLimit)) ∧
    ((w47_1_2_1.hostOk Reg.PWR_CAP_CTRL_CAP_W.off = true) ∧ (90 ≤ w47_1_2_1.rd Reg.SRM_LIMITS0_CEIL_W) ∧
    (w47_1_2_1.rd Reg.SRM_LIMITS0_CEIL_W < 256) ∧ (90 = if 90 < 90 then 90 else if w47_1_2_1.rd
    Reg.SRM_LIMITS0_CEIL_W < 90 then w47_1_2_1.rd Reg.SRM_LIMITS0_CEIL_W else 90) ∧ ((w47_1_2_1.part 0).busy = true)
    ∧ ((w47_1_2_1.part 0).divLimit < capDivOf w47_1_2_1 (mapMasks w47_1_2_1) 0 90) ∧ (∀ i, i < 19 → w47_1_2_1.rd
    (Reg.HIF_IVEC_VECTOR i) < 2048)) ∧
    ((rdy.live = true) ∧ (rdy.ready = true) ∧ (rdy.flag Reg.PWR_STATUS_BRAKE_IN = false) ∧ (rdy.rd
    Reg.PWR_CAP_CTRL_CAP_W ≤ rdy.rd Reg.SRM_LIMITS0_CEIL_W) ∧ (∀ i, i < 19 → rdy.rd (Reg.HIF_IVEC_VECTOR i) < 2048)) ∧
    ((sq.live = true) ∧ (sq.ready = true) ∧ (sq.flag Reg.PWR_STATUS_BRAKE_IN = false) ∧ (sq.rd Reg.PWR_CAP_CTRL_CAP_W
    ≤ sq.rd Reg.SRM_LIMITS0_CEIL_W) ∧ (∀ i, i < 19 → sq.rd (Reg.HIF_IVEC_VECTOR i) < 2048)) ∧
    ((rdy.hostOk Reg.PWR_CAP_CTRL_CAP_W.off = true) ∧ (90 ≤ rdy.rd Reg.SRM_LIMITS0_CEIL_W) ∧ (rdy.rd
    Reg.SRM_LIMITS0_CEIL_W < 256) ∧ (220 = if 255 < 90 then 90 else if rdy.rd Reg.SRM_LIMITS0_CEIL_W < 255 then
    rdy.rd Reg.SRM_LIMITS0_CEIL_W else 255) ∧ (∀ (p : Nat), p < 2 → (rdy.part p).busy = true → capDivOf rdy (mapMasks
    rdy) p 220 ≤ (rdy.part p).divLimit)) ∧
    ((w47_1_1_4.hostOk Reg.PWR_CAP_CTRL_CAP_W.off = true) ∧ (90 ≤ w47_1_1_4.rd Reg.SRM_LIMITS0_CEIL_W) ∧
    (w47_1_1_4.rd Reg.SRM_LIMITS0_CEIL_W < 256) ∧ (220 = if 255 < 90 then 90 else if w47_1_1_4.rd
    Reg.SRM_LIMITS0_CEIL_W < 255 then w47_1_1_4.rd Reg.SRM_LIMITS0_CEIL_W else 255) ∧ (∀ (p : Nat), p < 2 →
    (w47_1_1_4.part p).busy = true → capDivOf w47_1_1_4 (mapMasks w47_1_1_4) p 220 ≤ (w47_1_1_4.part p).divLimit)) := by
  and_intros <;> decide +kernel

/-- Obligations.DividersAndAgeing: the hypotheses of each clause are met together. -/
theorem witness_DividersAndAgeing :
    ((pd.live = true) ∧ ((pd.part 0).busy = true) ∧ (divOf pd 0 < target pd 0)) ∧
    ((pd.live = true) ∧ ((pd.part 1).busy = false)) ∧
    ((pd2.live = true) ∧ (pd2.pwr.wait 0 = some 5) ∧ ((pd2.part 0).busy = true) ∧ (target pd2 0 ≤ 5) ∧ (5 < divOf pd2
    0)) ∧
    ((pd2.live = true) ∧ (pd2.pwr.wait 1 = none)) ∧
    (pd.rd Reg.KPR_TRACE_MASK = 0) ∧
    (pd.hostOk (Reg.PWR_P_DIV_FORCE_DIV 1).off = true) ∧
    (pd.hostOk (Reg.PWR_P_DIV_FORCE_DIV 0).off = true) ∧
    ((ts.live = true) ∧ (ts.ready = true)) ∧
    ((tileStarted w48_6_1 31 = true) ∧ (w48_6_1.rd (Reg.PWR_TILE_MAXDIV 31) < 12) ∧ (SMap.get (fun x => 0)
    w48_6_1.pwr.lowMargin 31 = 59)) ∧
    ((up.live = true) ∧ (up.ready = false)) := by
  and_intros <;> decide +kernel

/-- Obligations.ThrottleAndTrip: the hypotheses of each clause are met together. -/
theorem witness_ThrottleAndTrip :
    ((up.live = true) ∧ (up.pwr.curOn = false)) ∧
    ((w49_1_2_1.live = true) ∧ (w49_1_2_1.pwr.curOn = true)) ∧
    (pd.live = true) ∧
    ((w49_1_4_1.live = true) ∧ (stepActive w49_1_4_1 1 = true)) ∧
    ((pd.live = true) ∧ (stepActive pd 5 = false)) ∧
    ((pd.live = true) ∧ (pd.ready = true) ∧ (pd.pwr.railOut = false)) ∧
    (w49_2_1.pwr.thermHw = true ∨ w49_2_1.flag Reg.PWR_STATUS_BRAKE_IN = true ∨ w49_2_1.pwr.railOut = true) ∧
    (w49_2_2.pwr.thermHw = true ∨ w49_2_2.flag Reg.PWR_STATUS_BRAKE_IN = true ∨ w49_2_2.pwr.railOut = true) ∧
    (w49_2_3.pwr.thermHw = true ∨ w49_2_3.flag Reg.PWR_STATUS_BRAKE_IN = true ∨ w49_2_3.pwr.railOut = true) ∧
    ((pd.live = true) ∧ (31 ≠ 32) ∧ (droopHits pd 31 0 = false) ∧ (droopHits pd 31 1 = false)) ∧
    ((pd.live = true) ∧ (droopHits pd 0 0 = true) ∧ (droopHits pd 0 1 = false)) ∧
    ((pd.live = true) ∧ (droopHits pd 32 0 = true) ∧ (droopHits pd 32 1 = false)) ∧
    ((w49_4_3_1.live = true) ∧ (w49_4_3_1.pwr.droops = [0]) ∧ (w49_4_3_1.part0.stall.droop = true) ∧
    (w49_4_3_1.part0.urgent = false) ∧ (w49_4_3_1.part1.stall.droop = false)) ∧
    ((pd.live = true) ∧ (pd.chip.ioUp = true)) ∧
    ((w49_5_3_1.live = true) ∧ (w49_5_3_1.chip.ioUp = true)) ∧
    ((w49_2_3.live = true) ∧ (w49_2_3.chip.ioUp = true) ∧ (w49_2_3.flag Reg.PWR_STATUS_BRAKE_IN = true) ∧
    (w49_2_3.pwr.brakeStuck = false) ∧ (∀ i, i < 19 → w49_2_3.rd (Reg.HIF_IVEC_VECTOR i) < 2048)) ∧
    ((w49_5_5_1.live = true) ∧ (w49_5_5_1.chip.ioUp = true) ∧ (w49_5_5_1.pwr.brakeStuck = true)) ∧
    (pd.chip.coreUp = true) := by
  and_intros <;> decide +kernel

/-- Obligations.LinkVersion: the hypotheses of each clause are met together. -/
theorem witness_LinkVersion :
    ((w50_1_1_1.live = true) ∧ (w50_1_1_1.rd (Reg.CHN_P_STATUS_STATE 0) = 1) ∧ (1 ≠ 0) ∧ (LV = min (w50_1_1_1.rd
    Reg.CHN_LEVEL_LINK_VER) 255) ∧ (∀ i, i < 19 → w50_1_1_1.rd (Reg.HIF_IVEC_VECTOR i) < 2048) ∧ (max (w50_1_1_1.rd
    Reg.CHN_LEVEL_LINK_MIN) 0 ≤ LV)) ∧
    ((w50_1_1_2.live = true) ∧ (w50_1_1_2.rd (Reg.CHN_P_STATUS_STATE 1) = 1) ∧ (0 ≠ 1) ∧ (LV < 256) ∧ (LV = min
    (w50_1_1_2.rd Reg.CHN_LEVEL_LINK_VER) LV) ∧ (∀ i, i < 19 → w50_1_1_2.rd (Reg.HIF_IVEC_VECTOR i) < 2048) ∧ (max
    (w50_1_1_2.rd Reg.CHN_LEVEL_LINK_MIN) LV ≤ LV)) ∧
    ((w50_1_1_2.live = true) ∧ (w50_1_1_2.rd (Reg.CHN_P_STATUS_STATE 1) = 1) ∧ (0 ≠ 1) ∧ (LV < 256) ∧ (LV = min
    (w50_1_1_2.rd Reg.CHN_LEVEL_LINK_VER) LV) ∧ (∀ i, i < 19 → w50_1_1_2.rd (Reg.HIF_IVEC_VECTOR i) < 2048) ∧ (LV <
    max (w50_1_1_2.rd Reg.CHN_LEVEL_LINK_MIN) (LV + 1))) ∧
    ((w50_1_1_1.live = true) ∧ (w50_1_1_1.rd (Reg.CHN_P_STATUS_STATE 0) = 1) ∧ (7 ≠ 0) ∧ (0 = min (w50_1_1_1.rd
    Reg.CHN_LEVEL_LINK_VER) 0) ∧ (∀ i, i < 19 → w50_1_1_1.rd (Reg.HIF_IVEC_VECTOR i) < 2048) ∧ (0 < max (w50_1_1_1.rd
    Reg.CHN_LEVEL_LINK_MIN) 0)) ∧
    ((w50_1_3_1.live = true) ∧ (w50_1_3_1.rd (Reg.CHN_P_STATUS_STATE 0) = 1) ∧ (1 ≠ 0) ∧ (LV + 1 < 256) ∧ (LV = min
    (w50_1_3_1.rd Reg.CHN_LEVEL_LINK_VER) (LV + 1)) ∧ (∀ i, i < 19 → w50_1_3_1.rd (Reg.HIF_IVEC_VECTOR i) < 2048) ∧
    (LV + 1 ≤ LV + 1) ∧ (w50_1_3_1.rd Reg.CHN_LEVEL_LINK_MIN + 1 ≤ w50_1_3_1.rd Reg.CHN_LEVEL_LINK_VER) ∧ (LV + 1 ≤
    w50_1_3_1.rd Reg.CHN_LEVEL_LINK_VER + 1) ∧ (w50_1_3_1.rd Reg.CHN_LEVEL_LINK_VER ≤ LV + 1 + 1)) ∧
    (w50_2_1_1.rd (Reg.CHN_P_STATUS_STATE 1) = 3) := by
  and_intros <;> decide +kernel

/-- Obligations.PortsAndFlits: the hypotheses of each clause are met together. -/
theorem witness_PortsAndFlits :
    ((∀ i, i < 19 → rdy.rd (Reg.HIF_IVEC_VECTOR i) < 2048) ∧ (rdy.hostOk (Reg.CHN_P_CTRL_ENABLE 1).off = true) ∧
    (rdy.rd (Reg.CHN_P_STATUS_STATE 1) = 0)) ∧
    ((∀ i, i < 19 → w51_1_2_1.rd (Reg.HIF_IVEC_VECTOR i) < 2048) ∧ (w51_1_2_1.hostOk (Reg.CHN_P_CTRL_ENABLE 0).off =
    true) ∧ (w51_1_2_1.rd (Reg.CHN_P_CTRL_ENABLE 0) = 1)) ∧
    ((∀ i, i < 19 → w51_1_2_1.rd (Reg.HIF_IVEC_VECTOR i) < 2048) ∧ (w51_1_2_1.live = true) ∧ (w51_1_2_1.rd
    (Reg.CHN_P_STATUS_STATE 0) = 0) ∧ (w51_1_2_1.rd (Reg.CHN_P_CTRL_ENABLE 0) = 1)) ∧
    ((∀ i, i < 19 → rdy.rd (Reg.HIF_IVEC_VECTOR i) < 2048) ∧ (rdy.live = true)) ∧
    ((∀ i, i < 19 → w51_1_5_1.rd (Reg.HIF_IVEC_VECTOR i) < 2048) ∧ (w51_1_5_1.live = true) ∧ (w51_1_5_1.rd
    (Reg.CHN_P_STATUS_STATE 1) = 2) ∧ (16 ≤ (w51_1_5_1.port 1).replays)) ∧
    ((∀ i, i < 19 → w51_1_6_1.rd (Reg.HIF_IVEC_VECTOR i) < 2048) ∧ (w51_1_6_1.live = true) ∧ ((w51_1_6_1.port
    1).replays < 16)) ∧
    ((w51_2_1_1.live = true) ∧ (w51_2_1_1.rd (Reg.CHN_P_STATUS_STATE 1) = 2)) ∧
    ((w51_2_2_1.live = true) ∧ (w51_2_2_1.rd (Reg.CHN_P_STATUS_STATE 1) = 2) ∧ ((w51_2_2_1.port 1).unacked = [])) ∧
    ((w51_2_1_1.live = true) ∧ (w51_2_1_1.rd (Reg.CHN_P_STATUS_STATE 1) = 2) ∧ ((w51_2_1_1.port 1).unacked = f1 ::
    w51_2_3_2)) ∧
    (w51_3_1.live = true) ∧
    (w51_3_2.live = true) ∧
    ((w51_4_1_1.live = true) ∧ (w51_4_1_1.rd (Reg.CHN_P_STATUS_STATE 0) = 2)) ∧
    ((w51_4_1_1.live = true) ∧ (w51_4_1_1.rd (Reg.CHN_P_STATUS_STATE 0) = 2) ∧ (f1.kind = 1) ∧ (f1.seq =
    ((w51_4_1_1.port 0).rxSeq + 1) % 2 ^ 32) ∧ (f1.first = true) ∧ (f1.last = true) ∧ (f1.dst = 0)) ∧
    ((w51_4_2_3.live = true) ∧ (w51_4_2_3.rd (Reg.CHN_P_STATUS_STATE 1) = 2) ∧ (w51_4_2_2.kind = 1) ∧ (w51_4_2_2.seq
    = ((w51_4_2_3.port 1).rxSeq + 1) % 2 ^ 32) ∧ (w51_4_2_2.first = true) ∧ (w51_4_2_2.last = true) ∧ (w51_4_2_2.dst
    = 0)) ∧
    ((w51_2_2_1.live = true) ∧ (w51_2_2_1.rd (Reg.CHN_P_STATUS_STATE 1) = 2) ∧ (pickMsg w51_2_2_1 1 false = none)) ∧
    ((w51_5_2_1.live = true) ∧ (w51_5_2_1.rd (Reg.CHN_P_STATUS_STATE 1) = 2) ∧ (pickMsg w51_5_2_1 1 false = some mg1)
    ∧ ((w51_5_2_1.port 1).unacked.length < 256) ∧ (flitCount mg1 = 1) ∧ (nth (w51_5_2_1.port 1).sent mg1.vc = 0) ∧
    (mg1.vc < 4) ∧ ((w51_5_2_1.port 1).credits.length = 4)) := by
  and_intros <;> decide +kernel

/-- Obligations.RollCalls: the hypotheses of each clause are met together. -/
theorem witness_RollCalls :
    ((w52_1_1_1.hostOk Reg.CHN_ROLL_CMD_GO.off = true) ∧ (w52_1_1_1.ready = true) ∧ (w52_1_1_1.flag
    Reg.CHN_ROLL_STATUS_BUSY = true)) ∧
    ((w52_1_2_1.hostOk Reg.CHN_ROLL_CMD_GO.off = true) ∧ (w52_1_2_1.ready = true) ∧ (w52_1_2_1.flag
    Reg.CHN_ROLL_STATUS_BUSY = false) ∧ (w52_1_2_1.flag Reg.CHN_STATUS_HEAD_STRAP = false) ∧ (w52_1_2_1.rd
    (Reg.CHN_P_STATUS_STATE 0) = 2)) ∧
    ((w52_1_3_1.hostOk Reg.CHN_ROLL_CMD_GO.off = true) ∧ (w52_1_3_1.ready = true) ∧ (w52_1_3_1.flag
    Reg.CHN_ROLL_STATUS_BUSY = false) ∧ (w52_1_3_1.rd (Reg.CHN_P_STATUS_STATE 0) ≠ 2) ∧ (w52_1_3_1.rd
    (Reg.CHN_P_STATUS_STATE 1) ≠ 2) ∧ ((w52_1_3_1.span 0).running = false) ∧ ((w52_1_3_1.span 1).running = false) ∧
    (∀ i, i < 19 → w52_1_3_1.rd (Reg.HIF_IVEC_VECTOR i) < 2048) ∧ (w52_1_3_1.rd Reg.KPR_TRACE_MASK = 0)) ∧
    ((w52_2_1_2.live = true) ∧ (List.find? (fun x => x.msgType == 1) (w52_2_1_2.port 0).inbox = some w52_2_1_1) ∧
    (w52_2_1_2.flag Reg.CHN_ROLL_STATUS_BUSY = false) ∧ (w52_2_1_2.flag Reg.CHN_STATUS_HEAD_STRAP = false) ∧
    ((w52_2_1_2.updPort 0 fun x =>
    { txSeq := x.txSeq, rxSeq := x.rxSeq, unacked := x.unacked, replays := x.replays, queue := x.queue, sent := x.sent, credits := x.credits, freed := x.freed, parts := x.parts, inbox := dropFirst (m1 64) x.inbox, announce := x.announce })
    = w52_2_1_2.updPort 0 fun x =>
    { txSeq := x.txSeq, rxSeq := x.rxSeq, unacked := x.unacked, replays := x.replays, queue := x.queue, sent := x.sent, credits := x.credits, freed := x.freed, parts := x.parts, inbox := dropFirst w52_2_1_1 x.inbox, announce := x.announce })
    ∧ (64 ≤ (frameRecs w52_2_1_1.payload).length)) ∧
    ((w52_2_2_2.live = true) ∧ (List.find? (fun x => x.msgType == 1) (w52_2_2_2.port 0).inbox = some w52_2_2_1) ∧
    (w52_2_2_2.flag Reg.CHN_ROLL_STATUS_BUSY = false) ∧ (w52_2_2_2.flag Reg.CHN_STATUS_HEAD_STRAP = false) ∧
    ((w52_2_2_2.updPort 0 fun x =>
    { txSeq := x.txSeq, rxSeq := x.rxSeq, unacked := x.unacked, replays := x.replays, queue := x.queue, sent := x.sent, credits := x.credits, freed := x.freed, parts := x.parts, inbox := dropFirst (m1 2) x.inbox, announce := x.announce })
    = w52_2_2_2.updPort 0 fun x =>
    { txSeq := x.txSeq, rxSeq := x.rxSeq, unacked := x.unacked, replays := x.replays, queue := x.queue, sent := x.sent, credits := x.credits, freed := x.freed, parts := x.parts, inbox := dropFirst w52_2_2_1 x.inbox, announce := x.announce })
    ∧ ((frameRecs w52_2_2_1.payload).length < 64) ∧ (w52_2_2_2.rd (Reg.CHN_P_STATUS_STATE 1) ≠ 2) ∧ ((w52_2_2_2.span
    0).running = false) ∧ ((w52_2_2_2.span 1).running = false) ∧ (∀ i, i < 19 → w52_2_2_2.rd (Reg.HIF_IVEC_VECTOR i)
    < 2048)) ∧
    ((w52_2_2_4.live = true) ∧ (List.find? (fun x => x.msgType == 1) (w52_2_2_4.port 0).inbox = some w52_2_2_3) ∧
    (w52_2_2_4.flag Reg.CHN_ROLL_STATUS_BUSY = false) ∧ (w52_2_2_4.flag Reg.CHN_STATUS_HEAD_STRAP = false) ∧
    ((w52_2_2_4.updPort 0 fun x =>
    { txSeq := x.txSeq, rxSeq := x.rxSeq, unacked := x.unacked, replays := x.replays, queue := x.queue, sent := x.sent, credits := x.credits, freed := x.freed, parts := x.parts, inbox := dropFirst (m1 63) x.inbox, announce := x.announce })
    = w52_2_2_4.updPort 0 fun x =>
    { txSeq := x.txSeq, rxSeq := x.rxSeq, unacked := x.unacked, replays := x.replays, queue := x.queue, sent := x.sent, credits := x.credits, freed := x.freed, parts := x.parts, inbox := dropFirst w52_2_2_3 x.inbox, announce := x.announce })
    ∧ ((frameRecs w52_2_2_3.payload).length < 64) ∧ (w52_2_2_4.rd (Reg.CHN_P_STATUS_STATE 1) ≠ 2) ∧ ((w52_2_2_4.span
    0).running = false) ∧ ((w52_2_2_4.span 1).running = false) ∧ (∀ i, i < 19 → w52_2_2_4.rd (Reg.HIF_IVEC_VECTOR i)
    < 2048)) ∧
    ((w52_3_1_1.live = true) ∧ ((w52_3_1_1.updPort 1 fun x =>
    { txSeq := x.txSeq, rxSeq := x.rxSeq, unacked := x.unacked, replays := x.replays, queue := x.queue, sent := x.sent, credits := x.credits, freed := x.freed, parts := x.parts, inbox := dropFirst m2 x.inbox, announce := x.announce })
    = w52_3_1_1.updPort 1 fun x =>
    { txSeq := x.txSeq, rxSeq := x.rxSeq, unacked := x.unacked, replays := x.replays, queue := x.queue, sent := x.sent, credits := x.credits, freed := x.freed, parts := x.parts, inbox := dropFirst m2 x.inbox, announce := x.announce })
    ∧ (List.find? (fun x => x.msgType == 2) (w52_3_1_1.port 1).inbox = some m2) ∧ (recField m2.payload 8 8 ≠
    w52_3_1_1.chn.callId)) ∧
    ((w52_3_2_1.live = true) ∧ ((w52_3_2_1.updPort 1 fun x =>
    { txSeq := x.txSeq, rxSeq := x.rxSeq, unacked := x.unacked, replays := x.replays, queue := x.queue, sent := x.sent, credits := x.credits, freed := x.freed, parts := x.parts, inbox := dropFirst m2 x.inbox, announce := x.announce })
    = w52_3_2_1.updPort 1 fun x =>
    { txSeq := x.txSeq, rxSeq := x.rxSeq, unacked := x.unacked, replays := x.replays, queue := x.queue, sent := x.sent, credits := x.credits, freed := x.freed, parts := x.parts, inbox := dropFirst m2 x.inbox, announce := x.announce })
    ∧ (List.find? (fun x => x.msgType == 2) (w52_3_2_1.port 1).inbox = some m2) ∧ (recField m2.payload 8 8 =
    w52_3_2_1.chn.callId) ∧ (w52_3_2_1.flag Reg.CHN_ROLL_STATUS_BUSY = false) ∧ (recField m2.payload 6 1 = 0)) ∧
    ((w52_3_2_2.live = true) ∧ ((w52_3_2_2.updPort 0 fun x =>
    { txSeq := x.txSeq, rxSeq := x.rxSeq, unacked := x.unacked, replays := x.replays, queue := x.queue, sent := x.sent, credits := x.credits, freed := x.freed, parts := x.parts, inbox := dropFirst m2 x.inbox, announce := x.announce })
    = w52_3_2_2.updPort 0 fun x =>
    { txSeq := x.txSeq, rxSeq := x.rxSeq, unacked := x.unacked, replays := x.replays, queue := x.queue, sent := x.sent, credits := x.credits, freed := x.freed, parts := x.parts, inbox := dropFirst m2 x.inbox, announce := x.announce })
    ∧ (List.find? (fun x => x.msgType == 2) (w52_3_2_2.port 0).inbox = some m2) ∧ (recField m2.payload 8 8 =
    w52_3_2_2.chn.callId) ∧ (w52_3_2_2.flag Reg.CHN_ROLL_STATUS_BUSY = false) ∧ (recField m2.payload 6 1 = 0)) ∧
    ((w52_3_3_1.live = true) ∧ ((w52_3_3_1.updPort 0 fun x =>
    { txSeq := x.txSeq, rxSeq := x.rxSeq, unacked := x.unacked, replays := x.replays, queue := x.queue, sent := x.sent, credits := x.credits, freed := x.freed, parts := x.parts, inbox := dropFirst m3 x.inbox, announce := x.announce })
    = w52_3_3_1.updPort 0 fun x =>
    { txSeq := x.txSeq, rxSeq := x.rxSeq, unacked := x.unacked, replays := x.replays, queue := x.queue, sent := x.sent, credits := x.credits, freed := x.freed, parts := x.parts, inbox := dropFirst m3 x.inbox, announce := x.announce })
    ∧ (List.find? (fun x => x.msgType == 3) (w52_3_3_1.port 0).inbox = some m3) ∧ (w52_3_3_1.flag
    Reg.CHN_ROLL_STATUS_BUSY = true) ∧ (recField m3.payload 8 8 = w52_3_3_1.chn.callId)) ∧
    ((w52_3_4_1.live = true) ∧ ((w52_3_4_1.updPort 0 fun x =>
    { txSeq := x.txSeq, rxSeq := x.rxSeq, unacked := x.unacked, replays := x.replays, queue := x.queue, sent := x.sent, credits := x.credits, freed := x.freed, parts := x.parts, inbox := dropFirst m40 x.inbox, announce := x.announce })
    = w52_3_4_1.updPort 0 fun x =>
    { txSeq := x.txSeq, rxSeq := x.rxSeq, unacked := x.unacked, replays := x.replays, queue := x.queue, sent := x.sent, credits := x.credits, freed := x.freed, parts := x.parts, inbox := dropFirst m40 x.inbox, announce := x.announce })
    ∧ (List.find? (fun x => x.msgType == 4) (w52_3_4_1.port 0).inbox = some m40) ∧ (portUp w52_3_4_1 (1 - 0) = false)
    ∧ ((recordWords m40.payload).getD 0 0 % 256 = 0)) ∧
    ((w52_3_5_1.live = true) ∧ ((w52_3_5_1.updPort 1 fun x =>
    { txSeq := x.txSeq, rxSeq := x.rxSeq, unacked := x.unacked, replays := x.replays, queue := x.queue, sent := x.sent, credits := x.credits, freed := x.freed, parts := x.parts, inbox := dropFirst m41 x.inbox, announce := x.announce })
    = w52_3_5_1.updPort 1 fun x =>
    { txSeq := x.txSeq, rxSeq := x.rxSeq, unacked := x.unacked, replays := x.replays, queue := x.queue, sent := x.sent, credits := x.credits, freed := x.freed, parts := x.parts, inbox := dropFirst m41 x.inbox, announce := x.announce })
    ∧ (List.find? (fun x => x.msgType == 4) (w52_3_5_1.port 1).inbox = some m41) ∧ (portUp w52_3_5_1 (1 - 1) = false)
    ∧ (w52_3_5_3 = recordWords m41.payload) ∧ (2 = w52_3_5_3.getD 0 0 % 256) ∧ (2 ≠ 0) ∧ (rosterOf w52_3_5_1 2 = some
    w52_3_5_2) ∧ (w52_3_5_2.words.getD 3 0 = w52_3_5_3.getD 3 0) ∧ (w52_3_5_3.getD 0 0 / 65536 = w52_3_5_2.words.getD
    0 0 / 65536)) ∧
    ((w52_3_6_1.live = true) ∧ ((w52_3_6_1.updPort 1 fun x =>
    { txSeq := x.txSeq, rxSeq := x.rxSeq, unacked := x.unacked, replays := x.replays, queue := x.queue, sent := x.sent, credits := x.credits, freed := x.freed, parts := x.parts, inbox := dropFirst m99 x.inbox, announce := x.announce })
    = w52_3_6_1.updPort 1 fun x =>
    { txSeq := x.txSeq, rxSeq := x.rxSeq, unacked := x.unacked, replays := x.replays, queue := x.queue, sent := x.sent, credits := x.credits, freed := x.freed, parts := x.parts, inbox := dropFirst m99 x.inbox, announce := x.announce })
    ∧ (List.find? (fun x => !knownTypes.contains x.msgType) (w52_3_6_1.port 1).inbox = some m99)) ∧
    ((w52_1_1_1.live = true) ∧ (w52_1_1_1.flag Reg.CHN_ROLL_STATUS_BUSY = true)) ∧
    ((rdy.live = true) ∧ (rdy.flag Reg.CHN_ROLL_STATUS_BUSY = false)) ∧
    ((∀ i, i < 19 → rdy.rd (Reg.HIF_IVEC_VECTOR i) < 2048) ∧ (rdy.rd Reg.KPR_TRACE_MASK = 0)) := by
  and_intros <;> decide +kernel

/-- Obligations.ExportsAndSpans: the hypotheses of each clause are met together. -/
theorem witness_ExportsAndSpans :
    ((w53_1_1_1.hostOk Reg.CHN_EXP_SEL_ENTRY.off = true) ∧ (ee =
    { valid := w53_1_1_1.flag Reg.CHN_EXP_DATA0_VALID, w := w53_1_1_1.flag Reg.CHN_EXP_DATA0_W, reqRoom := w53_1_1_1.rd Reg.CHN_EXP_DATA0_REQ_ROOM, granule := w53_1_1_1.rd Reg.CHN_EXP_DATA0_GRANULE, context := w53_1_1_1.rd Reg.CHN_EXP_DATA1_CONTEXT })
    ∧ (owns w53_1_1_1 ee.context (ee.granule * 2 ^ 21) = true)) ∧
    ((w53_1_2_2.hostOk Reg.CHN_EXP_SEL_ENTRY.off = true) ∧ (w53_1_2_1 =
    { valid := w53_1_2_2.flag Reg.CHN_EXP_DATA0_VALID, w := w53_1_2_2.flag Reg.CHN_EXP_DATA0_W, reqRoom := w53_1_2_2.rd Reg.CHN_EXP_DATA0_REQ_ROOM, granule := w53_1_2_2.rd Reg.CHN_EXP_DATA0_GRANULE, context := w53_1_2_2.rd Reg.CHN_EXP_DATA1_CONTEXT })
    ∧ (owns w53_1_2_2 w53_1_2_1.context (w53_1_2_1.granule * 2 ^ 21) = false)) ∧
    ((w53_1_3_1.hostOk Reg.CHN_EXP_SEL_ENTRY.off = true) ∧ (ee =
    { valid := w53_1_3_1.flag Reg.CHN_EXP_DATA0_VALID, w := w53_1_3_1.flag Reg.CHN_EXP_DATA0_W, reqRoom := w53_1_3_1.rd Reg.CHN_EXP_DATA0_REQ_ROOM, granule := w53_1_3_1.rd Reg.CHN_EXP_DATA0_GRANULE, context := w53_1_3_1.rd Reg.CHN_EXP_DATA1_CONTEXT })) ∧
    ((w53_2_1_1_1.live = true) ∧ ((w53_2_1_1_1.updPort 1 fun x =>
    { txSeq := x.txSeq, rxSeq := x.rxSeq, unacked := x.unacked, replays := x.replays, queue := x.queue, sent := x.sent, credits := x.credits, freed := x.freed, parts := x.parts, inbox := dropFirst m10 x.inbox, announce := x.announce })
    = w53_2_1_1_1.updPort 1 fun x =>
    { txSeq := x.txSeq, rxSeq := x.rxSeq, unacked := x.unacked, replays := x.replays, queue := x.queue, sent := x.sent, credits := x.credits, freed := x.freed, parts := x.parts, inbox := dropFirst m10 x.inbox, announce := x.announce })
    ∧ (List.find? (fun x => x.msgType == 16) (w53_2_1_1_1.port 1).inbox = some m10) ∧ (exportRefuses w53_2_1_1_1 m10
    m10.bytes false = false)) ∧
    ((w53_2_1_2_1.live = true) ∧ ((w53_2_1_2_1.updPort 0 fun x =>
    { txSeq := x.txSeq, rxSeq := x.rxSeq, unacked := x.unacked, replays := x.replays, queue := x.queue, sent := x.sent, credits := x.credits, freed := x.freed, parts := x.parts, inbox := dropFirst m10b x.inbox, announce := x.announce })
    = w53_2_1_2_1.updPort 0 fun x =>
    { txSeq := x.txSeq, rxSeq := x.rxSeq, unacked := x.unacked, replays := x.replays, queue := x.queue, sent := x.sent, credits := x.credits, freed := x.freed, parts := x.parts, inbox := dropFirst m10b x.inbox, announce := x.announce })
    ∧ (List.find? (fun x => x.msgType == 16) (w53_2_1_2_1.port 0).inbox = some m10b) ∧ (exportRefuses w53_2_1_2_1
    m10b m10b.bytes false = true)) ∧
    ((w53_2_2_1_1.live = true) ∧ ((w53_2_2_1_1.updPort 1 fun x =>
    { txSeq := x.txSeq, rxSeq := x.rxSeq, unacked := x.unacked, replays := x.replays, queue := x.queue, sent := x.sent, credits := x.credits, freed := x.freed, parts := x.parts, inbox := dropFirst m11 x.inbox, announce := x.announce })
    = w53_2_2_1_1.updPort 1 fun x =>
    { txSeq := x.txSeq, rxSeq := x.rxSeq, unacked := x.unacked, replays := x.replays, queue := x.queue, sent := x.sent, credits := x.credits, freed := x.freed, parts := x.parts, inbox := dropFirst m11 x.inbox, announce := x.announce })
    ∧ (List.find? (fun x => x.msgType == 17) (w53_2_2_1_1.port 1).inbox = some m11) ∧ (exportRefuses w53_2_2_1_1 m11
    (64 * ceilDiv m11.payload.length 72) true = true) ∧ (SMap.get countBlank w53_2_2_1_1.chn.refusals m11.src = 0)) ∧
    ((w53_2_2_2_1.live = true) ∧ ((w53_2_2_2_1.updPort 1 fun x =>
    { txSeq := x.txSeq, rxSeq := x.rxSeq, unacked := x.unacked, replays := x.replays, queue := x.queue, sent := x.sent, credits := x.credits, freed := x.freed, parts := x.parts, inbox := dropFirst m11 x.inbox, announce := x.announce })
    = w53_2_2_2_1.updPort 1 fun x =>
    { txSeq := x.txSeq, rxSeq := x.rxSeq, unacked := x.unacked, replays := x.replays, queue := x.queue, sent := x.sent, credits := x.credits, freed := x.freed, parts := x.parts, inbox := dropFirst m11 x.inbox, announce := x.announce })
    ∧ (List.find? (fun x => x.msgType == 17) (w53_2_2_2_1.port 1).inbox = some m11) ∧ (exportRefuses w53_2_2_2_1 m11
    (64 * ceilDiv m11.payload.length 72) true = false)) ∧
    ((w53_2_3_1.live = true) ∧ ((w53_2_3_1.updPort 1 fun x =>
    { txSeq := x.txSeq, rxSeq := x.rxSeq, unacked := x.unacked, replays := x.replays, queue := x.queue, sent := x.sent, credits := x.credits, freed := x.freed, parts := x.parts, inbox := dropFirst m12 x.inbox, announce := x.announce })
    = w53_2_3_1.updPort 1 fun x =>
    { txSeq := x.txSeq, rxSeq := x.rxSeq, unacked := x.unacked, replays := x.replays, queue := x.queue, sent := x.sent, credits := x.credits, freed := x.freed, parts := x.parts, inbox := dropFirst m12 x.inbox, announce := x.announce })
    ∧ (List.find? (fun x => x.msgType == 18) (w53_2_3_1.port 1).inbox = some m12)) ∧
    ((w53_2_4_1.live = true) ∧ ((w53_2_4_1.updPort 1 fun x =>
    { txSeq := x.txSeq, rxSeq := x.rxSeq, unacked := x.unacked, replays := x.replays, queue := x.queue, sent := x.sent, credits := x.credits, freed := x.freed, parts := x.parts, inbox := dropFirst m18 x.inbox, announce := x.announce })
    = w53_2_4_1.updPort 1 fun x =>
    { txSeq := x.txSeq, rxSeq := x.rxSeq, unacked := x.unacked, replays := x.replays, queue := x.queue, sent := x.sent, credits := x.credits, freed := x.freed, parts := x.parts, inbox := dropFirst m18 x.inbox, announce := x.announce })
    ∧ (List.find? (fun x => x.msgType == 24) (w53_2_4_1.port 1).inbox = some m18)) ∧
    ((w53_2_5_1.live = true) ∧ ((w53_2_5_1.updPort 1 fun x =>
    { txSeq := x.txSeq, rxSeq := x.rxSeq, unacked := x.unacked, replays := x.replays, queue := x.queue, sent := x.sent, credits := x.credits, freed := x.freed, parts := x.parts, inbox := dropFirst m1a x.inbox, announce := x.announce })
    = w53_2_5_1.updPort 1 fun x =>
    { txSeq := x.txSeq, rxSeq := x.rxSeq, unacked := x.unacked, replays := x.replays, queue := x.queue, sent := x.sent, credits := x.credits, freed := x.freed, parts := x.parts, inbox := dropFirst m1a x.inbox, announce := x.announce })
    ∧ (List.find? (fun x => x.msgType == 26) (w53_2_5_1.port 1).inbox = some m1a) ∧ (m1a.addr % 65536 = 0) ∧ (3 =
    m1a.id) ∧ (w53_2_5_1.chn.fences = [(3, w53_2_5_2, w53_2_5_3)])) ∧
    ((w53_2_5_4.live = true) ∧ ((w53_2_5_4.updPort 1 fun x =>
    { txSeq := x.txSeq, rxSeq := x.rxSeq, unacked := x.unacked, replays := x.replays, queue := x.queue, sent := x.sent, credits := x.credits, freed := x.freed, parts := x.parts, inbox := dropFirst m1a x.inbox, announce := x.announce })
    = w53_2_5_4.updPort 1 fun x =>
    { txSeq := x.txSeq, rxSeq := x.rxSeq, unacked := x.unacked, replays := x.replays, queue := x.queue, sent := x.sent, credits := x.credits, freed := x.freed, parts := x.parts, inbox := dropFirst m1a x.inbox, announce := x.announce })
    ∧ (List.find? (fun x => x.msgType == 26) (w53_2_5_4.port 1).inbox = some m1a) ∧ (m1a.addr % 65536 = 0) ∧ (3 =
    m1a.id) ∧ (w53_2_5_4.chn.fences = [(3, w53_2_5_5, none)])) ∧
    ((w53_2_6_1.live = true) ∧ ((w53_2_6_1.updPort 1 fun x =>
    { txSeq := x.txSeq, rxSeq := x.rxSeq, unacked := x.unacked, replays := x.replays, queue := x.queue, sent := x.sent, credits := x.credits, freed := x.freed, parts := x.parts, inbox := dropFirst m21 x.inbox, announce := x.announce })
    = w53_2_6_1.updPort 1 fun x =>
    { txSeq := x.txSeq, rxSeq := x.rxSeq, unacked := x.unacked, replays := x.replays, queue := x.queue, sent := x.sent, credits := x.credits, freed := x.freed, parts := x.parts, inbox := dropFirst m21 x.inbox, announce := x.announce })
    ∧ (List.find? (fun x => x.msgType == 33) (w53_2_6_1.port 1).inbox = some m21) ∧ (w53_2_6_1.chn.span0.awaited =
    []) ∧ (w53_2_6_1.chn.span1.awaited = [])) ∧
    ((w53_2_7_1.live = true) ∧ ((w53_2_7_1.updPort 1 fun x =>
    { txSeq := x.txSeq, rxSeq := x.rxSeq, unacked := x.unacked, replays := x.replays, queue := x.queue, sent := x.sent, credits := x.credits, freed := x.freed, parts := x.parts, inbox := dropFirst m21 x.inbox, announce := x.announce })
    = w53_2_7_1.updPort 1 fun x =>
    { txSeq := x.txSeq, rxSeq := x.rxSeq, unacked := x.unacked, replays := x.replays, queue := x.queue, sent := x.sent, credits := x.credits, freed := x.freed, parts := x.parts, inbox := dropFirst m21 x.inbox, announce := x.announce })
    ∧ (List.find? (fun x => x.msgType == 33) (w53_2_7_1.port 1).inbox = some m21) ∧ (spanHead w53_2_7_1 0 = true) ∧
    (w53_2_7_1.chn.span0.awaited = [(m21.addr, w53_2_5_2)])) ∧
    ((w53_2_8_1.live = true) ∧ ((w53_2_8_1.updPort 1 fun x =>
    { txSeq := x.txSeq, rxSeq := x.rxSeq, unacked := x.unacked, replays := x.replays, queue := x.queue, sent := x.sent, credits := x.credits, freed := x.freed, parts := x.parts, inbox := dropFirst m22 x.inbox, announce := x.announce })
    = w53_2_8_1.updPort 1 fun x =>
    { txSeq := x.txSeq, rxSeq := x.rxSeq, unacked := x.unacked, replays := x.replays, queue := x.queue, sent := x.sent, credits := x.credits, freed := x.freed, parts := x.parts, inbox := dropFirst m22 x.inbox, announce := x.announce })
    ∧ (List.find? (fun x => x.msgType == 34) (w53_2_8_1.port 1).inbox = some m22) ∧ (∀ (o : Operation), o ∈
    w53_2_8_1.ops → o.standIn = false)) ∧
    ((w53_2_9_1.live = true) ∧ ((w53_2_9_1.updPort 1 fun x =>
    { txSeq := x.txSeq, rxSeq := x.rxSeq, unacked := x.unacked, replays := x.replays, queue := x.queue, sent := x.sent, credits := x.credits, freed := x.freed, parts := x.parts, inbox := dropFirst m22 x.inbox, announce := x.announce })
    = w53_2_9_1.updPort 1 fun x =>
    { txSeq := x.txSeq, rxSeq := x.rxSeq, unacked := x.unacked, replays := x.replays, queue := x.queue, sent := x.sent, credits := x.credits, freed := x.freed, parts := x.parts, inbox := dropFirst m22 x.inbox, announce := x.announce })
    ∧ (List.find? (fun x => x.msgType == 34) (w53_2_9_1.port 1).inbox = some m22) ∧ (w53_2_9_1.ops = on :: w53_2_9_2)
    ∧ (on.standIn = true) ∧ (on.desc.seqIndex = m22.addr) ∧ (on.phase ≠ OpPhase.ending) ∧ (spanLater w53_2_9_1 0 =
    true) ∧ (w53_2_9_1.part0.ctx = on.ctx)) ∧
    ((w53_2_10_1.live = true) ∧ ((w53_2_10_1.updPort 0 fun x =>
    { txSeq := x.txSeq, rxSeq := x.rxSeq, unacked := x.unacked, replays := x.replays, queue := x.queue, sent := x.sent, credits := x.credits, freed := x.freed, parts := x.parts, inbox := dropFirst m23 x.inbox, announce := x.announce })
    = w53_2_10_1.updPort 0 fun x =>
    { txSeq := x.txSeq, rxSeq := x.rxSeq, unacked := x.unacked, replays := x.replays, queue := x.queue, sent := x.sent, credits := x.credits, freed := x.freed, parts := x.parts, inbox := dropFirst m23 x.inbox, announce := x.announce })
    ∧ (List.find? (fun x => x.msgType == 35) (w53_2_10_1.port 0).inbox = some m23) ∧ (w53_2_10_1.chn.span0.running =
    true) ∧ (w53_2_10_1.chn.span0.outPort = 0)) ∧
    ((w53_2_11_1.live = true) ∧ ((w53_2_11_1.updPort 0 fun x =>
    { txSeq := x.txSeq, rxSeq := x.rxSeq, unacked := x.unacked, replays := x.replays, queue := x.queue, sent := x.sent, credits := x.credits, freed := x.freed, parts := x.parts, inbox := dropFirst m24 x.inbox, announce := x.announce })
    = w53_2_11_1.updPort 0 fun x =>
    { txSeq := x.txSeq, rxSeq := x.rxSeq, unacked := x.unacked, replays := x.replays, queue := x.queue, sent := x.sent, credits := x.credits, freed := x.freed, parts := x.parts, inbox := dropFirst m24 x.inbox, announce := x.announce })
    ∧ (List.find? (fun x => x.msgType == 36) (w53_2_11_1.port 0).inbox = some m24) ∧ (w53_2_11_1.chn.span0.running =
    false) ∧ (w53_2_11_1.chn.span1.running = false)) ∧
    ((w53_2_12_1.live = true) ∧ ((w53_2_12_1.updPort 0 fun x =>
    { txSeq := x.txSeq, rxSeq := x.rxSeq, unacked := x.unacked, replays := x.replays, queue := x.queue, sent := x.sent, credits := x.credits, freed := x.freed, parts := x.parts, inbox := dropFirst m24 x.inbox, announce := x.announce })
    = w53_2_12_1.updPort 0 fun x =>
    { txSeq := x.txSeq, rxSeq := x.rxSeq, unacked := x.unacked, replays := x.replays, queue := x.queue, sent := x.sent, credits := x.credits, freed := x.freed, parts := x.parts, inbox := dropFirst m24 x.inbox, announce := x.announce })
    ∧ (List.find? (fun x => x.msgType == 36) (w53_2_12_1.port 0).inbox = some m24) ∧ (w53_2_12_1.chn.span0.running =
    true) ∧ (m24.src ∈ w53_2_12_1.chn.span0.rooms) ∧ (w53_2_12_1.chn.span1.running = false) ∧ (spanRoom (spanStop
    (w53_2_12_1.updPort 0 fun x =>
    { txSeq := x.txSeq, rxSeq := x.rxSeq, unacked := x.unacked, replays := x.replays, queue := x.queue, sent := x.sent, credits := x.credits, freed := x.freed, parts := x.parts, inbox := dropFirst m24 x.inbox, announce := x.announce })
    0) 1 m24.src = false)) ∧
    ((w53_2_13_1_1.live = true) ∧ ((w53_2_13_1_1.updPort 0 fun x =>
    { txSeq := x.txSeq, rxSeq := x.rxSeq, unacked := x.unacked, replays := x.replays, queue := x.queue, sent := x.sent, credits := x.credits, freed := x.freed, parts := x.parts, inbox := dropFirst m20 x.inbox, announce := x.announce })
    = w53_2_13_1_1.updPort 0 fun x =>
    { txSeq := x.txSeq, rxSeq := x.rxSeq, unacked := x.unacked, replays := x.replays, queue := x.queue, sent := x.sent, credits := x.credits, freed := x.freed, parts := x.parts, inbox := dropFirst m20 x.inbox, announce := x.announce })
    ∧ (List.find? (fun x => x.msgType == 32) (w53_2_13_1_1.port 0).inbox = some m20) ∧
    (w53_2_13_1_1.chn.span0.running = false) ∧ (w53_2_13_1_1.chn.span1.running = false)) ∧
    ((w53_2_13_2_1.live = true) ∧ ((w53_2_13_2_1.updPort 1 fun x =>
    { txSeq := x.txSeq, rxSeq := x.rxSeq, unacked := x.unacked, replays := x.replays, queue := x.queue, sent := x.sent, credits := x.credits, freed := x.freed, parts := x.parts, inbox := dropFirst m20 x.inbox, announce := x.announce })
    = w53_2_13_2_1.updPort 1 fun x =>
    { txSeq := x.txSeq, rxSeq := x.rxSeq, unacked := x.unacked, replays := x.replays, queue := x.queue, sent := x.sent, credits := x.credits, freed := x.freed, parts := x.parts, inbox := dropFirst m20 x.inbox, announce := x.announce })
    ∧ (List.find? (fun x => x.msgType == 32) (w53_2_13_2_1.port 1).inbox = some m20) ∧
    (w53_2_13_2_1.chn.span0.running = true) ∧ (w53_2_13_2_1.chn.span0.inPort = 1) ∧ (w53_2_13_2_1.chn.span0.steps =
    []) ∧ (w53_2_13_2_1.chn.span0.cur = none) ∧ (m20.payload = [])) ∧
    ((w53_3_2.live = true) ∧ (List.find? (fun f => f.fst == 3) w53_3_2.chn.fences = some (3, w53_2_5_2, none))) := by
  and_intros <;> decide +kernel

/-- Obligations.MailboxAndContexts: the hypotheses of each clause are met together. -/
theorem witness_MailboxAndContexts :
    (∀ i, i < 19 → rdy.rd (Reg.HIF_IVEC_VECTOR i) < 2048) ∧
    ((rdy.hostOk Reg.SEC_MBX_CMD_OP.off = true) ∧ (mbxStates 127 = none) ∧ (rdy.flag Reg.SEC_MBX_STATUS_BUSY =
    false)) ∧
    ((w54_2_2_1.hostOk Reg.SEC_MBX_CMD_OP.off = true) ∧ (mbxStates 0 = none) ∧ (w54_2_2_1.flag
    Reg.SEC_MBX_STATUS_BUSY = true)) ∧
    ((rdy.hostOk Reg.SEC_MBX_CMD_OP.off = true) ∧ (rdy.flag Reg.SEC_MBX_STATUS_BUSY = false) ∧ (rdy.ready = true) ∧
    (rdy.rd Reg.SRM_LC_STATE < 3) ∧ (mb 1 4095 rdy = (rdy.wr Reg.SEC_MBX_CMD_OP 1).wr (Reg.SEC_MBX_ARG_ARG 0) 4095) ∧
    (ctxState rdy 4095 = 0)) ∧
    ((mem.hostOk Reg.SEC_MBX_CMD_OP.off = true) ∧ (mem.flag Reg.SEC_MBX_STATUS_BUSY = false) ∧ (mem.ready = true) ∧
    (mem.rd Reg.SRM_LC_STATE < 3) ∧ (mb 1 1 mem = (mem.wr Reg.SEC_MBX_CMD_OP 1).wr (Reg.SEC_MBX_ARG_ARG 0) 1) ∧
    (ctxState mem 1 ≠ 0)) ∧
    ((mc.hostOk Reg.SEC_MBX_CMD_OP.off = true) ∧ (mc.flag Reg.SEC_MBX_STATUS_BUSY = false) ∧ (mc.ready = true) ∧
    (mc.rd Reg.SRM_LC_STATE < 3) ∧ (mb 2 1 mc = (mc.wr Reg.SEC_MBX_CMD_OP 2).wr (Reg.SEC_MBX_ARG_ARG 0) 1) ∧
    (registered mc 1 = true) ∧ (mbxFits mc 128 = true) ∧ (ctxRecOk mc 1 cfgB = true) ∧ (ctxState mc 1 = 1 ∨ ctxBusy
    mc 1 = false) ∧ (∀ i, i < 19 → mc.rd (Reg.HIF_IVEC_VECTOR i) < 2048)) ∧
    ((w54_3_4_1.hostOk Reg.SEC_MBX_CMD_OP.off = true) ∧ (w54_3_4_1.flag Reg.SEC_MBX_STATUS_BUSY = false) ∧
    (w54_3_4_1.ready = true) ∧ (w54_3_4_1.rd Reg.SRM_LC_STATE < 3) ∧ (mb 2 1 w54_3_4_1 = (w54_3_4_1.wr
    Reg.SEC_MBX_CMD_OP 2).wr (Reg.SEC_MBX_ARG_ARG 0) 1) ∧ (ctxState w54_3_4_1 1 = 2) ∧ (mbxFits w54_3_4_1 128 = true)
    ∧ (ctxBusy w54_3_4_1 1 = true)) ∧
    ((w20_2_1.hostOk Reg.SEC_MBX_CMD_OP.off = true) ∧ (w20_2_1.flag Reg.SEC_MBX_STATUS_BUSY = false) ∧ (w20_2_1.ready
    = true) ∧ (w20_2_1.rd Reg.SRM_LC_STATE < 3) ∧ (mb 3 1 w20_2_1 = (w20_2_1.wr Reg.SEC_MBX_CMD_OP 3).wr
    (Reg.SEC_MBX_ARG_ARG 0) 1) ∧ (registered w20_2_1 1 = true) ∧ (runningOrPending w20_2_1 1 = true)) ∧
    ((w54_3_6_2.hostOk Reg.SEC_MBX_CMD_OP.off = true) ∧ (w54_3_6_2.flag Reg.SEC_MBX_STATUS_BUSY = false) ∧
    (w54_3_6_2.ready = true) ∧ (w54_3_6_2.rd Reg.SRM_LC_STATE < 3) ∧ (mb 3 1 w54_3_6_2 = (w54_3_6_2.wr
    Reg.SEC_MBX_CMD_OP 3).wr (Reg.SEC_MBX_ARG_ARG 0) 1) ∧ (registered w54_3_6_2 1 = true) ∧ (runningOrPending
    w54_3_6_2 1 = false)) := by
  and_intros <;> decide +kernel

/-- Obligations.QuotesAndSignatures: the hypotheses of each clause are met together. -/
theorem witness_QuotesAndSignatures :
    ((w55_1_1.rd Reg.SRM_IDX_RSV_BLOCKS ≤ 2 ^ 24) ∧ (w55_1_1.rd Reg.SRM_IDX_NEXT ≤ 1024 * w55_1_1.rd
    Reg.SRM_IDX_RSV_BLOCKS) ∧ (∀ i, i < 19 → w55_1_1.rd (Reg.HIF_IVEC_VECTOR i) < 2048) ∧ (takeIndex w55_1_1 = some
    (5, w55_1_2))) ∧
    ((w55_1_3.rd Reg.SRM_IDX_RSV_BLOCKS ≤ 2 ^ 24) ∧ (w55_1_3.rd Reg.SRM_IDX_NEXT ≤ 1024 * w55_1_3.rd
    Reg.SRM_IDX_RSV_BLOCKS) ∧ (∀ i, i < 19 → w55_1_3.rd (Reg.HIF_IVEC_VECTOR i) < 2048) ∧ (takeIndex w55_1_3 = some
    (1024, w55_1_4))) ∧
    ((w55_1_5.rd Reg.SRM_IDX_RSV_BLOCKS ≤ 2 ^ 24) ∧ (w55_1_5.rd Reg.SRM_IDX_NEXT ≤ 1024 * w55_1_5.rd
    Reg.SRM_IDX_RSV_BLOCKS) ∧ (∀ i, i < 19 → w55_1_5.rd (Reg.HIF_IVEC_VECTOR i) < 2048) ∧ (takeIndex w55_1_5 = some
    (2 ^ 34 - 1024, g2 (takeIndex w55_1_5)))) ∧
    ((w55_2_1.rd Reg.SRM_IDX_RSV_BLOCKS = 2 ^ 24) ∧ (w55_2_1.rd Reg.SRM_IDX_NEXT = 2 ^ 34)) ∧
    ((q1.hostOk Reg.SEC_MBX_CMD_OP.off = true) ∧ (q1.flag Reg.SEC_MBX_STATUS_BUSY = false) ∧ (q1.ready = true) ∧
    (q1.rd Reg.SRM_LC_STATE = 1 ∨ q1.rd Reg.SRM_LC_STATE = 2) ∧ (mbxFits q1 10405 = true) ∧ (1 = 1 → ctxState q1 4095
    = 2) ∧ (w55_3_3 = q1.wrs ((Reg.SEC_MBX_CMD_OP, 16) :: (Reg.SEC_MBX_ARG_ARG 0, 1 + 65536 * 4095) :: List.map (fun
    a => (Reg.SEC_MBX_ARG_ARG a.fst, a.snd)) (digestArgs non))) ∧ ((makeQuote w55_3_3 (if 1 = 0 then none else some
    4095) (argDigest w55_3_3)).isSome = true)) ∧
    ((q2.hostOk Reg.SEC_MBX_CMD_OP.off = true) ∧ (q2.flag Reg.SEC_MBX_STATUS_BUSY = false) ∧ (q2.ready = true) ∧
    (q2.rd Reg.SRM_LC_STATE = 1 ∨ q2.rd Reg.SRM_LC_STATE = 2) ∧ (mbxFits q2 10405 = true) ∧ (127 ≠ q2.rd
    Reg.CHN_STATUS_ROOM) ∧ (routePort q2 127 = some 1) ∧ (qr 17 127 non q2 = q2.wrs ((Reg.SEC_MBX_CMD_OP, 17) ::
    (Reg.SEC_MBX_ARG_ARG 0, 127) :: List.map (fun a => (Reg.SEC_MBX_ARG_ARG a.fst, a.snd)) (digestArgs non)))) ∧
    ((q2.hostOk Reg.SEC_MBX_CMD_OP.off = true) ∧ (q2.flag Reg.SEC_MBX_STATUS_BUSY = false) ∧ (q2.ready = true) ∧
    (q2.rd Reg.SRM_LC_STATE = 1 ∨ q2.rd Reg.SRM_LC_STATE = 2) ∧ (mbxFits q2 10405 = true) ∧ (0 ≠ q2.rd
    Reg.CHN_STATUS_ROOM) ∧ (routePort q2 0 = some 0) ∧ (qr 17 0 non q2 = q2.wrs ((Reg.SEC_MBX_CMD_OP, 17) ::
    (Reg.SEC_MBX_ARG_ARG 0, 0) :: List.map (fun a => (Reg.SEC_MBX_ARG_ARG a.fst, a.snd)) (digestArgs non)))) ∧
    ((w55_5_1_1.live = true) ∧ (w55_5_1_1.sec.peerRoom = some 3)) ∧
    ((q2.live = true) ∧ (q2.sec.peerRoom = none)) ∧
    ((w55_6_2_1.live = true) ∧ ((w55_6_2_1.updPort 1 fun x =>
    { txSeq := x.txSeq, rxSeq := x.rxSeq, unacked := x.unacked, replays := x.replays, queue := x.queue, sent := x.sent, credits := x.credits, freed := x.freed, parts := x.parts, inbox := dropFirst m31r x.inbox, announce := x.announce })
    = w55_6_2_1.updPort 1 fun x =>
    { txSeq := x.txSeq, rxSeq := x.rxSeq, unacked := x.unacked, replays := x.replays, queue := x.queue, sent := x.sent, credits := x.credits, freed := x.freed, parts := x.parts, inbox := dropFirst m31r x.inbox, announce := x.announce })
    ∧ (List.find? (fun x => x.msgType == 49 && decide (2 ^ 63 ≤ x.addr) == true) (w55_6_2_1.port 1).inbox = some
    m31r) ∧ (w55_6_2_1.sec.peerRoom = some m31r.src) ∧ (m31r.addr % 65536 = 0)) ∧
    ((q1.hostOk Reg.SEC_MBX_CMD_OP.off = true) ∧ (q1.flag Reg.SEC_MBX_STATUS_BUSY = false) ∧ (q1.rd Reg.SRM_LC_STATE
    = 1 ∨ q1.rd Reg.SRM_LC_STATE = 2) ∧ (mbxFits q1 3076 = true)) ∧
    ((w55_6_1_1.live = true) ∧ (uq w55_6_1_1 = w55_6_1_1.updPort 1 fun x =>
    { txSeq := x.txSeq, rxSeq := x.rxSeq, unacked := x.unacked, replays := x.replays, queue := x.queue, sent := x.sent, credits := x.credits, freed := x.freed, parts := x.parts, inbox := dropFirst m31 x.inbox, announce := x.announce })
    ∧ (List.find? (fun x => x.msgType == 49 && decide (2 ^ 63 ≤ x.addr) == false) (w55_6_1_1.port 1).inbox = some
    m31) ∧ (w55_6_1_1.ready = true) ∧ (w55_6_1_1.rd Reg.SRM_LC_STATE = 1 ∨ w55_6_1_1.rd Reg.SRM_LC_STATE = 2) ∧
    ((makeQuote (uq w55_6_1_1) none (List.take 32 m31.payload)).isSome = true)) := by
  and_intros <;> decide +kernel

/-- Obligations.LifeCycle: the hypotheses of each clause are met together. -/
theorem witness_LifeCycle :
    ((w56_1_1_1.hostOk Reg.SEC_MBX_CMD_OP.off = true) ∧ (w56_1_1_1.flag Reg.SEC_MBX_STATUS_BUSY = false) ∧ (∀ i, i <
    19 → w56_1_1_1.rd (Reg.HIF_IVEC_VECTOR i) < 2048) ∧ (w56_1_1_1.rd Reg.SRM_LC_STATE = 1) ∧ (own.length = 32)) ∧
    ((w56_1_2_1.hostOk Reg.SEC_MBX_CMD_OP.off = true) ∧ (w56_1_2_1.flag Reg.SEC_MBX_STATUS_BUSY = false) ∧ (∀ i, i <
    19 → w56_1_2_1.rd (Reg.HIF_IVEC_VECTOR i) < 2048) ∧ (w56_1_2_1.rd Reg.SRM_LC_STATE = 0) ∧ (mbxFits w56_1_2_1 3076
    = true) ∧ (certZeros w56_1_2_2 = true) ∧ (slotUsable w56_1_2_1 (recField w56_1_2_2 6 1) = true) ∧
    (w56_1_2_1.sec.idPub = true) ∧ (List.take 68 (List.drop 40 w56_1_2_2) = idPubBytes)) ∧
    ((w56_1_2_1.hostOk Reg.SEC_MBX_CMD_OP.off = true) ∧ (w56_1_2_1.flag Reg.SEC_MBX_STATUS_BUSY = false) ∧ (∀ i, i <
    19 → w56_1_2_1.rd (Reg.HIF_IVEC_VECTOR i) < 2048) ∧ (w56_1_2_1.rd Reg.SRM_LC_STATE = 0) ∧ (limitFld 0 = some
    Reg.SRM_LIMITS0_CEIL_W) ∧ (90 < 2 ^ Reg.SRM_LIMITS0_CEIL_W.width)) ∧
    ((w56_1_2_1.hostOk Reg.SEC_MBX_CMD_OP.off = true) ∧ (w56_1_2_1.flag Reg.SEC_MBX_STATUS_BUSY = false) ∧ (∀ i, i <
    19 → w56_1_2_1.rd (Reg.HIF_IVEC_VECTOR i) < 2048) ∧ (w56_1_2_1.rd Reg.SRM_LC_STATE = 0) ∧ (limitFld 7 = some
    Reg.SRM_LIMITS0_MIN_DIV) ∧ (255 < 2 ^ Reg.SRM_LIMITS0_MIN_DIV.width)) ∧
    ((w56_1_2_1.hostOk Reg.SEC_MBX_CMD_OP.off = true) ∧ (w56_1_2_1.flag Reg.SEC_MBX_STATUS_BUSY = false) ∧ (∀ i, i <
    19 → w56_1_2_1.rd (Reg.HIF_IVEC_VECTOR i) < 2048) ∧ (w56_1_2_1.rd Reg.SRM_LC_STATE = 0) ∧ (limitFld 6 = some
    Reg.SRM_LIMITS0_TRIP_C) ∧ (0 < 2 ^ Reg.SRM_LIMITS0_TRIP_C.width)) ∧
    ((w56_1_2_1.hostOk Reg.SEC_MBX_CMD_OP.off = true) ∧ (w56_1_2_1.flag Reg.SEC_MBX_STATUS_BUSY = false) ∧ (∀ i, i <
    19 → w56_1_2_1.rd (Reg.HIF_IVEC_VECTOR i) < 2048) ∧ (w56_1_2_1.rd Reg.SRM_LC_STATE = 0) ∧ (mbxFits w56_1_2_1 68 =
    true)) ∧
    ((w56_1_5_1_1.hostOk Reg.SEC_MBX_CMD_OP.off = true) ∧ (w56_1_5_1_1.flag Reg.SEC_MBX_STATUS_BUSY = false) ∧ (∀ i,
    i < 19 → w56_1_5_1_1.rd (Reg.HIF_IVEC_VECTOR i) < 2048) ∧ (w56_1_5_1_1.rd Reg.SRM_LC_STATE = 1 ∨ w56_1_5_1_1.rd
    Reg.SRM_LC_STATE = 2) ∧ (w56_1_5_1_1.ready = true) ∧ (serviceBusy w56_1_5_1_1 = 0) ∧ (mbxFits w56_1_5_1_1 2884 =
    true) ∧ (tokenOk w56_1_5_1_1 w56_1_5_1_2 true = true) ∧ (recField w56_1_5_1_2 6 1 = 2) ∧ (bitOf (w56_1_5_1_1.rd
    Reg.SRM_KEYS_REVOKED) (recField w56_1_5_1_2 24 1) = false)) ∧
    ((w56_1_5_1_1.hostOk Reg.SEC_MBX_CMD_OP.off = true) ∧ (w56_1_5_1_1.flag Reg.SEC_MBX_STATUS_BUSY = false) ∧ (∀ i,
    i < 19 → w56_1_5_1_1.rd (Reg.HIF_IVEC_VECTOR i) < 2048) ∧ (w56_1_5_1_1.rd Reg.SRM_LC_STATE = 1 ∨ w56_1_5_1_1.rd
    Reg.SRM_LC_STATE = 2) ∧ (w56_1_5_1_1.ready = true) ∧ (serviceBusy w56_1_5_1_1 = 0) ∧ (mbxFits w56_1_5_1_1 2884 =
    true)) ∧
    ((w56_1_6_1_1.hostOk Reg.SEC_MBX_CMD_OP.off = true) ∧ (w56_1_6_1_1.flag Reg.SEC_MBX_STATUS_BUSY = false) ∧ (∀ i,
    i < 19 → w56_1_6_1_1.rd (Reg.HIF_IVEC_VECTOR i) < 2048) ∧ (w56_1_6_1_1.rd Reg.SRM_LC_STATE = 1 ∨ w56_1_6_1_1.rd
    Reg.SRM_LC_STATE = 2 ∨ w56_1_6_1_1.rd Reg.SRM_LC_STATE = 3) ∧ (w56_1_6_1_1.ready = true) ∧ (serviceBusy
    w56_1_6_1_1 = 0)) ∧
    ((w56_1_1_1.hostOk Reg.SEC_MBX_CMD_OP.off = true) ∧ (w56_1_1_1.flag Reg.SEC_MBX_STATUS_BUSY = false) ∧ (∀ i, i <
    19 → w56_1_1_1.rd (Reg.HIF_IVEC_VECTOR i) < 2048) ∧ (w56_1_1_1.rd Reg.SRM_LC_STATE = 1 ∨ w56_1_1_1.rd
    Reg.SRM_LC_STATE = 2 ∨ w56_1_1_1.rd Reg.SRM_LC_STATE = 3) ∧ (w56_1_1_1.ready = true) ∧ (serviceBusy w56_1_1_1 =
    0) ∧ (0 ≠ 1396920912)) ∧
    ((up.live = true) ∧ (15 = 1 → up.chip.pllLocked = true) ∧ (∀ i, i < 19 → up.rd (Reg.HIF_IVEC_VECTOR i) < 2048)) ∧
    ((w20_2_1.live = true) ∧ (1 = 1 → w20_2_1.chip.pllLocked = true) ∧ (∀ i, i < 19 → w20_2_1.rd (Reg.HIF_IVEC_VECTOR
    i) < 2048)) ∧
    ((w56_2_3.live = true) ∧ (0 = 1 → w56_2_3.chip.pllLocked = true) ∧ (∀ i, i < 19 → w56_2_3.rd (Reg.HIF_IVEC_VECTOR
    i) < 2048)) ∧
    ((lx.hostOk Reg.SEC_MBX_CMD_OP.off = true) ∧ (lx.flag Reg.SEC_MBX_STATUS_BUSY = false) ∧ (∀ i, i < 19 → lx.rd
    (Reg.HIF_IVEC_VECTOR i) < 2048) ∧ (lx.rd Reg.SRM_LC_STATE = 1 ∨ lx.rd Reg.SRM_LC_STATE = 2) ∧ (lx.ready = true) ∧
    (serviceBusy lx = 0) ∧ (mbxFits lx 2884 = true) ∧ (tokenOk lx w56_1_5_2_2 true = true) ∧ (recField w56_1_5_2_2 6
    1 = 1)) :=
  ⟨by decide +kernel,
    ⟨by decide +kernel, by decide +kernel, by decide +kernel, by decide +kernel, by decide +kernel, by decide +kernel, by decide +kernel, by decide +kernel, rfl⟩,
    by decide +kernel, by decide +kernel, by decide +kernel, by decide +kernel,
    ⟨by decide +kernel, by decide +kernel, by decide +kernel, by decide +kernel, by decide +kernel, serviceBusy_free _ (by decide +kernel) (by decide +kernel), by decide +kernel, by decide +kernel, by decide +kernel, by decide +kernel⟩,
    ⟨by decide +kernel, by decide +kernel, by decide +kernel, by decide +kernel, by decide +kernel, serviceBusy_free _ (by decide +kernel) (by decide +kernel), by decide +kernel⟩,
    ⟨by decide +kernel, by decide +kernel, by decide +kernel, by decide +kernel, by decide +kernel, serviceBusy_free _ (by decide +kernel) (by decide +kernel)⟩,
    ⟨by decide +kernel, by decide +kernel, by decide +kernel, by decide +kernel, by decide +kernel, serviceBusy_free _ (by decide +kernel) (by decide +kernel), by decide +kernel⟩,
    by decide +kernel, by decide +kernel, by decide +kernel,
    ⟨by decide +kernel, by decide +kernel, by decide +kernel, by decide +kernel, by decide +kernel, serviceBusy_free _ (by decide +kernel) (by decide +kernel), by decide +kernel, by decide +kernel, by decide +kernel⟩⟩

/-- Obligations.KeeperNotReady: the hypotheses of the statement are met together. -/
theorem witness_KeeperNotReady :
    (up.live = true) ∧ (up.linked = true) ∧ (up.chip.pllFailed = false) ∧ (up.rd Reg.SRM_LC_STATE ≠ 4) ∧ (up.rd
    Reg.KPR_STATUS_STATE ≠ 5) ∧ (up.ready = false) := by decide +kernel

/-- Obligations.TripFreezesThePart: the hypotheses of the statement are met together. -/
theorem witness_TripFreezesThePart :
    (w58_1.chip.tripped = true) ∧ (clockless (Instr.synAdd 1 1) = false) := by decide +kernel

end Sys2Proof.Tests
end

section
/-! The scatter of a step (R38 to R41, R72, R263 to R267). -/

namespace Sys2Proof.Machine.Architecture

/-! An event of a live part, and one partition's update. -/

/-- A live part performs the event of an engine. -/
theorem engine_of_live {s : State} (h : s.live = true) (k : State → State) : s.engine k = k s := by
  simp [State.engine, h]

@[simp] theorem part_updPart_same (s : State) (p : Nat) (f : Part → Part) : (s.updPart p f).part p = f (s.part p) :=
  part_setPart_same s p _

@[simp] theorem rd_updPart (s : State) (p : Nat) (f : Part → Part) (g : Fld) : (s.updPart p f).rd g = s.rd g :=
  rd_setPart s p _ g

@[simp] theorem ops_updPart (s : State) (p : Nat) (f : Part → Part) : (s.updPart p f).ops = s.ops := ops_setPart s p _

@[simp] theorem dram_updPart (s : State) (p : Nat) (f : Part → Part) : (s.updPart p f).dram = s.dram := dram_setPart s p _

@[simp] theorem tiles_updPart (s : State) (p : Nat) (f : Part → Part) : (s.updPart p f).tiles = s.tiles :=
  tiles_setPart s p _

/-- The same DRAM holds the same bytes. -/
theorem memKept_of_dram {s t : State} (h : t.dram = s.dram) : s.memKept t := fun a => by
  simp [State.byteAt, h]

/-- Counting in one register changes no other. -/
theorem regsKept_inc (s : State) (f : Fld) : s.regsKept (s.inc f) [f] :=
  fun _ h => rd_wr_ne s _ (h f (by simp))

/-- The register that counts reads one more, cut to its width. -/
theorem rd_inc_same (s : State) (f : Fld) : (s.inc f).rd f = (s.rd f + 1) % 2 ^ f.width := rd_wr_same s f _

theorem onlyRegs_trans {s t u : State} (a : s.onlyRegs t) (b : t.onlyRegs u) : s.onlyRegs u := by
  rw [State.onlyRegs] at a b ⊢
  rw [b, a]

theorem onlyRegs_wr (s : State) (f : Fld) (v : Nat) : s.onlyRegs (s.wr f v) := rfl

/-- A tile is the same where only registers change. -/
theorem tile_of_onlyRegs {s t : State} (h : s.onlyRegs t) (n : Nat) : t.tile n = s.tile n := by
  rw [h]
  rfl

/-- A partition is the same where only registers change. -/
theorem part_of_onlyRegs {s t : State} (h : s.onlyRegs t) (p : Nat) : t.part p = s.part p := by
  rw [h]
  rfl

/-! What BOOKING_ISSUE does. -/

theorem exec_bookingIssue {s : State} (h : s.live = true) (p i : Nat) (fault : Bool) :
    exec (.bookingIssue p i fault) s = .next (bookingIssue s p i fault) :=
  congrArg Host.Outcome.next (engine_of_live h _)

/-- An open booking that nothing keeps from its issue is refused, ends its slot, aborts, waits or commits (R263). -/
theorem bookingIssue_of_open {s : State} {p i : Nat} {b : Booking} (hs : (s.part p).stage = .scatter) (hi : i < 96)
    (hb : (s.part p).bookings[i]? = some b) (ha : b.aborts < 8) (hh : issueHeld (s.part p) b = false) (fault : Bool) :
    bookingIssue s p i fault =
      if 64 < bookSize b.lines b.refs then faultBooking s p b Code.MEM_E_BOOK_SIZE
      else if fault then faultBooking s p b Code.XLT_E_UNCORR
      else if conflicts (s.part p).watches b then abortBooking s p b
      else if b.lines.any (lineHeld s) then s
      else if !checksOk s b.lines then s.inc Reg.MEM_BKG_AB_CHECK
      else commitBooking s p b := by
  have unheld : ¬ (8 ≤ b.aborts ∨ issueHeld (s.part p) b = true) := by simp [hh]; omega
  simp only [bookingIssue, hs, hi, hb, beq_self_eq_true, decide_true, Bool.and_self, if_true, if_neg unheld]

/-- A booking that a stall keeps from its issue stays open, and nothing changes (R44). -/
theorem bookingIssue_of_held {s : State} {p i : Nat} {b : Booking} (hb : (s.part p).bookings[i]? = some b)
    (hh : issueHeld (s.part p) b = true) (fault : Bool) : bookingIssue s p i fault = s := by
  simp [bookingIssue, hb, hh]

/-- No watch of a booking's issuer is dirty: it meets no conflict. -/
theorem conflicts_of_clean {ws : List Watch} {b : Booking} (h : ∀ w ∈ ws, w.owner = b.owner → w.dirty = false) :
    conflicts ws b = false := by
  simp only [conflicts, List.any_eq_false, Bool.and_eq_true, beq_iff_eq]
  rintro w hw ⟨⟨ho, hd⟩, -⟩
  simp [h w hw ho] at hd

/-- A dirty watch of the issuer on a line of its booking is a conflict. -/
theorem conflicts_of_dirty {ws : List Watch} {b : Booking} {w : Watch} (hw : w ∈ ws) (ho : w.owner = b.owner)
    (hd : w.dirty = true) (hm : ∃ l ∈ b.lines, w.meets l = true) : conflicts ws b = true := by
  simp only [conflicts, List.any_eq_true, Bool.and_eq_true, beq_iff_eq]
  exact ⟨w, hw, ⟨ho, hd⟩, hm⟩

/-- After cleaning, no watch of the issuer is dirty. -/
theorem cleanWatches_clean (s : State) (p owner : Nat) :
    ∀ v ∈ ((cleanWatches s p owner).part p).watches, v.owner = owner → v.dirty = false := by
  simp only [cleanWatches, part_updPart_same, List.mem_map]
  rintro v ⟨w, -, rfl⟩ ho
  by_cases h : w.owner = owner
  · simp [h]
  · simp [h] at ho

/-- A booking before its eighth abort only counts the conflict, cleans its issuer's watches and makes the step exempt
(R263, R323). -/
theorem abortBooking_of_few {s : State} {p : Nat} {b : Booking} (h : b.aborts < 7) :
    abortBooking s p b = (cleanWatches (s.inc Reg.MEM_BKG_AB_CONFLICT) p b.owner).updPart p (fun y => { y with
      exempt := true
      bookings := y.bookings.map (fun c => if c.id == b.id then { c with aborts := c.aborts + 1, issued := true } else c) }) := by
  have few : ¬ b.aborts + 1 = 8 := by omega
  simp only [abortBooking, if_neg few]

/-- What an abort before the eighth changes and leaves. -/
theorem abortBooking_effect {s t : State} {p : Nat} {b : Booking} (h : b.aborts < 7) (ht : t = abortBooking s p b) :
    t.rd Reg.MEM_BKG_AB_CONFLICT = (s.rd Reg.MEM_BKG_AB_CONFLICT + 1) % 2 ^ Reg.MEM_BKG_AB_CONFLICT.width ∧
    s.regsKept t [Reg.MEM_BKG_AB_CONFLICT] ∧ (t.part p).exempt = true ∧
    (∀ v ∈ (t.part p).watches, v.owner = b.owner → v.dirty = false) ∧ s.memKept t ∧ t.ops = s.ops := by
  rw [abortBooking_of_few h] at ht
  have hrd (g : Fld) : t.rd g = (s.inc Reg.MEM_BKG_AB_CONFLICT).rd g := by simp [ht, cleanWatches]
  refine ⟨?_, ?_, ?_, ?_, memKept_of_dram ?_, ?_⟩
  · rw [hrd, rd_inc_same]
  · intro g hg
    rw [hrd, regsKept_inc s _ g hg]
  · simp [ht]
  · rw [ht, part_updPart_same]
    exact cleanWatches_clean _ p b.owner
  · simp [ht, cleanWatches, State.inc, State.add]
  · simp [ht, cleanWatches, State.inc, State.add]

/-! Passes over lists, the tiles' states, and the stall of an overrun. -/

/-- What one element's round brings about and every round keeps holds after the pass; `P` is kept on the way. -/
theorem overList_reaches {α : Type} {P Q : State → Prop} {l : List α} {f : α → State → State} {x : α} (hx : x ∈ l)
    (keepP : ∀ y ∈ l, ∀ t, P t → P (f y t)) (reach : ∀ t, P t → Q (f x t)) (keepQ : ∀ y ∈ l, ∀ t, Q t → Q (f y t))
    (s : State) (hs : P s) : Q (overList l f s) := by
  induction l generalizing s with
  | nil => cases hx
  | cons y rest ih =>
    have restP : ∀ z ∈ rest, ∀ t, P t → P (f z t) := fun z hz => keepP z (List.mem_cons_of_mem _ hz)
    have restQ : ∀ z ∈ rest, ∀ t, Q t → Q (f z t) := fun z hz => keepQ z (List.mem_cons_of_mem _ hz)
    rcases List.mem_cons.mp hx with rfl | hx
    · exact overList_keeps rest f restQ _ (reach s hs)
    · exact ih hx restP restQ _ (keepP y (by simp) s hs)

/-- Setting the tiles' states changes registers only. -/
theorem setTileStates_onlyRegs (s : State) (p v : Nat) : s.onlyRegs (setTileStates s p v) :=
  overList_keeps (P := s.onlyRegs) _ _ (fun _ _ t ht => onlyRegs_trans ht (onlyRegs_wr t _ v)) s rfl

/-- Every register below the tiles' blocks keeps its value when the tiles' states are set. -/
theorem rd_setTileStates_below (s : State) (p v : Nat) {g : Fld} (hg : g.key < (Reg.TIL_STATUS_STATE 0).key) :
    (setTileStates s p v).rd g = s.rd g := by
  refine overList_keeps (P := fun t => t.rd g = s.rd g) _ _ (fun n _ t ht => ?_) s rfl
  rw [rd_wr_ne, ht]
  simp only [Fld.key, Reg.TIL_STATUS_STATE] at hg ⊢
  omega

/-- Each tile of the partition reads the state set. -/
theorem rd_setTileStates (s : State) {p v n : Nat} (hv : v < 8) (hn : n ∈ (s.part p).tiles) :
    (setTileStates s p v).rd (Reg.TIL_STATUS_STATE n) = v := by
  have cut : v % 2 ^ 3 = v := Nat.mod_eq_of_lt hv
  refine overList_reaches (P := fun _ => True) (Q := fun t => t.rd (Reg.TIL_STATUS_STATE n) = v) hn
    (fun _ _ _ _ => trivial) (fun t _ => ?_) (fun m _ t ht => ?_) s trivial
  · exact (rd_wr_same t _ v).trans cut
  · rw [rd_wr]
    split
    · exact cut
    · exact ht

/-- What a partition's state and its tiles' states, set together, change and leave. -/
theorem setStates_effect {s t : State} {p v w : Nat} (hp : p < 2) (hv : v < 8) (hw : w < 8)
    (ht : t = setTileStates (s.wr (Reg.ITN_P_STATUS_STATE p) v) p w) :
    s.onlyRegs t ∧ t.rd (Reg.ITN_P_STATUS_STATE p) = v ∧ (∀ n ∈ (s.part p).tiles, t.rd (Reg.TIL_STATUS_STATE n) = w) ∧
    (∀ g : Fld, (Reg.ITN_P_STATUS_STATE p).key ≠ g.key → g.key < (Reg.TIL_STATUS_STATE 0).key → t.rd g = s.rd g) := by
  have below : (Reg.ITN_P_STATUS_STATE p).key < (Reg.TIL_STATUS_STATE 0).key := by
    simp only [Fld.key, Reg.TIL_STATUS_STATE, Reg.ITN_P_STATUS_STATE]
    omega
  subst ht
  refine ⟨onlyRegs_trans (onlyRegs_wr s _ v) (setTileStates_onlyRegs _ p w), ?_,
    fun n hn => rd_setTileStates _ hw hn, fun g hne hg => ?_⟩
  · rw [rd_setTileStates_below _ _ _ below, rd_wr_same]
    exact Nat.mod_eq_of_lt hv
  · rw [rd_setTileStates_below _ _ _ hg, rd_wr_ne _ _ hne]

theorem exec_scatterOverrun {s : State} (h : s.live = true) (p : Nat) :
    exec (.scatterOverrun p) s = .next (scatterOverrun s p) :=
  congrArg Host.Outcome.next (engine_of_live h _)

/-- A booking left open at the last beat stalls the partition: the cause booking, then the tiles' states (R266). -/
theorem scatterOverrun_of_open {s : State} {p : Nat} (hs : (s.part p).stage = .scatter) (hb : (s.part p).bookings ≠ []) :
    scatterOverrun s p = (stallAssert s p .booking).updPart p (fun y => { y with
      stall := { y.stall with seen := if y.stall.seen.contains 4 then y.stall.seen else y.stall.seen ++ [4] } }) := by
  simp [scatterOverrun, hs, hb]

/-- A stall that asserts on a partition with a context: the cause, the partition's state, the tiles' states (R33). -/
theorem stallAssert_of_busy {s : State} {p : Nat} (h : (s.part p).busy = true) (c : Cause) :
    stallAssert s p c = setTileStates ((s.updPart p (fun x => { x with stall := x.stall.put c true })).wr
      (Reg.ITN_P_STATUS_STATE p) 3) p 6 := by
  simp only [stallAssert, h, if_true]

/-- What an asserted stall changes of its partition, its registers and its tiles' states. -/
theorem stallAssert_effect {s t : State} {p : Nat} {c : Cause} (hp : p < 2) (h : (s.part p).busy = true)
    (ht : t = stallAssert s p c) :
    t.part p = { s.part p with stall := (s.part p).stall.put c true } ∧ t.rd (Reg.ITN_P_STATUS_STATE p) = 3 ∧
    (∀ n ∈ (s.part p).tiles, t.rd (Reg.TIL_STATUS_STATE n) = 6) ∧ t.dram = s.dram := by
  rw [stallAssert_of_busy h] at ht
  obtain ⟨regs, hstate, htiles, -⟩ := setStates_effect hp (by decide) (by decide) ht
  rw [part_updPart_same] at htiles
  refine ⟨?_, hstate, htiles, ?_⟩
  · rw [part_of_onlyRegs regs, part_updPart_same]
  · rw [regs]
    exact dram_updPart s p _

/-! The end of the scatter. -/

/-- With every trace point masked, nothing is traced. -/
theorem trace_of_masked {s : State} (h : s.rd Reg.KPR_TRACE_MASK = 0) (g code : Nat) (d : List Nat) :
    s.trace g code d = s := by
  simp [State.trace, h]

/-- Settles O22: a live part runs the event, and the case of each clause picks the branch that the event takes. -/
theorem scatter : Obligations.Scatter := by
  unfold Obligations.Scatter
  refine ⟨?begins, ?issued, ?held, ?conflict, ?fallback, ?parity, ?overrun, ?ends⟩
  case begins =>
    intro p tile logits et rt s _ hl hs hst
    refine congrArg Host.Outcome.next ((engine_of_live hl _).trans ?_)
    simp [scatterBegin, hs, hst, Stall.on]
  case issued =>
    intro p i b s _ hl hs hi hb ha hh
    have issue (fault : Bool) := (exec_bookingIssue hl p i fault).trans
      (congrArg Host.Outcome.next (bookingIssue_of_open hs hi hb ha hh fault))
    refine ⟨fun hsize => ⟨fun hclean hfree => ⟨fun hok => ?_, fun hok => ?_⟩, ?_⟩, fun hsize fault => ?_⟩
    · simp [issue, Nat.not_lt.mpr hsize, conflicts_of_clean hclean, hfree, hok]
    · simp [issue, Nat.not_lt.mpr hsize, conflicts_of_clean hclean, hfree, hok]
    · simp [issue, Nat.not_lt.mpr hsize]
    · simp [issue, hsize]
  case held =>
    intro p i fault b s _ hl hb hh
    rw [exec_bookingIssue hl, bookingIssue_of_held hb hh]
  case conflict =>
    intro p i b w s _ hl hs hi hb ha hh hsize hw ho hd hm
    refine ⟨_, ?_, abortBooking_effect ha rfl⟩
    rw [exec_bookingIssue hl, bookingIssue_of_open hs hi hb (by omega) hh]
    simp [Nat.not_lt.mpr hsize, conflicts_of_dirty hw ho hd hm]
  case fallback =>
    intro p b s _ hl hb
    refine congrArg Host.Outcome.next ((engine_of_live hl _).trans ?_)
    simp only [bookingFallback, hb]
  case parity =>
    intro s hl
    exact congrArg Host.Outcome.next (engine_of_live hl _)
  case overrun =>
    intro p s hp hl hs hb
    have busy : (s.part p).busy = true := by simp [Part.busy, hs]
    obtain ⟨hpart, hstate, htiles, hdram⟩ := stallAssert_effect (c := .booking) hp busy rfl
    refine ⟨_, (exec_scatterOverrun hl p).trans (congrArg Host.Outcome.next (scatterOverrun_of_open hs hb)), ?_⟩
    refine ⟨?_, ?_, ?_, ?_, fun n hn => ?_, memKept_of_dram ?_⟩
    · rw [part_updPart_same, hpart]
      simp only [Stall.put]
      split <;> rfl
    · rw [part_updPart_same, hpart]
    · rw [part_updPart_same, hpart]
    · rw [rd_updPart, hstate]
    · rw [rd_updPart, htiles n hn]
    · rw [dram_updPart, hdram]
  case ends =>
    rintro p s u v _ hl hs hb hst hmask rfl rfl
    refine congrArg Host.Outcome.next ((engine_of_live hl _).trans ?_)
    simp only [scatterComplete, hs, hb, hst, trace_of_masked hmask, Stall.on, List.isEmpty_nil, beq_self_eq_true,
      Bool.not_true, Bool.not_false, Bool.and_self, if_true]

end Sys2Proof.Machine.Architecture
end

section
/-! Ramps, the end of a stall, lockstep and the transparent test (R34 to R37, R85, R92, R250). -/

namespace Sys2Proof.Machine.Architecture

/-! Changes of registers and tiles only. -/

/-- `t` is `s` but for registers and tiles. -/
def RegsTiles (s t : State) : Prop := t = { s with regs := t.regs, tiles := t.tiles }

theorem RegsTiles.wr {s t : State} (h : RegsTiles s t) (f : Fld) (v : Nat) : RegsTiles s (t.wr f v) := by
  rw [RegsTiles] at h ⊢
  rw [h]
  rfl

theorem RegsTiles.updTile {s t : State} (h : RegsTiles s t) (n : Nat) (f : Tile → Tile) : RegsTiles s (t.updTile n f) := by
  rw [RegsTiles] at h ⊢
  rw [h]
  rfl

theorem RegsTiles.part {s t : State} (h : RegsTiles s t) (p : Nat) : t.part p = s.part p := by
  rw [h]
  rfl

theorem RegsTiles.dram {s t : State} (h : RegsTiles s t) : t.dram = s.dram := by
  rw [h]

theorem RegsTiles.of_onlyRegs {s t : State} (h : s.onlyRegs t) : RegsTiles s t := by
  rw [RegsTiles]
  rw [State.onlyRegs] at h
  rw [h]

theorem RegsTiles.trans {s t u : State} (a : RegsTiles s t) (b : RegsTiles t u) : RegsTiles s u := by
  rw [RegsTiles] at a b ⊢
  rw [b, a]

/-! Ramp steps in a gap. -/

theorem exec_rampStep {s : State} (h : s.live = true) (tile arr : Nat) (up : Bool) :
    exec (.rampStep tile arr up) s = .next (rampStep s tile arr up) :=
  congrArg Host.Outcome.next (engine_of_live h _)

/-- A partition inside a step does not wait. -/
theorem stage_ne_waiting_of_inStep {x : Part} (h : x.inStep = true) : (x.stage == .waiting) = false := by
  cases hs : x.stage <;> simp_all [Part.inStep]

/-- In a gap of a running step, the steps down come first, as many as R85 gives, and then as many up. -/
theorem rampAllowed_in_gap {s : State} {p n a : Nat} (hin : (s.part p).inStep = true) (hst : (s.part p).stall = {})
    (up : Bool) :
    rampAllowed s p n a up =
      let k := gapSteps (s.rd (Reg.ITN_P_STATUS_DIVIDER p)) (gapNow s p n a)
      if up then ((s.tile n).arr a).gapDown == k && decide (((s.tile n).arr a).gapUp < k)
      else decide (((s.tile n).arr a).gapDown < k) && ((s.tile n).arr a).gapUp == 0 := by
  simp [rampAllowed, hin, hst, Stall.any, Stall.on, stage_ne_waiting_of_inStep hin]

/-- A ramp step that may not occur changes nothing. -/
theorem rampStep_of_not_allowed {s : State} {tile arr p : Nat} {up : Bool} (hp : partOfTile s tile = some p)
    (h : rampAllowed s p tile arr up = false) : rampStep s tile arr up = s := by
  simp [rampStep, hp, h]

/-- A ramp step of a running step changes the array's duty and its count in the gap by one, and is counted. -/
theorem rampStep_in_gap {s : State} {tile arr p : Nat} {up : Bool} (hp : partOfTile s tile = some p)
    (hin : (s.part p).inStep = true) (hst : (s.part p).stall = {}) (h : rampAllowed s p tile arr up = true)
    (hd : (if up then decide (((s.tile tile).arr arr).duty < 16) else decide (0 < ((s.tile tile).arr arr).duty)) = true) :
    rampStep s tile arr up = (s.updTile tile (fun t => t.updArr arr (fun a => { a with
      duty := if up then ((s.tile tile).arr arr).duty + 1 else ((s.tile tile).arr arr).duty - 1
      gapDown := if up then a.gapDown else a.gapDown + 1
      gapUp := if up then a.gapUp + 1 else a.gapUp }))).inc (Reg.TIL_ARR_RAMP tile arr) := by
  have gap : b2n (s.part p).inGap = 1 := by simp [Part.inGap, hin, hst, Stall.on, b2n]
  simp only [rampStep, hp, h, hd, gap, Bool.and_self, if_true]
  rw [if_neg]
  change ¬ ((s.part p).stage == .waiting && _) = true
  simp [stage_ne_waiting_of_inStep hin]

/-! The end of a stall. -/

theorem exec_stallEnd {s : State} (h : s.live = true) (p beats : Nat) :
    exec (.stallEnd p beats) s = .next (stallEnd s p beats) :=
  congrArg Host.Outcome.next (engine_of_live h _)

/-- One array's idle time in a stall of some beats (R36, R98). -/
def idleInStall (d beats n a : Nat) (t : State) : State :=
  countIdle t n a d (64 * beats)
    (if ((t.tile n).arr a).gapDuty - ((t.tile n).arr a).duty = 16 then 64 * beats - (3000 + 32 * rampT d) else 0)

/-- The idle times of a partition's arrays are counted one after the other. -/
theorem countStall_eq (s : State) (p beats : Nat) :
    countStall s p beats = overList (s.part p).tiles (fun n t => idleInStall (s.rd (Reg.ITN_P_STATUS_DIVIDER p)) beats n 1
      (idleInStall (s.rd (Reg.ITN_P_STATUS_DIVIDER p)) beats n 0 t)) s := rfl

theorem idleInStall_onlyRegs (d beats n a : Nat) (t : State) : t.onlyRegs (idleInStall d beats n a t) := rfl

/-- A register below the tiles' blocks is none of an array. -/
theorem rd_idleInStall_below (d beats n a : Nat) (t : State) {g : Fld} (hg : g.key < (Reg.TIL_STATUS_STATE 0).key) :
    (idleInStall d beats n a t).rd g = t.rd g := by
  simp only [Fld.key, Reg.TIL_STATUS_STATE] at hg
  simp only [idleInStall, countIdle, State.add]
  rw [rd_wr_ne, rd_wr_ne] <;> simp only [Fld.key, Reg.TIL_ARR_FILLER, Reg.TIL_ARR_GATED] <;> omega

/-- Counting the idle times of a stall changes registers only. -/
theorem countStall_onlyRegs (s : State) (p beats : Nat) : s.onlyRegs (countStall s p beats) := by
  rw [countStall_eq]
  exact overList_keeps (P := s.onlyRegs) _ _
    (fun n _ t ht => onlyRegs_trans (onlyRegs_trans ht (idleInStall_onlyRegs _ _ n 0 t))
      (idleInStall_onlyRegs _ _ n 1 _)) s rfl

theorem rd_countStall_below (s : State) (p beats : Nat) {g : Fld} (hg : g.key < (Reg.TIL_STATUS_STATE 0).key) :
    (countStall s p beats).rd g = s.rd g := by
  rw [countStall_eq]
  refine overList_keeps (P := fun t => t.rd g = s.rd g) _ _ (fun n _ t ht => ?_) s rfl
  rw [rd_idleInStall_below _ _ _ _ _ hg, rd_idleInStall_below _ _ _ _ _ hg, ht]

/-- Charging a stall changes registers only. -/
theorem chargeStall_onlyRegs (s : State) (p beats : Nat) (l : List Nat) : s.onlyRegs (chargeStall s p beats l) := by
  have causes : s.onlyRegs (overList l (fun c t => t.add (stallCounter p c) beats) s) :=
    overList_keeps (P := s.onlyRegs) _ _ (fun _ _ t ht => onlyRegs_trans ht (onlyRegs_wr t _ _)) s rfl
  exact onlyRegs_trans causes (onlyRegs_wr _ _ _)

/-- The total of a partition's stalls is no cause's counter. -/
theorem stallCounter_ne_total (p c : Nat) : (stallCounter p c).key ≠ (Reg.ITN_P_STALL_TOTAL p).key := by
  unfold stallCounter
  split <;> simp only [Fld.key, Reg.ITN_P_STALL_TOTAL, Reg.ITN_P_STALL_RETRY, Reg.ITN_P_STALL_DROOP,
    Reg.ITN_P_STALL_CLOCK, Reg.ITN_P_STALL_BOOKING] <;> omega

/-- A stall's beats go to the total once, whatever its causes (R35). -/
theorem rd_total_chargeStall (s : State) (p beats : Nat) (l : List Nat) :
    (chargeStall s p beats l).rd (Reg.ITN_P_STALL_TOTAL p) =
      (s.rd (Reg.ITN_P_STALL_TOTAL p) + beats) % 2 ^ (Reg.ITN_P_STALL_TOTAL p).width := by
  have causes : (overList l (fun c t => t.add (stallCounter p c) beats) s).rd (Reg.ITN_P_STALL_TOTAL p) =
      s.rd (Reg.ITN_P_STALL_TOTAL p) :=
    overList_keeps (P := fun t => t.rd (Reg.ITN_P_STALL_TOTAL p) = s.rd (Reg.ITN_P_STALL_TOTAL p)) _ _
      (fun c _ _ ht => (rd_wr_ne _ _ (stallCounter_ne_total p c)).trans ht) s rfl
  rw [chargeStall, State.add, rd_wr_same, causes]

/-- One array of a stalled partition goes back to the duty that its gap gives (R36). -/
def arrBack (n a : Nat) (t : State) : State :=
  (t.add (Reg.TIL_ARR_RAMP n a) (((t.tile n).arr a).gapDuty - ((t.tile n).arr a).duty)).updTile n
    (fun u => u.updArr a (fun y => { y with duty := ((t.tile n).arr a).gapDuty }))

/-- The arrays of a partition go back one after the other. -/
theorem stallBack_eq (s : State) (p : Nat) :
    stallBack s p = overList (s.part p).tiles (fun n t => arrBack n 1 (arrBack n 0 t)) s := rfl

theorem RegsTiles.arrBack {s t : State} (h : RegsTiles s t) (n a : Nat) : RegsTiles s (arrBack n a t) :=
  (h.wr _ _).updTile n _

theorem rd_arrBack_below (n a : Nat) (t : State) {g : Fld} (hg : g.key < (Reg.TIL_STATUS_STATE 0).key) :
    (arrBack n a t).rd g = t.rd g := by
  simp only [Fld.key, Reg.TIL_STATUS_STATE] at hg
  simp only [Architecture.arrBack, State.add, rd_updTile]
  rw [rd_wr_ne]
  simp only [Fld.key, Reg.TIL_ARR_RAMP]
  omega

theorem stallBack_regsTiles (s : State) (p : Nat) : RegsTiles s (stallBack s p) := by
  rw [stallBack_eq]
  exact overList_keeps (P := RegsTiles s) _ _ (fun n _ t ht => (ht.arrBack n 0).arrBack n 1) s rfl

theorem rd_stallBack_below (s : State) (p : Nat) {g : Fld} (hg : g.key < (Reg.TIL_STATUS_STATE 0).key) :
    (stallBack s p).rd g = s.rd g := by
  rw [stallBack_eq]
  refine overList_keeps (P := fun t => t.rd g = s.rd g) _ _ (fun n _ t ht => ?_) s rfl
  rw [rd_arrBack_below _ _ _ hg, rd_arrBack_below _ _ _ hg, ht]

/-- What the tiles' arrays are once array `a` of tile `n` is back. -/
theorem arr_arrBack (t : State) (n a m b : Nat) :
    ((arrBack n a t).tile m).arr b = if n = m ∧ (a = 0 ↔ b = 0)
      then { (t.tile m).arr b with duty := ((t.tile m).arr b).gapDuty } else (t.tile m).arr b := by
  unfold arrBack
  by_cases hm : n = m
  · subst hm
    rw [tile_updTile_same]
    by_cases ha : a = 0 <;> by_cases hb : b = 0 <;> simp [Tile.updArr, Tile.arr, State.add, ha, hb]
  · rw [tile_updTile_ne _ _ hm]
    simp [hm, State.add]

/-- The duty that its gap gives an array does not depend on the duty it has. -/
theorem gapDuty_arrBack (t : State) (n a m b : Nat) :
    (((arrBack n a t).tile m).arr b).gapDuty = ((t.tile m).arr b).gapDuty := by
  rw [arr_arrBack]
  split <;> rfl

/-- Array `b` of tile `m` has the duty `c`, and its gap gives it that duty. -/
def ArrAt (m b c : Nat) (t : State) : Prop := ((t.tile m).arr b).gapDuty = c ∧ ((t.tile m).arr b).duty = c

theorem arrAt_arrBack_same {t : State} {n a c : Nat} (h : ((t.tile n).arr a).gapDuty = c) :
    ArrAt n a c (arrBack n a t) :=
  ⟨(gapDuty_arrBack t n a n a).trans h, by simp [arr_arrBack, h]⟩

theorem ArrAt.arrBack {t : State} {m b c : Nat} (h : ArrAt m b c t) (n a : Nat) : ArrAt m b c (arrBack n a t) := by
  obtain ⟨hgap, hduty⟩ := h
  refine ⟨(gapDuty_arrBack t n a m b).trans hgap, ?_⟩
  rw [arr_arrBack]
  split
  · exact hgap
  · exact hduty

/-- After a stall each array of the partition has the duty at which the stall found it (R36). -/
theorem duty_stallBack {s : State} {p n a : Nat} (hn : n ∈ (s.part p).tiles) (ha : a < 2) :
    (((stallBack s p).tile n).arr a).duty = ((s.tile n).arr a).gapDuty := by
  generalize hc : ((s.tile n).arr a).gapDuty = c
  suffices ArrAt n a c (stallBack s p) from this.2
  rw [stallBack_eq]
  refine overList_reaches (P := fun t => ((t.tile n).arr a).gapDuty = c) hn
    (fun m _ t ht => by rw [gapDuty_arrBack, gapDuty_arrBack, ht]) (fun t ht => ?_)
    (fun m _ t ht => (ht.arrBack m 0).arrBack m 1) s hc
  obtain rfl | rfl : a = 0 ∨ a = 1 := by omega
  · exact (arrAt_arrBack_same ht).arrBack n 1
  · exact arrAt_arrBack_same ((gapDuty_arrBack t n 0 n 1).trans ht)

/-- The account of a stall of `beats` beats: idle times counted, arrays ramped back, beats charged (R35, R36). -/
def stallAccount (s : State) (p beats : Nat) : State :=
  chargeStall (stallBack (countStall s p beats) p) p beats ((s.part p).stall.seen.filter (fun c => decide (c < 4)))

/-- The account changes registers and tiles only. -/
theorem stallAccount_regsTiles (s : State) (p beats : Nat) : RegsTiles s (stallAccount s p beats) :=
  ((RegsTiles.of_onlyRegs (countStall_onlyRegs s p beats)).trans (stallBack_regsTiles _ p)).trans
    (RegsTiles.of_onlyRegs (chargeStall_onlyRegs _ p beats _))

/-- The account adds the beats to the total once. -/
theorem rd_total_stallAccount (s : State) {p : Nat} (hp : p < 2) (beats : Nat) :
    (stallAccount s p beats).rd (Reg.ITN_P_STALL_TOTAL p) =
      (s.rd (Reg.ITN_P_STALL_TOTAL p) + beats) % 2 ^ (Reg.ITN_P_STALL_TOTAL p).width := by
  have below : (Reg.ITN_P_STALL_TOTAL p).key < (Reg.TIL_STATUS_STATE 0).key := by
    simp only [Fld.key, Reg.ITN_P_STALL_TOTAL, Reg.TIL_STATUS_STATE]
    omega
  rw [stallAccount, rd_total_chargeStall, rd_stallBack_below _ p below, rd_countStall_below s p beats below]

/-- The account leaves every array of the partition at the duty at which the stall found it. -/
theorem duty_stallAccount (s : State) {p n a : Nat} (beats : Nat) (hn : n ∈ (s.part p).tiles) (ha : a < 2) :
    (((stallAccount s p beats).tile n).arr a).duty = ((s.tile n).arr a).gapDuty := by
  have counted : s.onlyRegs (countStall s p beats) := countStall_onlyRegs s p beats
  have charged : (stallBack (countStall s p beats) p).onlyRegs (stallAccount s p beats) := chargeStall_onlyRegs _ p beats _
  have back : n ∈ ((countStall s p beats).part p).tiles := by
    rw [part_of_onlyRegs counted]
    exact hn
  rw [tile_of_onlyRegs charged, duty_stallBack back ha, tile_of_onlyRegs counted]

/-- A stall of a step whose causes have cleared ends: its account is drawn up, and partition and tiles run (R34 to R36). -/
theorem stallEnd_of_inStep {s : State} {p : Nat} (hin : (s.part p).inStep = true)
    (hany : (s.part p).stall.any = false) (hseen : (s.part p).stall.seen ≠ []) (beats : Nat) :
    stallEnd s p beats = setTileStates (((stallAccount s p beats).updPart p (fun y => { y with stall := {} })).wr
      (Reg.ITN_P_STATUS_STATE p) 2) p 5 := by
  simp [stallEnd, stallAccount, hin, hany, hseen, Stall.on, stage_ne_waiting_of_inStep hin]

/-- What the end of a stall in a step changes of its partition, its registers and its tiles. -/
theorem stallEnd_effect {s t : State} {p beats : Nat} (hp : p < 2) (hin : (s.part p).inStep = true)
    (hany : (s.part p).stall.any = false) (hseen : (s.part p).stall.seen ≠ []) (ht : t = stallEnd s p beats) :
    t.part p = { s.part p with stall := {} } ∧
    t.rd (Reg.ITN_P_STALL_TOTAL p) =
      (s.rd (Reg.ITN_P_STALL_TOTAL p) + beats) % 2 ^ (Reg.ITN_P_STALL_TOTAL p).width ∧
    t.rd (Reg.ITN_P_STATUS_STATE p) = 2 ∧
    (∀ n ∈ (s.part p).tiles, t.rd (Reg.TIL_STATUS_STATE n) = 5 ∧
      ∀ a < 2, ((t.tile n).arr a).duty = ((s.tile n).arr a).gapDuty) ∧
    t.dram = s.dram := by
  rw [stallEnd_of_inStep hin hany hseen] at ht
  have account := stallAccount_regsTiles s p beats
  obtain ⟨regs, hstate, htiles, hkept⟩ := setStates_effect hp (by decide) (by decide) ht
  rw [part_updPart_same, account.part] at htiles
  refine ⟨?_, ?_, hstate, fun n hn => ⟨htiles n hn, fun a ha => ?_⟩, ?_⟩
  · rw [part_of_onlyRegs regs, part_updPart_same, account.part]
  · rw [hkept, rd_updPart, rd_total_stallAccount s hp] <;>
      simp only [Fld.key, Reg.ITN_P_STALL_TOTAL, Reg.ITN_P_STATUS_STATE, Reg.TIL_STATUS_STATE] <;> omega
  · rw [← duty_stallAccount s beats hn ha, tile_of_onlyRegs regs, State.tile, tiles_updPart, State.tile]
  · rw [(RegsTiles.of_onlyRegs regs).dram, dram_updPart, account.dram]

/-! The transparent test. -/

theorem exec_transparentTestBeat {s : State} (h : s.live = true) (tile bank seg beat : Nat) (bad lost : Bool) :
    exec (.transparentTestBeat tile bank seg beat bad lost) s = .next (testBeat s tile bank seg beat bad lost) :=
  congrArg Host.Outcome.next (engine_of_live h _)

/-- The test of a tile moves on by the 8 lines of a beat, after a bank's last to the next bank (R250). -/
def moveTest (bank line : Nat) (u : Tile) : Tile :=
  { u with testBank := if 4088 ≤ line then (bank + 1) % 32 else bank, testLine := if 4088 ≤ line then 0 else line + 8 }

/-- The test moves on in its tile, and after the tile's last bank to the next tile (R250). -/
def moveOn (s : State) (tile bank line : Nat) : State :=
  if 4088 ≤ line ∧ bank = 31 then
    { s.updTile tile (moveTest bank line) with chip := { s.chip with testTile := (tile + 1) % 32 } }
  else s.updTile tile (moveTest bank line)

/-- A beat in its place that finds nothing moves the test on, and counts a region that it completes (R250). -/
theorem testBeat_in_place {s : State} {tile bank line seg beat p : Nat} {im : Image} (hp : partOfTile s tile = some p)
    (hplace : testPlace s = some (tile, bank, line)) (hen : s.flag Reg.MEM_SCR_TEST_CTRL_ENABLE = true)
    (hin : (s.part p).inStep = true) (hst : (s.part p).stall = {}) (him : s.image (s.part p).slot = some im)
    (hseg : segRuns (s.part p) (s.partImage p) seg 0 = true)
    (hwin : testWindow (s.partImage p) im.windowLog2 tile seg beat = true) :
    testBeat s tile bank seg beat false false =
      if line % 64 = 56 then (moveOn s tile bank line).inc Reg.MEM_SCR_TESTED else moveOn s tile bank line := by
  simp [testBeat, moveOn, moveTest.eq_unfold, hp, hplace, hen, hin, hst, him, hseg, hwin, Stall.on]

/-- Moving the test on changes of the tiles the one in turn. -/
theorem tiles_moveOn (s : State) (tile bank line : Nat) :
    (moveOn s tile bank line).tiles = (s.updTile tile (moveTest bank line)).tiles := by
  unfold moveOn
  split <;> rfl

/-- Moving the test on changes nothing but the tile's place and the tile in turn. -/
theorem moveOn_frame (s : State) (tile bank line : Nat) : moveOn s tile bank line =
    { s with tiles := (moveOn s tile bank line).tiles, chip := (moveOn s tile bank line).chip } := by
  unfold moveOn
  split <;> rfl

/-- The tile of the test has moved on. -/
theorem tile_moveOn_same (s : State) (tile bank line : Nat) :
    (moveOn s tile bank line).tile tile = moveTest bank line (s.tile tile) := by
  rw [State.tile, tiles_moveOn]
  exact tile_updTile_same s tile _

/-- Every other tile is as before. -/
theorem tile_moveOn_ne (s : State) {tile n : Nat} (bank line : Nat) (h : n ≠ tile) :
    (moveOn s tile bank line).tile n = s.tile n := by
  rw [State.tile, tiles_moveOn]
  exact tile_updTile_ne s _ h.symm

/-- A completed region counts one in its register, and nothing else changes. -/
theorem countRegion_effect {s t : State} {done : Prop} [Decidable done]
    (ht : t = if done then s.inc Reg.MEM_SCR_TESTED else s) :
    t.rd Reg.MEM_SCR_TESTED =
      (if done then (s.rd Reg.MEM_SCR_TESTED + 1) % 2 ^ Reg.MEM_SCR_TESTED.width else s.rd Reg.MEM_SCR_TESTED) ∧
    s.regsKept t [Reg.MEM_SCR_TESTED] ∧ s.onlyRegs t := by
  by_cases h : done
  · rw [if_pos h] at ht ⊢
    subst ht
    exact ⟨rd_inc_same s _, regsKept_inc s _, rfl⟩
  · rw [if_neg h] at ht ⊢
    subst ht
    exact ⟨rfl, fun _ _ => rfl, rfl⟩

/-- Settles O26: a live part runs the event; a ramp step, the end of a stall, a lockstep error and a test beat each take
the branch that the clause's conditions name. -/
theorem rampsAndStalls : Obligations.RampsAndStalls := by
  unfold Obligations.RampsAndStalls
  refine ⟨?ramps, ?stallEnds, ?lockstep, ?test⟩
  case ramps =>
    rintro tile arr p k y s hl _ hp hin hst rfl rfl
    have allowed (up : Bool) := rampAllowed_in_gap (n := tile) (a := arr) hin hst up
    refine ⟨fun hdown hup hduty => ?_, fun hdown hup hduty => ?_, fun hdown => ?_, fun hup => ?_⟩
    · rw [exec_rampStep hl, rampStep_in_gap hp hin hst (by simp [allowed, hdown, hup]) (by simp [hduty])]
      rfl
    · rw [exec_rampStep hl, rampStep_in_gap hp hin hst (by simp [allowed, hdown, hup]) (by simp [hduty])]
      rfl
    · rw [exec_rampStep hl, rampStep_of_not_allowed hp (by simp [allowed, Nat.not_lt.mpr hdown])]
    · rw [exec_rampStep hl, rampStep_of_not_allowed hp (by simp [allowed, Nat.not_lt.mpr hup])]
  case stallEnds =>
    intro p beats s hp hl hin hany hseen
    obtain ⟨hpart, htotal, hstate, htiles, hdram⟩ := stallEnd_effect (beats := beats) hp hin hany hseen rfl
    refine ⟨_, exec_stallEnd hl p beats, ?_, ?_, ?_, ?_, htotal, hstate, fun n hn => ?_, memKept_of_dram hdram⟩
    · rw [hpart]
    · rw [hpart]
    · rw [hpart]
    · rw [hpart]
    · obtain ⟨hfive, hduty⟩ := htiles n hn
      exact ⟨hfive, hduty 0 (by decide), hduty 1 (by decide)⟩
  case lockstep =>
    intro tile p s hl hp
    refine congrArg Host.Outcome.next ((engine_of_live hl _).trans ?_)
    simp only [hp, tileErr]
  case test =>
    intro tile bank line seg beat p im s hl hp hplace hen hin hst him hseg hwin
    obtain ⟨hcount, hregs, honly⟩ := countRegion_effect (testBeat_in_place hp hplace hen hin hst him hseg hwin)
    have hmove := moveOn_frame s tile bank line
    have regs (g : Fld) : (moveOn s tile bank line).rd g = s.rd g := rd_congr (by rw [hmove]) g
    have same := (tile_of_onlyRegs honly tile).trans (tile_moveOn_same s tile bank line)
    refine ⟨_, exec_transparentTestBeat hl tile bank seg beat false false, ?_, ?_, ?_, ?_, fun n hn => ?_, ?_,
      fun g hg => ?_, ?_⟩
    · rw [same, moveTest]
    · rw [same, moveTest]
    · rw [same, moveTest]
    · rw [same, moveTest]
    · rw [tile_of_onlyRegs honly, tile_moveOn_ne s bank line hn]
    · rw [hcount, regs]
    · rw [hregs g hg, regs]
    · rw [honly, hmove]

end Sys2Proof.Machine.Architecture
end

section
/-! What the shared parts of a command do to the registers: gates, events, error reports and the end of a command. -/

namespace Sys2Proof.Machine.Architecture

/-! The gates, passed. -/

/-- A host write that reaches its register is performed. -/
theorem host_of_ok {s : State} {off : Nat} (h : s.hostOk off = true) (k : State → State) : s.host off k = k s := by
  simp [State.host, h]

/-- With Keeper ready its command is performed. -/
theorem keeper_of_ready {s : State} (h : s.ready = true) (c : Fld) (k : State → State) : s.keeper c k = k s := by
  simp [State.keeper, h]

/-! Several writes. -/

/-- Writes to other places leave a field alone. -/
theorem rd_wrs_ne {l : List (Fld × Nat)} {g : Fld} (h : ∀ x ∈ l, x.1.key ≠ g.key) (s : State) :
    (s.wrs l).rd g = s.rd g := by
  induction l generalizing s with
  | nil => rfl
  | cons x rest ih =>
    have first : (s.wr x.1 x.2).rd g = s.rd g := rd_wr_ne s _ (h x (by simp))
    exact (ih (fun y hy => h y (List.mem_cons_of_mem _ hy)) _).trans first

/-- Writes to fields at different places: each field reads its value, cut to its width. -/
theorem rd_wrs_mem {l : List (Fld × Nat)} {f : Fld} {v : Nat} (h : (f, v) ∈ l) (distinct : (l.map (·.1.key)).Nodup)
    (s : State) : (s.wrs l).rd f = v % 2 ^ f.width := by
  induction l generalizing s with
  | nil => cases h
  | cons x rest ih =>
    obtain ⟨fresh, distinct⟩ := List.nodup_cons.mp distinct
    rcases List.mem_cons.mp h with rfl | h
    · have later : ∀ y ∈ rest, y.1.key ≠ f.key := fun y hy e => fresh (List.mem_map.mpr ⟨y, hy, e⟩)
      exact (rd_wrs_ne later _).trans (rd_wr_same s f v)
    · exact ih h distinct _

/-- Likewise for a value that fits. -/
theorem rd_wrs_mem_of_lt {l : List (Fld × Nat)} {f : Fld} {v : Nat} (h : (f, v) ∈ l) (distinct : (l.map (·.1.key)).Nodup)
    (hv : v < 2 ^ f.width) (s : State) : (s.wrs l).rd f = v :=
  (rd_wrs_mem h distinct s).trans (Nat.mod_eq_of_lt hv)

theorem onlyRegs_wrs (s : State) (l : List (Fld × Nat)) : s.onlyRegs (s.wrs l) := by
  obtain ⟨r, hr⟩ := wrs_shape l s
  rw [hr]
  rfl

/-! Fields that events and reports leave alone. -/

/-- A field that neither a vector's pending bit nor the error block holds. -/
def Plain (g : Fld) : Prop :=
  g.key < 0x308000 * 64 ∨ (0x308100 * 64 ≤ g.key ∧ g.key < 0x2C00000 * 64) ∨ 0x3000000 * 64 ≤ g.key

/-- Vectors fit as long as their registers are as before. -/
theorem vectorsFit_of_rd {s t : State} (h : ∀ i < 19, t.rd (Reg.HIF_IVEC_VECTOR i) = s.rd (Reg.HIF_IVEC_VECTOR i))
    (fit : s.vectorsFit) : t.vectorsFit := fun i hi => by
  rw [h i hi]
  exact fit i hi

/-- A register of vectors is plain. -/
theorem plain_ivec {i : Nat} (h : i < 19) : Plain (Reg.HIF_IVEC_VECTOR i) := by
  simp only [Plain, Fld.key, Reg.HIF_IVEC_VECTOR]
  omega

/-- The pending bit of a vector of the table lies in the table of pending bits. -/
theorem rd_setPba {s : State} {v : Nat} (hv : v < 2048) (b : Bool) {g : Fld} (hg : Plain g) :
    (s.setPba v b).rd g = s.rd g := by
  refine rd_wr_ne s _ ?_
  simp only [Plain, Fld.key, Reg.MSIX_PBA_BITS] at hg ⊢
  omega

/-- Sending changes no register. -/
theorem rd_emit (s : State) (e : Emit) (g : Fld) : (s.emit e).rd g = s.rd g := by
  obtain ⟨_, _, he⟩ := emit_shape s e
  rw [he]
  rfl

theorem rd_msix {s : State} {v : Nat} (hv : v < 2048) {g : Fld} (hg : Plain g) : (s.msix v).rd g = s.rd g := by
  unfold State.msix
  split
  · rfl
  · split
    · exact rd_setPba hv true hg
    · exact rd_emit s _ g

/-- Every plain field but the event's bit keeps its value. -/
theorem rd_raise {s : State} {n : Nat} {b : Fld} (e : Fld) {g : Fld} (hv : s.rd (Reg.HIF_IVEC_VECTOR n) < 2048)
    (hg : Plain g) (hne : b.key ≠ g.key) :
    (s.raise n b e).rd g = s.rd g := by
  unfold State.raise
  split
  · rfl
  · split
    · rw [← rd_wr_ne s 1 hne]
      exact rd_msix hv hg
    · exact rd_wr_ne s 1 hne

/-- The event's bit is set. -/
theorem rd_raise_same {s : State} {n : Nat} {b : Fld} (e : Fld) (hv : s.rd (Reg.HIF_IVEC_VECTOR n) < 2048)
    (hg : Plain b) (hw : b.width = 1) : (s.raise n b e).rd b = 1 := by
  have set : (s.wr b 1).rd b = 1 := by simp [hw]
  unfold State.raise
  split
  · next h => exact beq_iff_eq.mp h
  · split
    · rw [rd_msix hv hg, set]
    · exact set

/-- The class of a code is one of the twelve. -/
theorem errClass_lt (code : Nat) : errClass code < 12 := by
  unfold errClass
  split
  · decide
  · split
    · decide
    · split <;> decide

/-- A field of the error block is no plain one. -/
theorem key_ne_of_plain {b g : Fld} (hg : Plain g) (hlo : 0x2C00000 * 64 ≤ b.key) (hhi : b.key < 0x3000000 * 64) :
    b.key ≠ g.key := by
  unfold Plain at hg
  omega

/-- `t` is `s` but for fields of the error block and pending bits, as far as the registers go, where every vector is one
of the table's. -/
def Quiet (s t : State) : Prop := s.vectorsFit → ∀ g, Plain g → t.rd g = s.rd g

theorem Quiet.fit {s t : State} (h : Quiet s t) (fit : s.vectorsFit) : t.vectorsFit :=
  vectorsFit_of_rd (fun _ hi => h fit _ (plain_ivec hi)) fit

theorem Quiet.trans {s t u : State} (a : Quiet s t) (b : Quiet t u) : Quiet s u := fun fit g hg =>
  (b (a.fit fit) g hg).trans (a fit g hg)

theorem Quiet.of_regs {s t : State} (h : s.regs = t.regs) : Quiet s t := fun _ g _ => (rd_congr h g).symm

/-- A write in the error block. -/
theorem wr_quiet (s : State) {f : Fld} (v : Nat) (hlo : 0x2C00000 * 64 ≤ f.key) (hhi : f.key < 0x3000000 * 64) :
    Quiet s (s.wr f v) := fun _ _ hg => rd_wr_ne s v (key_ne_of_plain hg hlo hhi)

/-- An event of the error block. -/
theorem raiseErr_quiet (s : State) {b : Fld} (hlo : 0x2C00000 * 64 ≤ b.key) (hhi : b.key < 0x3000000 * 64) :
    Quiet s (s.raiseErr b) := fun fit _ hg =>
  rd_raise _ (fit 9 (by decide)) hg (key_ne_of_plain hg hlo hhi)

theorem alertTest_quiet (s : State) (x : ErrRec) : Quiet s (s.alertTest x) := by
  unfold State.alertTest
  split
  · refine (raiseErr_quiet s (b := Reg.ERR_IRQ_STATUS_ALERT) (by decide) (by decide)).trans (Quiet.of_regs ?_)
    dsimp only
    split <;> rfl
  · exact Quiet.of_regs rfl

/-- An error report of one of the classes. -/
theorem report_quiet (s : State) {x : ErrRec} (hx : x.cls < 12) : Quiet s (s.report x) := by
  have hlo : 0x2C00000 * 64 ≤ (Reg.ERR_CLASS_CNT_COUNT x.cls).key := by
    simp only [Fld.key, Reg.ERR_CLASS_CNT_COUNT]
    omega
  have hhi : (Reg.ERR_CLASS_CNT_COUNT x.cls).key < 0x3000000 * 64 := by
    simp only [Fld.key, Reg.ERR_CLASS_CNT_COUNT]
    omega
  have counted := wr_quiet s (minNat (s.rd (Reg.ERR_CLASS_CNT_COUNT x.cls) + 1)
    (2 ^ (Reg.ERR_CLASS_CNT_COUNT x.cls).width - 1)) hlo hhi
  unfold State.report
  refine Quiet.trans ?_ (alertTest_quiet _ _)
  dsimp only
  split
  · exact counted.trans (Quiet.of_regs rfl)
  · refine (counted.trans (Quiet.of_regs ?_)).trans ((wr_quiet _ (f := Reg.ERR_LOST_BUF_COUNT) _ (by decide)
      (by decide)).trans (raiseErr_quiet _ (by decide) (by decide)))
    rfl

/-! The end of a command. -/

/-- A command of a block ends: its event is set, and a code other than 0 is recorded. -/
def finish (s : State) (n : Nat) (bit en : Fld) (code : Nat) (x : ErrRec) : State :=
  if code = 0 then s.raise n bit en else (s.raise n bit en).report x

/-- The end of a command changes registers, what is sent and the error path. -/
theorem finish_reports (s : State) (n : Nat) (bit en : Fld) (code : Nat) (x : ErrRec) :
    Reports s (finish s n bit en code x) := by
  have raised := (raise_sends s n bit en).reports
  unfold finish
  split
  · exact raised
  · exact raised.trans (report_reports _ _)

/-- A plain field other than the event's bit keeps its value, and the event's bit is set. -/
theorem rd_finish {s : State} {n : Nat} {bit : Fld} (en : Fld) (code : Nat) {x : ErrRec} (fit : s.vectorsFit)
    (hn : n < 19) (hx : x.cls < 12) (hbit : Plain bit) (hw : bit.width = 1)
    (hne : ∀ i < 19, bit.key ≠ (Reg.HIF_IVEC_VECTOR i).key) :
    (finish s n bit en code x).rd bit = 1 ∧
    ∀ g, Plain g → bit.key ≠ g.key → (finish s n bit en code x).rd g = s.rd g := by
  have raised {g : Fld} (hg : Plain g) (h : bit.key ≠ g.key) : (s.raise n bit en).rd g = s.rd g :=
    rd_raise en (fit n hn) hg h
  have fits : (s.raise n bit en).vectorsFit := vectorsFit_of_rd (fun i hi => raised (plain_ivec hi) (hne i hi)) fit
  have same : (s.raise n bit en).rd bit = 1 := rd_raise_same en (fit n hn) hbit hw
  unfold finish
  split
  · exact ⟨same, fun g hg h => raised hg h⟩
  · exact ⟨(report_quiet _ hx fits bit hbit).trans same, fun g hg h => (report_quiet _ hx fits g hg).trans (raised hg h)⟩

end Sys2Proof.Machine.Architecture
end

section
/-! Itinerary slots: loads, their end, and the binding of contexts (R61 to R70). -/

namespace Sys2Proof.Machine.Architecture

/-! A slot's image and the fields that follow from it. -/

/-- Setting a slot changes registers and the slots' images. -/
theorem setSlot_frame (s : State) (k state : Nat) (im : Option Image) :
    setSlot s k state im = { s with regs := (setSlot s k state im).regs, images := SMap.set imageBlank s.images k im } :=
  rfl

theorem image_setSlot (s : State) (k state : Nat) (im : Option Image) : (setSlot s k state im).image k = im :=
  SMap.get_set_same imageBlank s.images k im

/-- Setting a slot changes its STATE and PARTS alone. -/
theorem regsKept_setSlot (s : State) (k state : Nat) (im : Option Image) :
    s.regsKept (setSlot s k state im) [Reg.ITN_SLOT_STATE k, Reg.ITN_SLOT_PARTS k] := fun g hg =>
  (rd_wrs_ne (by simpa using hg) _).trans rfl

theorem rd_setSlot_state (s : State) (k : Nat) {state : Nat} (im : Option Image) (h : state < 8) :
    (setSlot s k state im).rd (Reg.ITN_SLOT_STATE k) = state := by
  refine rd_wrs_mem_of_lt (by simp) ?_ h _
  simp [Fld.key, Reg.ITN_SLOT_STATE, Reg.ITN_SLOT_PARTS]

/-! Load commands. -/

/-- A load command stores its slot and its source. -/
def loadStored (s : State) (k : Nat) (list : Bool) : State :=
  s.wrs [(Reg.ITN_LOAD_CTRL_SLOT, k), (Reg.ITN_LOAD_CTRL_SRC_LIST, b2n list)]

/-- Storing a load command changes no field outside ITN_LOAD_CTRL. -/
theorem rd_loadStored (s : State) (k : Nat) (list : Bool) {g : Fld} (hslot : Reg.ITN_LOAD_CTRL_SLOT.key ≠ g.key)
    (hlist : Reg.ITN_LOAD_CTRL_SRC_LIST.key ≠ g.key) : (loadStored s k list).rd g = s.rd g :=
  rd_wrs_ne (by simp [hslot, hlist]) s

/-- What the beginning of a load writes to the load registers. -/
def loadFields (k : Nat) : List (Fld × Nat) :=
  [(Reg.ITN_LOAD_STATUS_STATE, 1), (Reg.ITN_LOAD_STATUS_SLOT, k), (Reg.ITN_LOAD_STATUS_CODE, 0),
    (Reg.ITN_LOAD_DETAIL_DETAIL, 0), (Reg.ITN_LOAD_PROGRESS_BYTES, 0)]

/-- The load registers lie at different places, all of them below the slots' registers. -/
theorem loadFields_keys (k : Nat) : ((loadFields k).map (·.1.key)).Nodup ∧
    ∀ q ∈ (loadFields k).map (·.1.key), 0x100020 * 64 ≤ q ∧ q < 0x100040 * 64 := by
  have keys : (loadFields k).map (·.1.key) = (loadFields 0).map (·.1.key) := rfl
  rw [keys]
  decide

/-- A load begins: its slot is LOADING without an image, and code, DETAIL and progress are cleared (R63, R67). -/
def loadBegun (s : State) (k : Nat) : State :=
  let t := (setSlot s k 1 none).wrs (loadFields k)
  { t with loadLen := t.rd Reg.ITN_LOAD_LEN_LEN * 4096 }

/-- What a load command does with Keeper ready: refused while a load runs or with the slot in use, else it begins. -/
theorem loadGo_of_ready {s : State} (h : s.ready = true) (k : Nat) (list : Bool) :
    loadGo s k list =
      if loadRunning (loadStored s k list) then (loadStored s k list).wr Reg.ITN_LOAD_STATUS_CODE Code.ITN_E_LOAD_BUSY
      else if (loadStored s k list).rd (Reg.ITN_SLOT_BOUND_COUNT k) != 0 ||
          (loadStored s k list).rd (Reg.ITN_SLOT_STATE k) == 3 then
        loadRefuse (loadStored s k list) Code.ITN_E_SLOT_BUSY
      else loadBegun (loadStored s k list) k := by
  have ready : (loadStored s k list).ready = true := by
    rw [← h]
    simp only [State.ready, State.flag]
    rw [rd_loadStored s k list (by decide) (by decide)]
  rw [loadGo]
  exact keeper_of_ready ready _ _

/-- Storing a load command leaves the load in progress. -/
theorem loadRunning_loadStored (s : State) (k : Nat) (list : Bool) : loadRunning (loadStored s k list) = loadRunning s := by
  simp only [loadRunning]
  rw [rd_loadStored s k list (by decide) (by decide)]

/-- What the beginning of a load changes and leaves. -/
theorem loadBegun_effect {s t : State} {k : Nat} (hk : k < 8) (ht : t = loadBegun s k) :
    t.rd (Reg.ITN_SLOT_STATE k) = 1 ∧ t.rd Reg.ITN_LOAD_STATUS_STATE = 1 ∧ t.rd Reg.ITN_LOAD_STATUS_SLOT = k ∧
    t.rd Reg.ITN_LOAD_STATUS_CODE = 0 ∧ t.rd Reg.ITN_LOAD_DETAIL_DETAIL = 0 ∧ t.rd Reg.ITN_LOAD_PROGRESS_BYTES = 0 ∧
    t.image k = none ∧ t.loadLen = s.rd Reg.ITN_LOAD_LEN_LEN * 4096 ∧
    t = { s with regs := t.regs, images := t.images, loadLen := t.loadLen } := by
  have hrd (g : Fld) : t.rd g = ((setSlot s k 1 none).wrs (loadFields k)).rd g := by rw [ht]; rfl
  have hlen : t.loadLen = t.rd Reg.ITN_LOAD_LEN_LEN * 4096 := by rw [ht]; rfl
  have written {f : Fld} {v : Nat} (h : (f, v) ∈ loadFields k) (hv : v < 2 ^ f.width) : t.rd f = v := by
    rw [hrd]
    exact rd_wrs_mem_of_lt h (loadFields_keys k).1 hv _
  refine ⟨?_, written (by simp [loadFields]) (by decide), written (by simp [loadFields]) hk,
    written (by simp [loadFields]) (by decide), written (by simp [loadFields]) (by decide),
    written (by simp [loadFields]) (by decide), ?_, ?_, ?_⟩
  · rw [hrd, rd_wrs_ne, rd_setSlot_state s k none (by decide)]
    intro x hx
    have below := (loadFields_keys k).2 _ (List.mem_map_of_mem hx)
    simp only [Fld.key, Reg.ITN_SLOT_STATE] at below ⊢
    omega
  · rw [ht]
    simp [loadBegun, setSlot, State.image]
  · rw [hlen, hrd, rd_wrs_ne, regsKept_setSlot]
    · simp [Fld.key, Reg.ITN_SLOT_STATE, Reg.ITN_SLOT_PARTS, Reg.ITN_LOAD_LEN_LEN]
      omega
    · intro x hx
      have above := (loadFields_keys k).2 _ (List.mem_map_of_mem hx)
      simp only [Fld.key, Reg.ITN_LOAD_LEN_LEN] at above ⊢
      omega
  · obtain ⟨r, hr⟩ := wrs_shape (loadFields k) (setSlot s k 1 none)
    rw [ht, loadBegun, hr, setSlot_frame]

/-! Bytes of DRAM. -/

/-- What a key reads as once the entries that fail a test are gone. -/
theorem get_keep {α : Type} (d : Nat → α) (p : Nat → Bool) (m : SMap α) (k : Nat) :
    SMap.get d (SMap.keep p m) k = if p k then SMap.get d m k else d k := by
  induction m with
  | nil => simp [SMap.keep, SMap.get]
  | cons e rest ih =>
    obtain ⟨j, v⟩ := e
    by_cases hj : j = k
    · subst hj
      by_cases hp : p j <;> simp [SMap.keep, SMap.get, hp, ih]
    · by_cases hp : p j <;> simp [SMap.keep, SMap.get, hp, hj, ih]

/-- Writing bytes leaves every byte outside their range alone. -/
theorem get_dramWrite_outside (bs : List Byte) (m : SMap Byte) (a : Nat) {b : Nat} (h : b < a ∨ a + bs.length ≤ b) :
    SMap.get dramBlank (dramWrite m a bs) b = SMap.get dramBlank m b := by
  induction bs generalizing m a with
  | nil => rfl
  | cons x rest ih =>
    rw [List.length_cons] at h
    rw [dramWrite, ih _ _ (by omega), SMap.get_set_ne _ _ _ (by omega)]

/-- Bytes written are read back. -/
theorem dramRead_dramWrite (bs : List Byte) (m : SMap Byte) (a : Nat) :
    dramRead (dramWrite m a bs) a bs.length = bs := by
  induction bs generalizing m a with
  | nil => rfl
  | cons x rest ih =>
    rw [List.length_cons, dramRead, dramWrite, get_dramWrite_outside _ _ _ (by omega), SMap.get_set_same, ih]

/-! The end of the DMA. -/

/-- The bytes that a load brings take the place of what the slot held (R62, R69). -/
def loadFilled (s : State) (bytes : List Byte) : State :=
  (wipeLoad s).mwrite (slotBase s (loadSlot s)) (bytes.take s.loadLen)

/-- The image's bytes lie in the slot, and every byte outside the load is as before. -/
theorem loadFilled_bytes (s : State) (bytes : List Byte) :
    (loadFilled s bytes).mread (slotBase s (loadSlot s)) (min bytes.length s.loadLen) = bytes.take s.loadLen ∧
    s.memKeptBut (loadFilled s bytes) (slotBase s (loadSlot s)) s.loadLen := by
  have len : min bytes.length s.loadLen = (bytes.take s.loadLen).length := by
    rw [List.length_take]
    omega
  refine ⟨?_, fun b hb => ?_⟩
  · rw [len]
    exact dramRead_dramWrite _ _ _
  · have wiped : SMap.get dramBlank (wipeLoad s).dram b = s.byteAt b := by
      rw [wipeLoad, dramZero, get_keep, if_pos (by simpa using hb)]
      rfl
    exact (get_dramWrite_outside _ _ _ (by omega)).trans wiped

/-- What the end of the DMA writes: slot `k` is VALIDATING, and the progress starts again. -/
def validatingFields (k : Nat) : List (Fld × Nat) :=
  [(Reg.ITN_SLOT_STATE k, 2), (Reg.ITN_LOAD_STATUS_STATE, 2), (Reg.ITN_LOAD_PROGRESS_BYTES, 0)]

theorem validatingFields_distinct (k : Nat) : ((validatingFields k).map (·.1.key)).Nodup := by
  simp [validatingFields, Fld.key, Reg.ITN_SLOT_STATE, Reg.ITN_LOAD_STATUS_STATE, Reg.ITN_LOAD_PROGRESS_BYTES]
  omega

/-- What the end of the DMA does while a load runs. -/
theorem dmaDone_of_loading {s : State} (h : s.rd Reg.ITN_LOAD_STATUS_STATE = 1) (bytes : List Byte) :
    dmaDone s bytes = (loadFilled s bytes).wrs (validatingFields (loadSlot s)) := if_pos h

theorem exec_itnDmaDone {s : State} (h : s.live = true) (bytes : List Byte) :
    exec (.itnDmaDone bytes) s = .next (dmaDone s bytes) := congrArg Host.Outcome.next (engine_of_live h _)

/-! Commands of the slots. -/

theorem exec_itnLoadGo {s : State} (h : s.hostOk Reg.ITN_LOAD_CTRL_SLOT.off = true) (k : Nat) (list : Bool) :
    exec (.itnLoadGo k list) s = .next (loadGo s k list) := congrArg Host.Outcome.next (host_of_ok h _)

/-- A header that passes its checks is stored, and only the progress follows. -/
theorem headerArrived_of_good {s : State} {bytes : List Byte} (h : s.rd Reg.ITN_LOAD_STATUS_STATE = 1)
    (good : headerChecks s bytes s.loadLen = none) :
    headerArrived s bytes =
      (s.mwrite (slotBase s (loadSlot s)) bytes).wr Reg.ITN_LOAD_PROGRESS_BYTES (minNat 256 s.loadLen) := by
  have good' : headerChecks ((s.mwrite (slotBase s (loadSlot s)) bytes).wr Reg.ITN_LOAD_PROGRESS_BYTES
      (minNat 256 s.loadLen)) bytes s.loadLen = none := by
    rw [← good]
    simp only [headerChecks]
    rw [rd_wr_ne _ _ (by decide), rd_wr_ne _ _ (by decide), rd_wr_ne _ _ (by decide)]
    rfl
  rw [headerArrived, if_pos h]
  dsimp only [loadLen_wr, loadLen_mwrite]
  rw [good']

/-- A FREE of an unbound slot that is VALID or FAILED empties it. -/
theorem slotFree_of_unbound {s : State} {k : Nat} (h : s.rd (Reg.ITN_SLOT_BOUND_COUNT k) = 0)
    (full : s.rd (Reg.ITN_SLOT_STATE k) = 3 ∨ s.rd (Reg.ITN_SLOT_STATE k) = 4) : slotFree s k = setSlot s k 0 none := by
  simp [slotFree, h, full]

/-- SLOT_SIZE is written with every slot EMPTY and no granule above the new bound in use. -/
theorem slotSizeWrite_of_empty {s : State} {size : Nat} (h : size < 4)
    (empty : ∀ k, k < 8 → s.rd (Reg.ITN_SLOT_STATE k) = 0)
    (room : usedAbove s (granAvailOf size (s.rd Reg.MEM_CFG_SETREC_GIB)) = false) :
    slotSizeWrite s size = s.wr Reg.ITN_CFG_SLOT_SIZE size := by
  have none_full : (List.range 8).any (fun k => s.rd (Reg.ITN_SLOT_STATE k) != 0) = false := by
    simp only [List.any_eq_false, List.mem_range]
    intro k hk
    simp [empty k hk]
  rw [slotSizeWrite, none_full, Nat.mod_eq_of_lt h, room]
  rfl

/-- Settles O17: each command reaches its slot, and its lemma says what it does there. -/
theorem itinerarySlots : Obligations.ItinerarySlots := by
  unfold Obligations.ItinerarySlots
  refine ⟨?begins, ?busy, ?header, ?dma, ?validated, ?fault, ?aborted, ?freed, ?size⟩
  case begins =>
    intro k list s hk hok hready hidle hbound hstate
    have stored {g : Fld} (ha : Reg.ITN_LOAD_CTRL_SLOT.key ≠ g.key) (hb : Reg.ITN_LOAD_CTRL_SRC_LIST.key ≠ g.key) :=
      rd_loadStored s k list ha hb
    have hgo : loadGo s k list = loadBegun (loadStored s k list) k := by
      rw [loadGo_of_ready hready, loadRunning_loadStored, hidle, stored, stored, hbound]
      · simp [hstate]
      all_goals simp only [Fld.key, Reg.ITN_SLOT_STATE, Reg.ITN_SLOT_BOUND_COUNT, Reg.ITN_LOAD_CTRL_SLOT,
          Reg.ITN_LOAD_CTRL_SRC_LIST]; omega
    have only : s.onlyRegs (loadStored s k list) := onlyRegs_wrs s _
    obtain ⟨hslot, hload, hof, hcode, hdetail, hbytes, himage, hlen, hframe⟩ := loadBegun_effect hk hgo
    have frame : loadGo s k list = { s with
        regs := (loadGo s k list).regs, images := (loadGo s k list).images, loadLen := (loadGo s k list).loadLen } := by
      rw [only] at hframe
      exact hframe
    rw [stored (by decide) (by decide)] at hlen
    exact ⟨_, exec_itnLoadGo hok k list, hslot, hload, hof, hcode, hdetail, hbytes, himage, hlen, frame,
      memKept_of_dram (by rw [frame])⟩
  case busy =>
    intro k list s _ hok hready hrun
    rw [exec_itnLoadGo hok, loadGo_of_ready hready, loadRunning_loadStored, hrun]
    rfl
  case header =>
    intro bytes s hl hload hgood
    rw [← headerArrived_of_good hload hgood]
    exact congrArg Host.Outcome.next (engine_of_live hl _)
  case dma =>
    intro bytes s hl hload hslot
    obtain ⟨hread, hkept⟩ := loadFilled_bytes s bytes
    have distinct := validatingFields_distinct (loadSlot s)
    have only := onlyRegs_wrs (loadFilled s bytes) (validatingFields (loadSlot s))
    refine ⟨_, (exec_itnDmaDone hl bytes).trans (congrArg _ (dmaDone_of_loading hload bytes)), ?_, ?_, ?_, ?_, ?_⟩
    · exact rd_wrs_mem_of_lt (by simp [validatingFields]) distinct (show 2 < 8 by decide) _
    · exact rd_wrs_mem_of_lt (by simp [validatingFields]) distinct (show 2 < 4 by decide) _
    · rw [State.mread, dram_wrs]
      exact hread
    · intro b hb
      rw [State.byteAt, dram_wrs]
      exact hkept b hb
    · rw [only]
      rfl
  case validated =>
    intro s hl hload
    exact congrArg Host.Outcome.next ((engine_of_live hl _).trans (if_pos hload))
  case fault =>
    intro off s hl hload
    exact congrArg Host.Outcome.next ((engine_of_live hl _).trans (if_pos hload))
  case aborted =>
    intro s hok hrun
    exact congrArg Host.Outcome.next ((host_of_ok hok _).trans (if_pos hrun))
  case freed =>
    intro k s hk hok hbound hfull
    refine ⟨setSlot s k 0 none, ?_, rd_setSlot_state s k none (by decide), image_setSlot s k 0 none,
      regsKept_setSlot s k 0 none, setSlot_frame s k 0 none⟩
    rw [← slotFree_of_unbound hbound hfull]
    exact congrArg Host.Outcome.next (host_of_ok hok _)
  case size =>
    intro size s hsize hok hempty hroom
    rw [← slotSizeWrite_of_empty hsize hempty hroom]
    exact congrArg Host.Outcome.next (host_of_ok hok _)

end Sys2Proof.Machine.Architecture
end

section
/-! The end of a load, and the binding of contexts to slots (R66, R68, R70). -/

namespace Sys2Proof.Machine.Architecture

/-! What a report or the end of a command leaves of the state. -/

theorem dram_of_reports {s t : State} (h : Reports s t) : t.dram = s.dram := by
  obtain ⟨_, _, _, _, _, _, rfl⟩ := h
  rfl

theorem part0_of_reports {s t : State} (h : Reports s t) : t.part0 = s.part0 := by
  obtain ⟨_, _, _, _, _, _, rfl⟩ := h
  rfl

theorem part1_of_reports {s t : State} (h : Reports s t) : t.part1 = s.part1 := by
  obtain ⟨_, _, _, _, _, _, rfl⟩ := h
  rfl

theorem image_of_reports {s t : State} (h : Reports s t) (k : Nat) : t.image k = s.image k := by
  obtain ⟨_, _, _, _, _, _, rfl⟩ := h
  rfl

/-- A field below the pending bits is plain. -/
theorem plain_of_lt {g : Fld} (h : g.key < 0x308000 * 64) : Plain g := Or.inl h

/-- A field of the block SEC is plain. -/
theorem plain_of_sec {g : Fld} (h : 0x3000000 * 64 ≤ g.key) : Plain g := Or.inr (Or.inr h)

/-- A field of the block ITN is no register of vectors. -/
theorem key_ne_ivec {f : Fld} (h : f.key < 0x200000 * 64) : ∀ i < 19, f.key ≠ (Reg.HIF_IVEC_VECTOR i).key := by
  intro i _
  simp only [Fld.key, Reg.HIF_IVEC_VECTOR] at h ⊢
  omega

/-! The end of a load. -/

/-- The slot's state, the code and DETAIL at the end of a load. -/
def loadNoted (s : State) (state : Nat) (im : Option Image) (code detail : Nat) : State :=
  (setSlot s (loadSlot s) state im).wrs
    [(Reg.ITN_LOAD_STATUS_STATE, 3), (Reg.ITN_LOAD_STATUS_CODE, code), (Reg.ITN_LOAD_DETAIL_DETAIL, detail)]

/-- The end of a load sets LOAD_DONE and records a code other than 0. -/
theorem loadEnd_eq (s : State) (state : Nat) (im : Option Image) (code detail : Nat) :
    loadEnd s state im code detail = finish (loadNoted s state im code detail) 1 Reg.ITN_IRQ_STATUS_LOAD_DONE
      Reg.ITN_IRQ_EN_BITS code { errOf code 0 with detail := detail } := rfl

/-- What the end of a load writes to the load registers lies at different places below the slots' registers. -/
theorem rd_loadNoted_load (s : State) (state : Nat) (im : Option Image) (code detail : Nat) {f : Fld} {v : Nat}
    (h : (f, v) ∈ [(Reg.ITN_LOAD_STATUS_STATE, 3), (Reg.ITN_LOAD_STATUS_CODE, code), (Reg.ITN_LOAD_DETAIL_DETAIL, detail)])
    (hv : v < 2 ^ f.width) : (loadNoted s state im code detail).rd f = v :=
  rd_wrs_mem_of_lt h (show ([Reg.ITN_LOAD_STATUS_STATE.key, Reg.ITN_LOAD_STATUS_CODE.key,
    Reg.ITN_LOAD_DETAIL_DETAIL.key]).Nodup by decide) hv _

/-- Outside the load registers the end of a load changes no more than setting its slot does. -/
theorem rd_loadNoted_ne (s : State) (state : Nat) (im : Option Image) (code detail : Nat) {g : Fld}
    (h : 0x100040 * 64 ≤ g.key) :
    (loadNoted s state im code detail).rd g = (setSlot s (loadSlot s) state im).rd g := by
  refine rd_wrs_ne ?_ _
  have below : ∀ q ∈ [Reg.ITN_LOAD_STATUS_STATE.key, Reg.ITN_LOAD_STATUS_CODE.key, Reg.ITN_LOAD_DETAIL_DETAIL.key],
      q < 0x100040 * 64 := by decide
  intro x hx
  have hq := below _ (List.mem_map_of_mem (f := fun x : Fld × Nat => x.1.key) hx)
  omega

/-- Settles O18: the end of a load is a command's end on the state in which its slot and its registers are written. -/
theorem loadEnds : Obligations.LoadEnds := by
  unfold Obligations.LoadEnds
  intro state code detail im s hstate hcode hdetail hslot fit
  have fits : (loadNoted s state im code detail).vectorsFit := vectorsFit_of_rd (fun i _ => by
    rw [rd_loadNoted_ne, regsKept_setSlot]
    · simp only [List.mem_cons, List.not_mem_nil, or_false, forall_eq_or_imp, forall_eq, Fld.key, Reg.ITN_SLOT_STATE,
        Reg.ITN_SLOT_PARTS, Reg.HIF_IVEC_VECTOR]
      omega
    · simp only [Fld.key, Reg.HIF_IVEC_VECTOR]
      omega) fit
  obtain ⟨hdone, hkept⟩ := rd_finish (x := { errOf code 0 with detail := detail }) Reg.ITN_IRQ_EN_BITS code fits
    (n := 1) (by decide) (errClass_lt code) (plain_of_lt (by decide)) (bit := Reg.ITN_IRQ_STATUS_LOAD_DONE) rfl
    (key_ne_ivec (by decide))
  have reports : Reports (loadNoted s state im code detail) (loadEnd s state im code detail) := finish_reports _ _ _ _ _ _
  rw [← loadEnd_eq] at hdone hkept
  have slotKey : (Reg.ITN_SLOT_STATE (loadSlot s)).key = 0x100040 * 64 + 256 * loadSlot s := by
    simp only [Fld.key, Reg.ITN_SLOT_STATE]
    omega
  refine ⟨?_, ?_, ?_, ?_, hdone, ?_, memKept_of_dram ?_, ?_, ?_⟩
  · rw [hkept _ (plain_of_lt (by omega)) (by rw [slotKey]; simp [Fld.key, Reg.ITN_IRQ_STATUS_LOAD_DONE]; omega),
      rd_loadNoted_ne _ _ _ _ _ (by omega), rd_setSlot_state s _ im hstate]
  · rw [hkept _ (plain_of_lt (by decide)) (by decide)]
    exact rd_loadNoted_load s state im code detail (by simp) (show 3 < 4 by decide)
  · rw [hkept _ (plain_of_lt (by decide)) (by decide)]
    exact rd_loadNoted_load s state im code detail (by simp) hcode
  · rw [hkept _ (plain_of_lt (by decide)) (by decide)]
    exact rd_loadNoted_load s state im code detail (by simp) hdetail
  · rw [image_of_reports reports]
    simp [loadNoted, State.image, setSlot]
  · rw [dram_of_reports reports]
    simp [loadNoted, setSlot]
  · rw [part0_of_reports reports]
    simp [loadNoted, setSlot]
  · rw [part1_of_reports reports]
    simp [loadNoted, setSlot]

/-! Binding. -/

/-- A bind command stores its fields. -/
def bindStored (s : State) (op k c : Nat) : State :=
  s.wrs [(Reg.ITN_BIND_OP, op), (Reg.ITN_BIND_SLOT, k), (Reg.ITN_BIND_CONTEXT, c)]

/-- A field outside ITN_BIND is as before. -/
theorem rd_bindStored (s : State) (op k c : Nat) {g : Fld} (h : g.key < 0x100080 * 64 ∨ 0x100084 * 64 ≤ g.key) :
    (bindStored s op k c).rd g = s.rd g := by
  have inside : ∀ q ∈ [Reg.ITN_BIND_OP.key, Reg.ITN_BIND_SLOT.key, Reg.ITN_BIND_CONTEXT.key],
      0x100080 * 64 ≤ q ∧ q < 0x100084 * 64 := by decide
  refine rd_wrs_ne (fun x hx => ?_) s
  have hq := inside _ (List.mem_map_of_mem (f := fun x : Fld × Nat => x.1.key) hx)
  omega

theorem vectorsFit_bindStored {s : State} (fit : s.vectorsFit) (op k c : Nat) : (bindStored s op k c).vectorsFit :=
  vectorsFit_of_rd (fun i _ => rd_bindStored s op k c (by simp only [Fld.key, Reg.HIF_IVEC_VECTOR]; omega)) fit

/-- What a bind operation does with Keeper ready: refused, or done and ended with code 0 (R70). -/
theorem bindCmd_of_ready {s : State} (h : s.ready = true) (op k c : Nat) :
    bindCmd s op k c =
      if 1 < op || runningOrPending s c || (op == 0 && (!registered s c || (bindStored s op k c).rd (Reg.ITN_SLOT_STATE k) != 3)) then
        bindEnd (bindStored s op k c) c Code.ITN_E_BIND
      else bindEnd (if op = 0 then bind (bindStored s op k c) k c else unbind (bindStored s op k c) c) c 0 := by
  have ready : (bindStored s op k c).ready = true := by
    rw [← h]
    simp only [State.ready, State.flag]
    rw [rd_bindStored s op k c (by decide)]
  have busy : runningOrPending (bindStored s op k c) c = runningOrPending s c := by
    simp only [runningOrPending, bindStored, part0_wrs, part1_wrs]
  have known : registered (bindStored s op k c) c = registered s c := by
    simp only [registered, ctxState]
    rw [rd_bindStored s op k c]
    simp only [Fld.key, Reg.SEC_CTX_STATE]
    omega
  rw [← busy, ← known, bindCmd]
  exact keeper_of_ready ready _ _

/-- What the end of a bind operation changes and leaves. -/
theorem bindEnd_effect {s t : State} {c code : Nat} (fit : s.vectorsFit) (hcode : code < 2 ^ 16)
    (ht : t = bindEnd s c code) :
    t.rd Reg.ITN_BIND_STATUS_CODE = code ∧
    (∀ g, Plain g → Reg.ITN_BIND_STATUS_CODE.key ≠ g.key → Reg.ITN_IRQ_STATUS_BIND_DONE.key ≠ g.key →
      t.rd g = s.rd g) ∧ t.dram = s.dram ∧ t.part0 = s.part0 ∧ t.part1 = s.part1 := by
  have heq : t = finish (s.wr Reg.ITN_BIND_STATUS_CODE code) 1 Reg.ITN_IRQ_STATUS_BIND_DONE Reg.ITN_IRQ_EN_BITS code
      { errOf code 0 with context := c } := ht
  have fits : (s.wr Reg.ITN_BIND_STATUS_CODE code).vectorsFit :=
    vectorsFit_of_rd (fun i hi => rd_wr_ne s code (key_ne_ivec (by decide) i hi)) fit
  have reports : Reports (s.wr Reg.ITN_BIND_STATUS_CODE code) t := heq ▸ finish_reports _ _ _ _ _ _
  obtain ⟨-, hkept⟩ := rd_finish (x := { errOf code 0 with context := c }) Reg.ITN_IRQ_EN_BITS code fits
    (n := 1) (by decide) (errClass_lt code) (plain_of_lt (by decide)) (bit := Reg.ITN_IRQ_STATUS_BIND_DONE) rfl
    (key_ne_ivec (by decide))
  rw [← heq] at hkept
  refine ⟨?_, fun g hg hne hbit => ?_, dram_of_reports reports, part0_of_reports reports, part1_of_reports reports⟩
  · rw [hkept _ (plain_of_lt (by decide)) (by decide), rd_wr_same]
    exact Nat.mod_eq_of_lt hcode
  · rw [hkept g hg hbit, rd_wr_ne s code hne]

/-- Dropping a context's binding writes its slot's count and its own fields. -/
theorem unbind_of_bound {s : State} {c k : Nat} (h : s.flag (Reg.SEC_CTX_BOUND c) = true)
    (hk : s.rd (Reg.SEC_CTX_SLOT c) = k) :
    unbind s c = s.wrs [(Reg.ITN_SLOT_BOUND_COUNT k, s.rd (Reg.ITN_SLOT_BOUND_COUNT k) - 1),
      (Reg.SEC_CTX_BOUND c, 0), (Reg.SEC_CTX_SLOT c, 0)] := by
  simp only [unbind, boundSlot, h, if_true, hk]

/-- Binding a context that is not bound writes the slot's count and the context's fields. -/
theorem bind_of_unbound {s : State} {c : Nat} (k : Nat) (h : s.flag (Reg.SEC_CTX_BOUND c) = false) :
    bind s k c = s.wrs [(Reg.ITN_SLOT_BOUND_COUNT k, s.rd (Reg.ITN_SLOT_BOUND_COUNT k) + 1),
      (Reg.SEC_CTX_BOUND c, 1), (Reg.SEC_CTX_SLOT c, k)] := by
  simp [bind, unbind, boundSlot, h]

/-- What a bind or an unbind writes: a slot's count and a context's fields. -/
def bindFields (k c count bound slot : Nat) : List (Fld × Nat) :=
  [(Reg.ITN_SLOT_BOUND_COUNT k, count), (Reg.SEC_CTX_BOUND c, bound), (Reg.SEC_CTX_SLOT c, slot)]

theorem bindFields_distinct (k c count bound slot : Nat) :
    ((bindFields k c count bound slot).map (·.1.key)).Nodup := by
  simp only [bindFields, List.map_cons, List.map_nil, List.nodup_cons, List.mem_cons, List.not_mem_nil, or_false,
    not_or, List.nodup_nil, not_false_eq_true, and_true, Fld.key, Reg.ITN_SLOT_BOUND_COUNT, Reg.SEC_CTX_BOUND,
    Reg.SEC_CTX_SLOT]
  omega

theorem exec_itnBind {s : State} (h : s.hostOk Reg.ITN_BIND_OP.off = true) (k c : Nat) :
    exec (.itnBind k c) s = .next (bindCmd s 0 k c) := congrArg Host.Outcome.next (host_of_ok h _)

theorem exec_itnUnbind {s : State} (h : s.hostOk Reg.ITN_BIND_OP.off = true) (c : Nat) :
    exec (.itnUnbind c) s = .next (bindCmd s 1 (s.rd Reg.ITN_BIND_SLOT) c) := congrArg Host.Outcome.next (host_of_ok h _)

theorem exec_bindOpRefused {s : State} (h : s.hostOk Reg.ITN_BIND_OP.off = true) (op c : Nat) :
    exec (.bindOpRefused op c) s = .next (bindCmd s op (s.rd Reg.ITN_BIND_SLOT) c) :=
  congrArg Host.Outcome.next (host_of_ok h _)

/-- A field of a context or of a slot is none that the end of a bind operation writes. -/
theorem bindEnd_keeps {s : State} {c code : Nat} (fit : s.vectorsFit) (hcode : code < 2 ^ 16) {g : Fld}
    (h : (0x100040 * 64 ≤ g.key ∧ g.key < 0x100080 * 64) ∨ 0x3000000 * 64 ≤ g.key) :
    (bindEnd s c code).rd g = s.rd g := by
  obtain ⟨-, hkept, -⟩ := bindEnd_effect fit hcode rfl
  have hcodeKey : Reg.ITN_BIND_STATUS_CODE.key = 0x100084 * 64 := rfl
  have hbitKey : Reg.ITN_IRQ_STATUS_BIND_DONE.key = 0x100030 * 64 + 1 := rfl
  refine hkept g ?_ (by omega) (by omega)
  unfold Plain
  omega

/-- What an operation that writes a slot's count and a context's fields and then ends with code 0 leaves. -/
theorem bound_effect {s t : State} {k c count bound slot : Nat} (fit : s.vectorsFit) (hk : k < 8) (hbound : bound < 2)
    (hslot : slot < 8) (ht : t = bindEnd (s.wrs (bindFields k c count bound slot)) c 0) :
    t.rd (Reg.SEC_CTX_BOUND c) = bound ∧ t.rd (Reg.SEC_CTX_SLOT c) = slot ∧
    t.rd (Reg.ITN_SLOT_BOUND_COUNT k) = count % 2 ^ (Reg.ITN_SLOT_BOUND_COUNT k).width ∧
    t.rd Reg.ITN_BIND_STATUS_CODE = 0 ∧ t.dram = s.dram ∧ t.part0 = s.part0 ∧ t.part1 = s.part1 := by
  have distinct := bindFields_distinct k c count bound slot
  have fits : (s.wrs (bindFields k c count bound slot)).vectorsFit := vectorsFit_of_rd (fun i hi => rd_wrs_ne (by
    simp only [bindFields, List.mem_cons, List.not_mem_nil, or_false, forall_eq_or_imp, forall_eq, Fld.key,
      Reg.ITN_SLOT_BOUND_COUNT, Reg.SEC_CTX_BOUND, Reg.SEC_CTX_SLOT, Reg.HIF_IVEC_VECTOR]
    omega) s) fit
  obtain ⟨hcode, -, hdram, hpart0, hpart1⟩ := bindEnd_effect fits (by decide) ht
  subst ht
  refine ⟨?_, ?_, ?_, hcode, hdram.trans (dram_wrs _ _), hpart0.trans (part0_wrs _ _), hpart1.trans (part1_wrs _ _)⟩
  · rw [bindEnd_keeps fits (by decide) (by simp only [Fld.key, Reg.SEC_CTX_BOUND]; omega)]
    exact rd_wrs_mem_of_lt (by simp [bindFields]) distinct hbound _
  · rw [bindEnd_keeps fits (by decide) (by simp only [Fld.key, Reg.SEC_CTX_SLOT]; omega)]
    exact rd_wrs_mem_of_lt (by simp [bindFields]) distinct hslot _
  · rw [bindEnd_keeps fits (by decide) (by simp only [Fld.key, Reg.ITN_SLOT_BOUND_COUNT]; omega)]
    exact rd_wrs_mem (by simp [bindFields]) distinct _

/-- A refused bind operation shows ITN_E_BIND; bindings and memory are as before. -/
theorem bindRefused_effect {s t : State} {op k c : Nat} (fit : s.vectorsFit)
    (ht : t = bindEnd (bindStored s op k c) c Code.ITN_E_BIND) :
    t.rd Reg.ITN_BIND_STATUS_CODE = Code.ITN_E_BIND ∧ t.rd (Reg.SEC_CTX_BOUND c) = s.rd (Reg.SEC_CTX_BOUND c) ∧
    t.dram = s.dram := by
  have key : (Reg.SEC_CTX_BOUND c).key = (0x3008000 + c * 4) * 64 + 26 := rfl
  have fits := vectorsFit_bindStored fit op k c
  obtain ⟨hcode, -, hdram, -⟩ := bindEnd_effect fits (by decide) ht
  refine ⟨hcode, ?_, hdram.trans (dram_wrs _ _)⟩
  rw [ht, bindEnd_keeps fits (by decide) (by omega), rd_bindStored s op k c (by omega)]

/-- Settles O19: each operation is refused, or writes the fields of its binding and ends with code 0. -/
theorem binding : Obligations.Binding := by
  unfold Obligations.Binding
  intro c s hc hok hready hidle fit
  have ctx (op k : Nat) {g : Fld} (h : 0x3000000 * 64 ≤ g.key) : (bindStored s op k c).rd g = s.rd g :=
    rd_bindStored s op k c (by omega)
  have ofSlot (op k : Nat) {g : Fld} (h : g.key < 0x100080 * 64) : (bindStored s op k c).rd g = s.rd g :=
    rd_bindStored s op k c (by omega)
  have boundKey : (Reg.SEC_CTX_BOUND c).key = (0x3008000 + c * 4) * 64 + 26 := rfl
  have slotKey : (Reg.SEC_CTX_SLOT c).key = (0x3008000 + c * 4) * 64 := rfl
  have countKey (k : Nat) : (Reg.ITN_SLOT_BOUND_COUNT k).key = (0x100040 + k * 4) * 64 + 3 := rfl
  have stateKey (k : Nat) : (Reg.ITN_SLOT_STATE k).key = (0x100040 + k * 4) * 64 := rfl
  refine ⟨?bind, ?notValid, ?unbind, ?opRefused⟩
  case bind =>
    intro k hk hreg hvalid hfree
    have free : (bindStored s 0 k c).flag (Reg.SEC_CTX_BOUND c) = false := by
      rw [← hfree, State.flag, State.flag, ctx 0 k (by omega)]
    have hcmd : bindCmd s 0 k c = bindEnd ((bindStored s 0 k c).wrs
        (bindFields k c (s.rd (Reg.ITN_SLOT_BOUND_COUNT k) + 1) 1 k)) c 0 := by
      rw [bindCmd_of_ready hready, hidle, hreg, ofSlot 0 k (by rw [stateKey]; omega), hvalid, if_neg (by decide),
        if_pos rfl, bind_of_unbound k free, ofSlot 0 k (by rw [countKey]; omega)]
      rfl
    obtain ⟨hb, hs, hcount, hcode, hdram, hpart0, hpart1⟩ := bound_effect (vectorsFit_bindStored fit 0 k c) hk (by decide) hk hcmd
    exact ⟨_, exec_itnBind hok k c, hb, hs, hcount, hcode, memKept_of_dram (hdram.trans (dram_wrs _ _)),
      hpart0.trans (part0_wrs _ _), hpart1.trans (part1_wrs _ _)⟩
  case notValid =>
    intro k hk hstate
    have hcmd : bindCmd s 0 k c = bindEnd (bindStored s 0 k c) c Code.ITN_E_BIND := by
      rw [bindCmd_of_ready hready, hidle, ofSlot 0 k (by rw [stateKey]; omega)]
      simp [hstate]
    obtain ⟨hcode, hbound, hdram⟩ := bindRefused_effect fit hcmd
    exact ⟨_, exec_itnBind hok k c, hcode, hbound, memKept_of_dram hdram⟩
  case unbind =>
    intro k hk hbound hslot
    have bound : (bindStored s 1 (s.rd Reg.ITN_BIND_SLOT) c).flag (Reg.SEC_CTX_BOUND c) = true := by
      rw [← hbound, State.flag, State.flag, ctx 1 _ (by omega)]
    have hcmd : bindCmd s 1 (s.rd Reg.ITN_BIND_SLOT) c = bindEnd ((bindStored s 1 (s.rd Reg.ITN_BIND_SLOT) c).wrs
        (bindFields k c (s.rd (Reg.ITN_SLOT_BOUND_COUNT k) - 1) 0 0)) c 0 := by
      rw [bindCmd_of_ready hready, hidle, if_neg (by simp), if_neg (by decide), unbind_of_bound bound
        ((ctx 1 _ (by omega)).trans hslot), ofSlot 1 _ (by rw [countKey]; omega)]
      rfl
    obtain ⟨hb, -, hcount, hcode, hdram, hpart0, hpart1⟩ := bound_effect (vectorsFit_bindStored fit 1 _ c) hk (by decide) (by decide) hcmd
    exact ⟨_, exec_itnUnbind hok c, hb, hcount, hcode, memKept_of_dram (hdram.trans (dram_wrs _ _)),
      hpart0.trans (part0_wrs _ _), hpart1.trans (part1_wrs _ _)⟩
  case opRefused =>
    intro op hop
    have hcmd : bindCmd s op (s.rd Reg.ITN_BIND_SLOT) c =
        bindEnd (bindStored s op (s.rd Reg.ITN_BIND_SLOT) c) c Code.ITN_E_BIND := by
      have refused : 1 < op := by omega
      rw [bindCmd_of_ready hready]
      simp [refused]
    obtain ⟨hcode, hbound, hdram⟩ := bindRefused_effect fit hcmd
    exact ⟨_, exec_bindOpRefused hok op c, hcode, hbound, memKept_of_dram hdram⟩

end Sys2Proof.Machine.Architecture
end

section
/-! The timetable of a tile: phase boundaries, array passes and loads of the weight buffers (R56, R77 to R85, R103, R104,
R154). -/

namespace Sys2Proof.Machine.Architecture

/-! Handing banks over. -/

/-- A bank that is given has its new owner; every other bank keeps its own. -/
theorem owner_give (t : Tile) (force : Bool) (bank code b : Nat) :
    (t.give force bank code).owner b = if b = bank then code else t.owner b := by
  have cleared : (if (force || t.owner bank != code) = true then t.clearBank bank else t).owners = t.owners := by
    split <;> rfl
  have given : (t.give force bank code).owners = SMap.set scrBlank t.owners bank code :=
    congrArg (fun m => SMap.set scrBlank m bank code) cleared
  rw [Tile.owner, given, Tile.owner]
  by_cases h : b = bank
  · rw [if_pos h, h, SMap.get_set_same]
  · rw [if_neg h, SMap.get_set_ne _ _ _ (Ne.symm h)]

/-- Clearing a bank clears the written bits of its lines alone. -/
theorem isWritten_clearBank (t : Tile) (bank b : Nat) {l : Nat} (hl : l < 4096) :
    (t.clearBank bank).isWritten b l = if b = bank then false else t.isWritten b l := by
  have place : (b * 4096 + l) / 4096 = b := by omega
  rw [Tile.isWritten, Tile.clearBank, get_keep, place]
  by_cases h : b = bank
  · simp [h, scrBlank]
  · simp [h, Tile.isWritten]

/-- A bank given to a new owner reads zeros; one that keeps its owner keeps its lines, as does every other bank. -/
theorem isWritten_give (t : Tile) (bank code b : Nat) {l : Nat} (hl : l < 4096) :
    (t.give false bank code).isWritten b l =
      if b = bank ∧ t.owner bank ≠ code then false else t.isWritten b l := by
  by_cases h : t.owner bank = code
  · simp [Tile.give, h, Tile.isWritten]
  · have given : (t.give false bank code).isWritten b l = (t.clearBank bank).isWritten b l := by
      simp [Tile.give, h, Tile.isWritten]
    rw [given, isWritten_clearBank t bank b hl]
    simp [h]

/-- After a handover each bank handed over has the owner of the phase. -/
theorem owner_handover (force : Bool) (owners : Nat) (banks : List Nat) (t : Tile) (b : Nat) :
    (t.handover force banks owners).owner b = if b ∈ banks then ownerOf owners b else t.owner b := by
  induction banks generalizing t with
  | nil => rfl
  | cons a rest ih =>
    refine (ih (t.give force a (ownerOf owners a))).trans ?_
    rw [owner_give]
    by_cases hr : b ∈ rest
    · simp [hr]
    · by_cases ha : b = a
      · simp [ha]
      · simp [hr, ha]

/-- After a handover a bank that has changed its owner reads zeros, and any other bank keeps its lines (R56). -/
theorem isWritten_handover (owners : Nat) (banks : List Nat) (t : Tile) (b : Nat) {l : Nat} (hl : l < 4096) :
    (t.handover false banks owners).isWritten b l =
      if b ∈ banks ∧ t.owner b ≠ ownerOf owners b then false else t.isWritten b l := by
  induction banks generalizing t with
  | nil => simp [Tile.handover]
  | cons a rest ih =>
    refine (ih (t.give false a (ownerOf owners a))).trans ?_
    rw [owner_give, isWritten_give t a _ b hl]
    by_cases ha : b = a
    · subst ha
      by_cases ho : t.owner b = ownerOf owners b <;> simp [ho]
    · simp [ha]

/-! The boundary of a phase. -/

/-- No stall is in progress where none has begun. -/
theorem not_on_of_none {x : Stall} (h : x = {}) : x.on = false := by
  rw [h]
  rfl

/-- A phase boundary of a segment that runs, with no stall, hands the tile's banks to the owners of its phase (R56). -/
theorem phaseBoundary_of_runs {s : State} {p tile seg start : Nat} {e : PhaseEntry} (hst : (s.part p).stall = {})
    (hruns : segRuns (s.part p) (s.partImage p) seg 0 = true)
    (he : (phasesOf (s.partImage p) tile seg).find? (fun x => x.start == start) = some e) :
    phaseBoundary s p tile seg start = s.updTile tile (fun t => t.handover false (List.range 32) e.owners) := by
  simp only [phaseBoundary, hruns, not_on_of_none hst, he, Bool.not_false, Bool.and_self, if_true]

/-! The end of a gap. -/

@[simp] theorem arr_updArr_same (t : Tile) (a : Nat) (f : Arr → Arr) : (t.updArr a f).arr a = f (t.arr a) := by
  unfold Tile.updArr Tile.arr
  split <;> rfl

/-- Changing an array leaves the tile's owners and its scratch alone. -/
theorem updArr_frame (t : Tile) (a : Nat) (f : Arr → Arr) :
    t.updArr a f = { t with arr0 := (t.updArr a f).arr0, arr1 := (t.updArr a f).arr1 } := by
  unfold Tile.updArr
  split <;> rfl

theorem owners_updArr (t : Tile) (a : Nat) (f : Arr → Arr) : (t.updArr a f).owners = t.owners := by
  rw [updArr_frame]

theorem byte_updArr (t : Tile) (a : Nat) (f : Arr → Arr) (b i : Nat) : (t.updArr a f).byte b i = t.byte b i := by
  rw [updArr_frame]
  rfl

/-- An array at the end of a gap: full duty, no ramp step made (R85). -/
def gapEnded (last : Option (Nat × Nat)) (y : Arr) : Arr := { y with duty := 16, last := last, gapDown := 0, gapUp := 0 }

/-- The end of a gap changes of the tiles the one array. -/
theorem tile_closeGap (s : State) (p n a : Nat) (last : Option (Nat × Nat)) :
    (closeGap s p n a last).tile n = (s.tile n).updArr a (gapEnded last) := tile_updTile_same _ n _

/-- The end of a gap counts ramp steps, filler and gated time. -/
theorem regsKept_closeGap (s : State) (p n a : Nat) (last : Option (Nat × Nat)) :
    s.regsKept (closeGap s p n a last) [Reg.TIL_ARR_RAMP n a, Reg.TIL_ARR_FILLER n a, Reg.TIL_ARR_GATED n a] := by
  intro g hg
  simp only [List.mem_cons, List.not_mem_nil, or_false, forall_eq_or_imp, forall_eq] at hg
  obtain ⟨hramp, hfiller, hgated⟩ := hg
  simp only [closeGap, countIdle, State.add, rd_updTile, rd_wr_ne _ _ hgated, rd_wr_ne _ _ hfiller, rd_wr_ne _ _ hramp]

theorem closeGap_frame (s : State) (p n a : Nat) (last : Option (Nat × Nat)) :
    RegsTiles s (closeGap s p n a last) :=
  (((RegsTiles.of_onlyRegs (show s.onlyRegs s from rfl)).wr _ _).wr _ _ |>.wr _ _).updTile n _

/-! Array passes. -/

/-- A pass that meets a good buffer, no bank of another owner and rows that fit has no fault. -/
theorem passFaults_of_good {s : State} {p n a buffer : Nat}
    (h : (if buffer = 0 then ((s.tile n).arr a).badBuf0 else ((s.tile n).arr a).badBuf1) = false) :
    passFaults s p n a buffer [] [] none = s := by
  simp [passFaults, h]

/-- The row groups that a feeder reads in banks of its own are none of another engine's. -/
theorem feedForeign_of_owned {t : Tile} {a : Nat} {groups : List FeedGroup} (h : ∀ g ∈ groups, feedOwned t a g = true) :
    feedForeign t a groups = [] := by
  have none : groups.filter (fun g => !feedOwned t a g) = [] := by
    rw [List.filter_eq_nil_iff]
    intro g hg
    simp [h g hg]
  rw [feedForeign, none]
  rfl

/-- The tally and the counters after a pass of `fit` row groups, on the state `u` in which the gap before it has ended:
the rows that the feeder reads are added, live groups, padding rows and filler counted (R81 to R85). -/
def passCounted (u : State) (img : PartImage) (n a half fit : Nat) (groups : List FeedGroup) (e : TimeEntry)
    (k : KernelEntry) (rows : List (Option Nat)) : State :=
  (((u.updTile n (fun x => x.updArr a (passRows k.mode half (e.flags % 2) (bitsOf k.flags 2 2) rows
      ((List.range rows.length).map (feedRow (u.tile n) a k.mode groups))
      ((List.range rows.length).map (feedZero (u.tile n) img a groups))))).add
    (Reg.TIL_ARR_LIVE n a) fit).add (Reg.TIL_ARR_PAD n a) (rows.filter (·.isNone)).length).add
    (Reg.TIL_ARR_FILLER n a) (e.len - fit * (if 4 ≤ k.mode then 4 else 1))

/-- A pass leaves the marks of bad buffers alone. -/
theorem badBuf_passCounted (u : State) (img : PartImage) (n a half fit : Nat) (groups : List FeedGroup) (e : TimeEntry)
    (k : KernelEntry) (rows : List (Option Nat)) :
    (((passCounted u img n a half fit groups e k rows).tile n).arr a).badBuf0 = ((u.tile n).arr a).badBuf0 ∧
    (((passCounted u img n a half fit groups e k rows).tile n).arr a).badBuf1 = ((u.tile n).arr a).badBuf1 := by
  simp [passCounted, State.add, passRows]

/-- A pass whose row groups all fit, over a good buffer, fed from banks of its feeder (R78, R81 to R83). -/
theorem arrayPass_of_fit {s u : State} {p i rep n a half fit : Nat} {groups : List FeedGroup} {e : TimeEntry}
    {k : KernelEntry} {rows : List (Option Nat)} (he : entryNow s p i rep 0 = some e) (hn : n = e.index / 2)
    (ha : a = e.index % 2) (hk : kernelOf (s.partImage p) n e.opRef = some k)
    (hrows : rows = passSlots (s.part p).plan ((s.partImage p).segs.getD e.seg {}) rep) (hlen : rows.length = 64 * fit)
    (hfit : fit * (if 4 ≤ k.mode then 4 else 1) ≤ e.len)
    (hgood : (if e.flags % 2 = 0 then ((s.tile n).arr a).badBuf0 else ((s.tile n).arr a).badBuf1) = false)
    (howned : ∀ g ∈ groups, feedOwned (s.tile n) a g = true) (hu : u = closeGap s p n a (some (i, rep))) :
    arrayPass s p i rep half groups false none = passCounted u (s.partImage p) n a half fit groups e k rows := by
  have groupsFit : minNat (rows.length / 64) (e.len / (if 4 ≤ k.mode then 4 else 1)) = fit := by
    have room : fit ≤ e.len / (if 4 ≤ k.mode then 4 else 1) := by
      rw [Nat.le_div_iff_mul_le (by split <;> decide)]
      exact hfit
    rw [hlen, Nat.mul_div_cancel_left fit (by decide), minNat, if_pos room]
  have tile : u.tile n = (s.tile n).updArr a (gapEnded (some (i, rep))) := by rw [hu, tile_closeGap]
  have foreign : feedForeign (u.tile n) a (groups.take fit) = [] := feedForeign_of_owned fun g hg => by
    rw [feedOwned, tile, owners_updArr]
    exact howned g (List.mem_of_mem_take hg)
  have all : rows.take (64 * fit) = rows := List.take_of_length_le (by omega)
  have lost : rows.drop (64 * fit) = [] := List.drop_of_length_le (by omega)
  obtain ⟨hbad0, hbad1⟩ := badBuf_passCounted u (s.partImage p) n a half fit groups e k rows
  subst hn ha
  simp only [arrayPass, he, hk, ← hrows, groupsFit, ← hu, all, lost, foreign, feedRows]
  refine passFaults_of_good (s := passCounted u (s.partImage p) _ _ half fit groups e k rows) ?_
  rw [hbad0, hbad1, tile, arr_updArr_same]
  exact hgood

/-! Loads of the weight buffers. -/

theorem exec_weightBufferLoad {s : State} (h : s.live = true) (p i rep bank line form : Nat) (badLine : Option Nat) :
    exec (.weightBufferLoad p i rep bank line form badLine) s = .next (weightLoad s p i rep bank line form badLine) :=
  congrArg Host.Outcome.next (engine_of_live h _)

/-- The block that a load takes leaves the rack, and the buffer takes it (R79, R80). -/
theorem weightLoad_of_rack {s : State} {p i rep bank line form : Nat} {badLine : Option Nat} {e : TimeEntry}
    {k : KernelEntry} {b : RackBlock} {rest : List RackBlock} (he : entryNow s p i rep 1 = some e)
    (hk : kernelOf (s.partImage p) (e.index / 2) e.opRef = some k) (hmode : k.mode = 0)
    (hrack : ((s.tile (e.index / 2)).arr (e.index % 2)).rack = b :: rest) :
    weightLoad s p i rep bank line form badLine = loadBuffer (s.updTile (e.index / 2) (fun u =>
      u.updArr (e.index % 2) (fun x => { x with rack := rest }))) (e.index / 2) (e.index % 2) (e.flags % 2) b.bytes
      b.trailer false := by
  simp only [weightLoad, he, hk, hmode, hrack, if_true]

/-- A load completes: its buffer holds the block, and one load is counted; nothing else but the tile changes. -/
theorem loadBuffer_effect {s t : State} {n a buffer : Nat} {bytes trailer : List Nat} {slab : Bool}
    (ht : t = loadBuffer s n a buffer bytes trailer slab) :
    (t.tile n).arr a = ((s.tile n).arr a).fill buffer bytes trailer slab ∧ s.regsKept t [Reg.TIL_ARR_LOADS n a] ∧
    RegsTiles s t := by
  subst ht
  refine ⟨?_, fun g hg => regsKept_inc _ _ g hg, ?_⟩
  · simp [loadBuffer, State.inc, State.add]
  · exact ((RegsTiles.of_onlyRegs (show s.onlyRegs s from rfl)).updTile n _).wr _ _

/-- A load from scratch of a bank that the array's feeder owns (R104, R154). -/
theorem weightLoad_of_scratch {s : State} {p i rep bank line form : Nat} {e : TimeEntry} {k : KernelEntry}
    (he : entryNow s p i rep 1 = some e) (hk : kernelOf (s.partImage p) (e.index / 2) e.opRef = some k)
    (hmode : k.mode ≠ 0) (howned : (s.tile (e.index / 2)).owner bank = 1 + e.index % 2) {bytes trailer : List Nat}
    (hload : scratchLoad form (s.partImage p).kvBits (fun j => (s.tile (e.index / 2)).byte bank (line * 64 + j)) =
      (bytes, trailer)) :
    weightLoad s p i rep bank line form none =
      loadBuffer s (e.index / 2) (e.index % 2) (e.flags % 2) bytes trailer (decide (2 ≤ form)) := by
  simp only [weightLoad, he, hk, if_neg hmode, if_pos howned, hload]

/-- The same with a scratch line that cannot be corrected: it reads as zeros, and the fault follows the load (R248). -/
theorem weightLoad_of_lostLine {s : State} {p i rep bank line form : Nat} {e : TimeEntry} {k : KernelEntry}
    (he : entryNow s p i rep 1 = some e) (hk : kernelOf (s.partImage p) (e.index / 2) e.opRef = some k)
    (hmode : k.mode ≠ 0) (howned : (s.tile (e.index / 2)).owner bank = 1 + e.index % 2) (l : Nat)
    {x : List Nat × List Nat} (hx : x = scratchLoad form (s.partImage p).kvBits
      (fun j => ((s.tile (e.index / 2)).loseLine bank l).byte bank (line * 64 + j))) :
    weightLoad s p i rep bank line form (some l) =
      scratchFault (loadBuffer s (e.index / 2) (e.index % 2) (e.flags % 2) x.1 x.2 (decide (2 ≤ form))) p
        (e.index / 2) bank l := by
  have owned : ((s.tile (e.index / 2)).loseLine bank l).owner bank = 1 + e.index % 2 := howned
  subst hx
  simp only [weightLoad, he, hk, if_neg hmode, if_pos owned]

/-- A block with 3 lines of trailer, or a block pair with 6 (R104). -/
theorem scratchLoad_block {form : Nat} (h : form < 2) (bits : Nat) (rd : Nat → Nat) :
    scratchLoad form bits rd = ((List.range 4096).map (fun j => rd (0 + j)),
      (List.range (if form = 1 then 384 else 192)).map (fun j => rd (4096 + j))) := by
  obtain rfl | rfl : form = 0 ∨ form = 1 := by omega
  · simp only [scratchLoad, Nat.zero_ne_one, if_false]
  · simp only [scratchLoad, if_true]

/-- A key slab of bytes, transposed, and a scale for each token (R138, R154). -/
theorem scratchLoad_keySlab (rd : Nat → Nat) :
    scratchLoad 2 8 rd = (keySlab 8 rd, (List.range 128).map (fun j => rd (4096 + j))) := by
  simp only [scratchLoad, Nat.reduceMul]

/-! Key slabs. -/

theorem nth_map_range {f : Nat → Nat} {n i : Nat} (h : i < n) : nth ((List.range n).map f) i = f i := by
  simp [nth, h]

/-- A signed code reads the low bits alone. -/
theorem signedCode_mod (bits v : Nat) : signedCode bits (v % 2 ^ bits) = signedCode bits v := by
  simp [signedCode]

/-- A slab of bytes is loaded transposed. -/
theorem weightCode_keySlab_byte (slab : Nat → Nat) {k c : Nat} (hk : k < 64) (hc : c < 64) :
    weightCode 4 (nth (keySlab 8 slab)) k c = signedCode 8 (slab (64 * c + k)) := by
  have row : (64 * k + c) / 64 = k := by omega
  have col : (64 * k + c) % 64 = c := by omega
  show signedCode 8 (nth ((List.range 4096).map (fun i => slab (64 * (i % 64) + i / 64))) (64 * k + c)) = _
  rw [nth_map_range (by omega), row, col]

/-- Element `k` of token `c` of a slab of 4-bit codes, with what stands above it in its byte. -/
def nibbleOf (slab : Nat → Nat) (k c : Nat) : Nat :=
  if k % 2 = 0 then slab (32 * c + k / 2) else slab (32 * c + k / 2) / 16

/-- A byte of a transposed slab of 4-bit codes holds two tokens' codes of one element. -/
theorem nth_keySlab_nibble (slab : Nat → Nat) {k c : Nat} (hk : k < 64) (hc : c < 64) :
    nth (keySlab 4 slab) (32 * k + c / 2) =
      nibbleOf slab k (2 * (c / 2)) % 16 + 16 * (nibbleOf slab k (2 * (c / 2) + 1) % 16) := by
  have row : (32 * k + c / 2) / 32 = k := by omega
  have col : (32 * k + c / 2) % 32 = c / 2 := by omega
  rw [keySlab, if_pos rfl, nth_map_range (by omega)]
  simp only [row, col, nibbleOf]
  split <;> rfl

/-- A slab of 4-bit codes is loaded transposed. -/
theorem weightCode_keySlab_nibble (slab : Nat → Nat) {k c : Nat} (hk : k < 64) (hc : c < 64) :
    weightCode 5 (nth (keySlab 4 slab)) k c = signedCode 4 (nibbleOf slab k c) := by
  have picked : (if c % 2 = 0 then nth (keySlab 4 slab) (32 * k + c / 2)
      else nth (keySlab 4 slab) (32 * k + c / 2) / 16) % 16 = nibbleOf slab k c % 16 := by
    rw [nth_keySlab_nibble slab hk hc]
    rcases Nat.mod_two_eq_zero_or_one c with h | h
    · have even : 2 * (c / 2) = c := by omega
      rw [if_pos h, even]
      omega
    · have odd : 2 * (c / 2) + 1 = c := by omega
      rw [if_neg (by omega), odd]
      omega
  have code (v : Nat) : signedCode 4 (v % 16) = signedCode 4 v := signedCode_mod 4 v
  rw [← code (nibbleOf slab k c), ← picked, code]
  rfl

/-- Settles O24: a live part runs the event, and each clause's conditions pick the branch that its lemma states. -/
theorem tileTimetable : Obligations.TileTimetable := by
  unfold Obligations.TileTimetable
  refine ⟨?phase, ?pass, ?gap, ?rack, ?scratch, ?slab⟩
  case phase =>
    intro p tile seg start e s _ hl hst hruns he
    refine ⟨_, congrArg Host.Outcome.next ((engine_of_live hl _).trans (phaseBoundary_of_runs hst hruns he)),
      fun b hb => ?_, fun b l hb hline hne => ?_, fun b l hb hline heq => ?_, fun n hn => tile_updTile_ne s _ hn.symm, rfl⟩
    · rw [tile_updTile_same, owner_handover, if_pos (List.mem_range.mpr hb)]
    · rw [tile_updTile_same, isWritten_handover _ _ _ _ hline, if_pos ⟨List.mem_range.mpr hb, hne⟩]
    · rw [tile_updTile_same, isWritten_handover _ _ _ _ hline, if_neg fun h => h.2 heq]
  case pass =>
    intro p i rep half n a fit groups e k rows s u _ hl he _ hn ha hk hrows hlen hfit hgood howned hu
    exact congrArg Host.Outcome.next ((engine_of_live hl _).trans
      (arrayPass_of_fit he hn ha hk hrows hlen hfit hgood howned hu))
  case gap =>
    intro p n a last s
    refine ⟨?_, ?_, fun b i => ?_, regsKept_closeGap s p n a last, closeGap_frame s p n a last⟩
    · rw [tile_closeGap, arr_updArr_same, gapEnded]
    · rw [tile_closeGap, arr_updArr_same, gapEnded]
    · rw [tile_closeGap, byte_updArr]
  case rack =>
    intro p i rep bank line form badLine e k b rest s _ hl he hk hmode hrack
    have hload := weightLoad_of_rack (bank := bank) (line := line) (form := form) (badLine := badLine) he hk hmode hrack
    obtain ⟨harr, hregs, hframe⟩ := loadBuffer_effect hload
    rw [tile_updTile_same, arr_updArr_same] at harr
    refine ⟨_, exec_weightBufferLoad hl p i rep bank line form badLine, ?_, fun hbuf => ?_, fun hbuf => ?_, hregs, ?_⟩
    · rw [harr, Arr.fill]
      split <;> rfl
    · simp [harr, Arr.fill, hbuf]
    · simp [harr, Arr.fill, hbuf]
    · exact ((RegsTiles.of_onlyRegs (show s.onlyRegs s from rfl)).updTile _ _).trans hframe
  case scratch =>
    rintro p i rep bank line form _ _ e k s _ hl he rfl rfl hk hmode howned
    refine ⟨fun hform => ?_, fun hform hbits => ?_, fun l x hx => ?_⟩
    · have noSlab : decide (2 ≤ form) = false := by simp [hform]
      rw [exec_weightBufferLoad hl, weightLoad_of_scratch he hk hmode howned (scratchLoad_block hform _ _), noSlab]
    · rw [exec_weightBufferLoad hl, hform,
        weightLoad_of_scratch he hk hmode howned (by rw [hbits, scratchLoad_keySlab])]
      rfl
    · rw [exec_weightBufferLoad hl, weightLoad_of_lostLine he hk hmode howned l hx]
  case slab =>
    intro slab k c hk hc
    exact ⟨weightCode_keySlab_byte slab hk hc, weightCode_keySlab_nibble slab hk hc⟩

end Sys2Proof.Machine.Architecture
end

section
/-! What each part of a start leaves of the partition that starts: its stage, context, slot and tiles (R72, R94). -/

namespace Sys2Proof.Machine.Architecture

/-- What a partition does and for whom: its stage, context, slot and tile mask. -/
def runs (s : State) (p : Nat) : PStage × Nat × Nat × Nat :=
  ((s.part p).stage, (s.part p).ctx, (s.part p).slot, (s.part p).tileMask)

/-- The same partitions run the same. -/
theorem runs_of_parts {s t : State} (h0 : t.part0 = s.part0) (h1 : t.part1 = s.part1) (p : Nat) : runs t p = runs s p := by
  simp only [runs, State.part, h0, h1]

@[simp] theorem runs_wr (s : State) (f : Fld) (v p : Nat) : runs (s.wr f v) p = runs s p := rfl

@[simp] theorem runs_wrs (s : State) (l : List (Fld × Nat)) (p : Nat) : runs (s.wrs l) p = runs s p :=
  runs_of_parts (part0_wrs s l) (part1_wrs s l) p

@[simp] theorem runs_add (s : State) (f : Fld) (v p : Nat) : runs (s.add f v) p = runs s p := rfl

@[simp] theorem runs_updTile (s : State) (n : Nat) (f : Tile → Tile) (p : Nat) : runs (s.updTile n f) p = runs s p := rfl

theorem runs_of_sends {s t : State} (h : Sends s t) (p : Nat) : runs t p = runs s p := by
  obtain ⟨_, _, _, rfl⟩ := h
  rfl

/-- An update of a partition that leaves these fields alone in its record. -/
theorem runs_updPart {f : Part → Part} (hf : ∀ x, ((f x).stage, (f x).ctx, (f x).slot, (f x).tileMask) =
    (x.stage, x.ctx, x.slot, x.tileMask)) (s : State) (q p : Nat) : runs (s.updPart q f) p = runs s p := by
  by_cases h : (q = 0) = (p = 0)
  · have same : (s.updPart q f).part p = f (s.part p) := by
      unfold State.updPart State.setPart State.part
      by_cases hq : q = 0 <;> simp_all
    rw [runs, same]
    exact hf _
  · rw [runs, State.updPart, part_setPart_ne s _ h]
    rfl

/-- A pass whose rounds leave them alone. -/
theorem runs_overList {α : Type} {l : List α} {f : α → State → State} {p : Nat}
    (h : ∀ x t, runs (f x t) p = runs t p) (s : State) : runs (overList l f s) p = runs s p :=
  overList_keeps (P := fun t => runs t p = runs s p) l f (fun x _ t ht => (h x t).trans ht) s rfl

theorem runs_iter {n : Nat} {f : Nat → State → State} {p : Nat} (h : ∀ i t, runs (f i t) p = runs t p) (s : State) :
    runs (iter n f s) p = runs s p :=
  iter_keeps (P := fun t => runs t p = runs s p) n f (fun i t _ ht => (h i t).trans ht) s rfl

/-! Results, PENDING and swaps. -/

@[simp] theorem runs_partResult (s : State) (q code p : Nat) : runs (partResult s q code) p = runs s p :=
  runs_of_sends ((wr_sends s _ code).trans (raise_sends _ _ _ _)) p

@[simp] theorem runs_pendSync (s : State) (q p : Nat) : runs (pendSync s q) p = runs s p := rfl

@[simp] theorem runs_swapSettle (s : State) (p : Nat) : runs (swapSettle s) p = runs s p := by
  refine runs_iter (fun m t => ?_) s
  dsimp only
  split
  · exact (runs_of_sends (raise_sends _ _ _ _) p).trans (runs_wrs t _ p)
  · rfl

@[simp] theorem runs_takeSwaps (s : State) (q p : Nat) : runs (takeSwaps s q) p = runs s p := by
  rw [takeSwaps, runs_swapSettle, runs_updPart]
  exact fun _ => rfl

/-! Tiles. -/

@[simp] theorem runs_showWaiting (s : State) (q p : Nat) : runs (showWaiting s q) p = runs s p := by
  simp only [showWaiting, runs_wr]
  rw [runs_updPart, runs_overList]
  · exact fun n t => runs_wrs t _ p
  · exact fun _ => rfl

@[simp] theorem runs_countRamps (s : State) (l : List Nat) (k p : Nat) : runs (countRamps s l k) p = runs s p :=
  runs_overList (by intros; rfl) s

@[simp] theorem runs_assignSites (s : State) (n slot : Nat) (l : List MseEntry) (p : Nat) :
    runs (assignSites s n slot l) p = runs s p := by
  refine runs_iter (fun i t => ?_) s
  dsimp only
  split
  · rfl
  · exact runs_wrs t _ p

@[simp] theorem runs_prepTile (s : State) (slot : Nat) (x : PartImage) (n : Nat) (load : Bool) (p : Nat) :
    runs (prepTile s slot x n load) p = runs s p := by
  unfold prepTile
  dsimp only
  split
  · exact (runs_wrs _ _ p).trans rfl
  · rfl

@[simp] theorem runs_prepTiles (s : State) (slot : Nat) (x : PartImage) (load : Bool) (p : Nat) :
    runs (prepTiles s slot x load) p = runs s p := by
  have prepared : runs (overList (maskTiles x.desc.tileMask) (fun n t => prepTile t slot x n load) s) p = runs s p :=
    runs_overList (fun n t => runs_prepTile t slot x n load p) s
  unfold prepTiles
  dsimp only
  split
  · exact foldl_keeps (P := fun t => runs t p = runs s p) _ (fun t i ht => (runs_assignSites t _ _ _ p).trans ht) _ _
      prepared
  · exact prepared

/-! Dividers and power. -/

@[simp] theorem runs_setTileStates (s : State) (q v p : Nat) : runs (setTileStates s q v) p = runs s p :=
  runs_overList (by intros; rfl) s

@[simp] theorem runs_stallAssert (s : State) (q : Nat) (c : Cause) (p : Nat) : runs (stallAssert s q c) p = runs s p := by
  unfold stallAssert
  split
  · rw [runs_setTileStates, runs_wr, runs_updPart]
    exact fun _ => rfl
  · rfl

@[simp] theorem runs_stallClear (s : State) (q : Nat) (c : Cause) (p : Nat) : runs (stallClear s q c) p = runs s p :=
  runs_updPart (by intros; rfl) s q p

theorem runs_markExempt (s : State) (p : Nat) : runs (markExempt s) p = runs s p := by
  simp only [runs, markExempt, State.part]
  split <;> rfl

@[simp] theorem runs_setReason (s : State) (r : Nat) (b : Bool) (p : Nat) : runs (setReason s r b) p = runs s p := by
  have raised : runs (((s.wr (thrActive r) 1).wr (thrSeen r) 1).raisePwr Reg.PWR_IRQ_STATUS_THROTTLE) p = runs s p :=
    runs_of_sends (raise_sends _ _ _ _) p
  unfold setReason
  split
  · rfl
  · split
    · dsimp only
      split
      · exact raised
      · exact (runs_markExempt _ p).trans raised
    · rfl

@[simp] theorem runs_powerSettle (s : State) (p : Nat) : runs (powerSettle s) p = runs s p := by
  unfold powerSettle
  dsimp only
  rw [runs_overList]
  · simp only [runs_setReason]
  · intro q t
    split
    · split
      · rfl
      · exact runs_stallAssert t q .clock p
    · split
      · exact runs_stallClear t q .clock p
      · rfl

/-- An order of a voltage that is acknowledged leaves the partitions alone. -/
theorem runs_pmbus (s : State) (mv p : Nat) : runs (pmbus s mv true) p = runs s p := by
  unfold pmbus
  split
  · rfl
  · simp only [if_true]
    obtain ⟨_, _, he⟩ := emit_shape (if ({ s with pwr := { s.pwr with setpoint := mv } } : State).ready then
      ({ s with pwr := { s.pwr with setpoint := mv } } : State).wr Reg.PWR_STATUS_VDD_MV mv
      else { s with pwr := { s.pwr with setpoint := mv } }) (.pmbus mv)
    rw [he]
    split <;> rfl

@[simp] theorem runs_voltUp (s : State) (p : Nat) : runs (voltUp s) p = runs s p := by
  unfold voltUp
  split
  · exact runs_pmbus s _ p
  · rfl

@[simp] theorem runs_startDivider (s : State) (q p : Nat) : runs (startDivider s q) p = runs s p := by
  unfold startDivider
  dsimp only
  rw [runs_powerSettle, runs_voltUp, runs_overList]
  · rfl
  · exact fun n t => runs_wr t _ _ p

/-! Entering a partition. -/

@[simp] theorem runs_pinSave (s : State) (q ctx role n p : Nat) : runs (pinSave s q ctx role n) p = runs s p := by
  unfold pinSave
  split
  · rfl
  · split
    · rfl
    · split
      · rfl
      · rw [runs_add, runs_updPart]
        exact fun _ => rfl

@[simp] theorem runs_spanEnter (s : State) (q : Nat) (im : Image) (p : Nat) : runs (spanEnter s q im) p = runs s p := by
  unfold spanEnter
  split
  · rfl
  · split
    · rfl
    · rw [runs_wrs]
      unfold State.updSpan
      split <;> rfl

/-- A context that enters a partition runs there with its slot and its tiles, at the stage that the partition is at. -/
theorem runs_enterPart (s : State) (p ctx slot : Nat) (im : Image) :
    runs (enterPart s p ctx slot im) p = ((s.part p).stage, ctx, slot, (im.parts.getD p {}).desc.tileMask) := by
  simp only [enterPart, runs_wrs, runs_spanEnter, runs_pinSave]
  rw [runs, part_updPart_same]

/-- A context that starts on an IDLE partition waits there, with its slot and its tiles (R72, R94). -/
theorem runs_startIdle {s : State} {p ctx k : Nat} {im : Image} (hk : boundSlot s ctx = some k) (him : s.image k = some im) :
    runs (startIdle s p ctx) p = (.waiting, ctx, k, (im.parts.getD p {}).desc.tileMask) := by
  unfold startIdle
  simp only [hk, him, runs_partResult, runs_takeSwaps, runs_pendSync, runs_showWaiting, runs_startDivider, runs_countRamps,
    runs_prepTiles, runs_enterPart, part_updPart_same]

end Sys2Proof.Machine.Architecture
end

section
/-! Activations, stops and urgent requests (R71 to R74, R274, R278, R324). -/

namespace Sys2Proof.Machine.Architecture

/-! What a request's own field leaves alone. -/

/-- A context's binding lies in the block SEC: a write below it leaves it alone. -/
theorem boundSlot_wr {f : Fld} (h : f.key < 0x3000000 * 64) (s : State) (v c : Nat) :
    boundSlot (s.wr f v) c = boundSlot s c := by
  have slot : (s.wr f v).rd (Reg.SEC_CTX_SLOT c) = s.rd (Reg.SEC_CTX_SLOT c) := rd_wr_ne s v (by
    simp only [Fld.key, Reg.SEC_CTX_SLOT] at h ⊢
    omega)
  have bound : (s.wr f v).flag (Reg.SEC_CTX_BOUND c) = s.flag (Reg.SEC_CTX_BOUND c) := by
    rw [State.flag, State.flag, rd_wr_ne]
    simp only [Fld.key, Reg.SEC_CTX_BOUND] at h ⊢
    omega
  simp only [boundSlot, slot, bound]

/-- Below Keeper's block no field is Keeper's ready bit. -/
theorem ready_wr {f : Fld} (h : f.key < 0x2400000 * 64) (s : State) (v : Nat) : (s.wr f v).ready = s.ready := by
  rw [State.ready, State.flag, State.ready, State.flag, rd_wr_ne]
  simp only [Fld.key, Reg.KPR_STATUS_READY] at h ⊢
  omega

/-! The pins of a save region. -/

/-- A walk rests on DRAM, the granules, the contexts and the sets. -/
theorem walk_congr {s t : State} (hdram : t.dram = s.dram) (hgran : t.gran = s.gran) (hctxs : t.ctxs = s.ctxs)
    (hexp : t.exp = s.exp) : walk t = walk s := by
  have pte : readPte t = readPte s := by
    funext pa
    simp only [readPte, State.mnat, State.mread, hdram]
  have own : owns t = owns s := by
    funext c pa
    simp only [owns, State.granule, hgran]
  have sets : t.set = s.set := by
    funext n
    simp only [State.set, hexp]
  have tier1 : tier1Ok t = tier1Ok s := by
    funext a n
    simp only [tier1Ok, sets]
  have record : t.ctxRec = s.ctxRec := by
    funext c
    simp only [State.ctxRec, hctxs]
  have leaf : walkLeaf t = walkLeaf s := by
    funext c va pa e size w
    simp only [walkLeaf, own, tier1]
  have level3 : walk3 t = walk3 s := by
    funext c va tab big w
    simp only [walk3, pte, leaf]
  have level2 : walk2 t = walk2 s := by
    funext c va tab w
    simp only [walk2, pte, leaf, own, level3]
  have pointer : walkPointer t = walkPointer s := by
    funext c pa k
    simp only [walkPointer, pte, own]
  funext c va w
  simp only [walk, record, own, pointer, level2]

/-- The leaves of a region rest on the walk alone. -/
theorem regionLeaves_congr {s t : State} (h : walk t = walk s) (ctx stop fuel va : Nat) :
    regionLeaves t ctx stop fuel va = regionLeaves s ctx stop fuel va := by
  induction fuel generalizing va with
  | zero => rfl
  | succ fuel ih => simp only [regionLeaves, h, ih]

/-- The pins of a save region rest on DRAM, the granules, the contexts and the sets. -/
theorem savePins_congr {s t : State} (hdram : t.dram = s.dram) (hgran : t.gran = s.gran) (hctxs : t.ctxs = s.ctxs)
    (hexp : t.exp = s.exp) (ctx role n : Nat) : savePins t ctx role n = savePins s ctx role n := by
  have leaves := regionLeaves_congr (walk_congr hdram hgran hctxs hexp)
  simp only [savePins, saveRegion, State.ctxRec, hctxs, leaves]

/-- Room for new entries never costs an entry of the running context (R268). -/
theorem pinRoom_keeps {x : Part} {new l : List Pin} (h : pinRoom x new = some l) {q : Pin} (hq : q ∈ x.pins)
    (hctx : q.ctx = x.ctx) : q ∈ l := by
  unfold pinRoom at h
  dsimp only at h
  split at h
  · obtain rfl := Option.some.inj h
    exact List.mem_append_left _ hq
  · split at h
    · exact absurd h (by simp)
    · obtain rfl := Option.some.inj h
      have run : q ∈ x.pins.filter (fun q => q.ctx == x.ctx) := List.mem_filter.mpr ⟨hq, by simp [hctx]⟩
      exact List.mem_append_left _ (List.mem_append_right _ run)

/-- New entries that the table holds join those it has. -/
theorem pinRoom_of_room {x : Part} {new : List Pin} (h : x.pins.length + new.length ≤ 2 ^ 20) :
    pinRoom x new = some (x.pins ++ new) := if_pos h

/-- Pinning a save region changes nothing, or adds its entries to the partition's and counts them. -/
theorem pinSave_cases (s : State) (p ctx role n : Nat) : pinSave s p ctx role n = s ∨
    ∃ new l, savePins s ctx role n = some new ∧ pinRoom (s.part p) new = some l ∧
      pinSave s p ctx role n = (s.updPart p (fun y => { y with pins := l })).add Reg.XLT_PINS new.length := by
  unfold pinSave
  split
  · exact Or.inl rfl
  · split
    · exact Or.inl rfl
    · next new hnew =>
      split
      · exact Or.inl rfl
      · next l hl => exact Or.inr ⟨new, l, hnew, hl, rfl⟩

/-- The entries of a region that the context has not pinned yet join the partition's where there is room (R274). -/
theorem pins_pinSave_of_room {s : State} {p ctx role n : Nat} {new : List Pin}
    (hfree : ((s.part p).pins.any (fun q => q.kind == .save && q.ctx == ctx)) = false)
    (hnew : savePins s ctx role n = some new) (hroom : (s.part p).pins.length + new.length ≤ 2 ^ 20) :
    ((pinSave s p ctx role n).part p).pins = (s.part p).pins ++ new := by
  have pinned : pinSave s p ctx role n =
      (s.updPart p (fun y => { y with pins := (s.part p).pins ++ new })).add Reg.XLT_PINS new.length := by
    simp only [pinSave, hfree, Bool.false_eq_true, if_false, hnew, pinRoom_of_room hroom]
  rw [pinned]
  exact congrArg Part.pins (part_updPart_same s p _)

/-- What pinning a save region changes and leaves. -/
theorem pinSave_effect {s t : State} {p ctx role n : Nat} (ht : t = pinSave s p ctx role n) :
    t.part p = { s.part p with pins := (t.part p).pins } ∧
    (∀ q ∈ (s.part p).pins, q.ctx = (s.part p).ctx → q ∈ (t.part p).pins) ∧ s.regsKept t [Reg.XLT_PINS] ∧
    t.dram = s.dram ∧ t.ops = s.ops ∧ t.chn = s.chn := by
  rcases pinSave_cases s p ctx role n with h | ⟨new, l, -, hl, h⟩
  · rw [h] at ht
    subst ht
    exact ⟨rfl, fun _ hq _ => hq, fun _ _ => rfl, rfl, rfl, rfl⟩
  · have part : t.part p = { s.part p with pins := l } := by
      rw [ht, h]
      exact part_updPart_same s p _
    rw [h] at ht
    subst ht
    refine ⟨?_, fun q hq hctx => ?_, fun g hg => ?_, dram_updPart s p _, ops_updPart s p _, chn_setPart s p _⟩
    · rw [part]
    · rw [part]
      exact pinRoom_keeps hl hq hctx
    · rw [State.add, rd_wr_ne _ _ (hg _ (by simp)), rd_updPart]

/-! Requests that wait for the boundary. -/

/-- The part of the image to which an activation is bound. -/
def queuedPart (s : State) (p ctx : Nat) : PartImage :=
  match boundSlot s ctx with
  | some k => ((s.image k).getD {}).parts.getD p {}
  | none => {}

/-- An activation of a partition with nothing pending becomes pending, and its save region is pinned (R72, R274). -/
theorem queueCtx_of_clear {s : State} {p ctx : Nat} (hstop : (s.part p).pendStop = false)
    (hctx : (s.part p).pendCtx = none) :
    queueCtx s p ctx = pendSync (pinSave (s.updPart p (fun y => { y with pendCtx := some ctx })) p ctx
      (queuedPart s p ctx).desc.role (maskTiles (queuedPart s p ctx).desc.tileMask).length) p := by
  simp only [queueCtx, hstop, hctx, Bool.false_eq_true, if_false]
  rfl

/-- A request that waits shows PENDING; the other registers and the rest of the state are as before. -/
theorem pendSync_effect {s t : State} {p : Nat} (h : (s.part p).pendCtx.isSome || (s.part p).pendStop)
    (ht : t = pendSync s p) :
    t.rd (Reg.ITN_P_STATUS_PENDING p) = 1 ∧ s.regsKept t [Reg.ITN_P_STATUS_PENDING p] ∧ s.onlyRegs t := by
  have pending : b2n ((s.part p).pendCtx.isSome || (s.part p).pendStop || (s.part p).stopCode != 0) = 1 := by
    rw [h]
    rfl
  rw [pendSync, pending] at ht
  subst ht
  exact ⟨rd_wr_same s _ 1, fun g hg => rd_wr_ne s _ (hg _ (by simp)), rfl⟩

/-- What an activation that becomes pending changes and leaves. -/
theorem queueCtx_effect {s t : State} {p ctx : Nat} (hstop : (s.part p).pendStop = false)
    (hctx : (s.part p).pendCtx = none) (ht : t = queueCtx s p ctx) :
    t.part p = { s.part p with pendCtx := some ctx, pins := (t.part p).pins } ∧
    (∀ q ∈ (s.part p).pins, q.ctx = (s.part p).ctx → q ∈ (t.part p).pins) ∧
    t.rd (Reg.ITN_P_STATUS_PENDING p) = 1 ∧ s.regsKept t [Reg.ITN_P_STATUS_PENDING p, Reg.XLT_PINS] ∧
    t.dram = s.dram ∧ t.ops = s.ops ∧ t.chn = s.chn := by
  rw [queueCtx_of_clear hstop hctx] at ht
  obtain ⟨hpart, hpins, hregs, hdram, hops, hchn⟩ := pinSave_effect (s := s.updPart p (fun y => { y with pendCtx := some ctx }))
    (p := p) (ctx := ctx) (role := (queuedPart s p ctx).desc.role)
    (n := (maskTiles (queuedPart s p ctx).desc.tileMask).length) rfl
  obtain ⟨hpending, hkept, honly⟩ := pendSync_effect (by rw [hpart, part_updPart_same]; rfl) ht
  rw [part_updPart_same] at hpart hpins
  rw [← part_of_onlyRegs honly p] at hpart hpins
  refine ⟨hpart, hpins, hpending, fun g hg => ?_, ?_, ?_, ?_⟩
  · rw [hkept g fun f hf => hg f (List.mem_cons.mpr (Or.inl (List.mem_singleton.mp hf))),
      hregs g fun f hf => hg f (List.mem_cons_of_mem _ hf), rd_updPart]
  · rw [honly]
    exact hdram.trans (dram_updPart s p _)
  · rw [honly]
    exact hops.trans (ops_updPart s p _)
  · rw [honly]
    exact hchn.trans (chn_setPart s p _)

/-- The pins of a pending activation, where its region is not pinned and the table has room. -/
theorem pins_queueCtx {s : State} {p ctx k : Nat} {im : Image} {new : List Pin} (hstop : (s.part p).pendStop = false)
    (hctx : (s.part p).pendCtx = none) (hk : boundSlot s ctx = some k) (him : s.image k = some im)
    (hnew : savePins s ctx (im.parts.getD p {}).desc.role (maskTiles (im.parts.getD p {}).desc.tileMask).length = some new)
    (hroom : (s.part p).pins.length + new.length ≤ 2 ^ 20)
    (hfree : ((s.part p).pins.any (fun q => q.kind == .save && q.ctx == ctx)) = false) :
    ((queueCtx s p ctx).part p).pins = (s.part p).pins ++ new := by
  have img : queuedPart s p ctx = im.parts.getD p {} := by
    simp only [queuedPart, hk, him, Option.getD_some]
  rw [queueCtx_of_clear hstop hctx, img]
  refine (pins_pinSave_of_room (s := s.updPart p (fun y => { y with pendCtx := some ctx })) (new := new)
    ?_ ?_ ?_).trans ?_
  · rw [part_updPart_same]
    exact hfree
  · rw [← hnew]
    exact savePins_congr (dram_updPart s p _) (gran_setPart s p _) (ctxs_setPart s p _) (exp_setPart s p _) _ _ _
  · rw [part_updPart_same]
    exact hroom
  · rw [part_updPart_same]

/-- A request waits as long as its partition is in a step. -/
theorem actNow_of_step {s : State} {p : Nat} (h : (s.part p).inStep = true) : actNow s p = s := by
  simp [actNow, stage_ne_waiting_of_inStep h]

/-- Where no stage of a span runs, none halts. -/
theorem spanHalt_of_not_running {s : State} {p : Nat} (h : (s.span p).running = false) : spanHalt s p = s := by
  simp [spanHalt, spanUp, h]

theorem span_of_chn {s t : State} (h : t.chn = s.chn) (p : Nat) : t.span p = s.span p := by
  simp only [State.span, h]

/-- A partition in a step has a context. -/
theorem busy_of_inStep {x : Part} (h : x.inStep = true) : x.busy = true := by
  cases hs : x.stage <;> simp_all [Part.inStep, Part.busy]

/-- A step before its scatter is a step. -/
theorem inStep_of_beforeScatter {x : Part} (h : x.beforeScatter = true) : x.inStep = true := by
  cases hs : x.stage <;> simp_all [Part.inStep, Part.beforeScatter]

/-! Activations. -/

/-- With Keeper ready an activation is refused with the code of its check, starts on an IDLE partition, or is queued. -/
theorem activate_of_ready {s : State} (h : s.ready = true) (p ctx : Nat) (urgent : Bool) (beats : Nat) :
    activate s p ctx urgent beats =
      if urgent && (s.part p).busy && (s.part p).ctx == ctx then partRefuse s p ctx Code.ITN_E_BIND
      else if activationCode s p ctx != 0 then partRefuse s p ctx (activationCode s p ctx)
      else if !(s.part p).busy then startIdle s p ctx
      else if (s.part p).pendStop then queueCtx s p ctx
      else if urgent then preempt (spanHalt (queueCtx s p ctx) p) p beats
      else actNow (queueCtx s p ctx) p := keeper_of_ready h _ _

/-- An accepted activation in a step with nothing pending waits for the boundary. -/
theorem activate_of_step {s : State} {p ctx : Nat} (h : s.ready = true) (hcode : activationCode s p ctx = 0)
    (hin : (s.part p).inStep = true) (hstop : (s.part p).pendStop = false) (hctx : (s.part p).pendCtx = none) :
    activate s p ctx false 0 = queueCtx s p ctx := by
  obtain ⟨hpart, -⟩ := queueCtx_effect hstop hctx (rfl : queueCtx s p ctx = _)
  have later : ((queueCtx s p ctx).part p).inStep = true := by
    rw [hpart]
    exact hin
  rw [activate_of_ready h]
  simp [hcode, busy_of_inStep hin, hstop, actNow_of_step later]

/-- Before the scatter an urgent request abandons the step: its bookings are counted, and the requests that a CANCEL had
stopped end (R278). -/
theorem preempt_of_beforeScatter {s : State} {p : Nat} (h : (s.part p).beforeScatter = true) (beats : Nat) {u : State}
    (hu : u = (s.updPart p (fun y => { y with urgent := true })).add Reg.MEM_BKG_AB_PREEMPT (s.part p).bookings.length) :
    preempt s p beats = boundary (endStopped (abandon (dropStall u p beats) p) (stepOps s p)) p := by
  have ops : stepOps u p = stepOps s p := by
    rw [hu]
    simp [stepOps, State.add]
  subst hu
  rw [← ops]
  exact if_pos h

/-- An accepted urgent activation before the scatter is queued and abandons the step (R324). -/
theorem activate_urgent {s : State} {p ctx : Nat} (h : s.ready = true) (hcode : activationCode s p ctx = 0)
    (hbefore : (s.part p).beforeScatter = true) (hne : (s.part p).ctx ≠ ctx) (hstop : (s.part p).pendStop = false)
    (hctx : (s.part p).pendCtx = none) (hspan : (s.span p).running = false) (beats : Nat) {u : State}
    (hu : u = ((queueCtx s p ctx).updPart p (fun y => { y with urgent := true })).add Reg.MEM_BKG_AB_PREEMPT
      (s.part p).bookings.length) :
    activate s p ctx true beats = boundary (endStopped (abandon (dropStall u p beats) p) (stepOps s p)) p := by
  obtain ⟨hpart, -, -, -, -, hops, hchn⟩ := queueCtx_effect hstop hctx (rfl : queueCtx s p ctx = _)
  have before : ((queueCtx s p ctx).part p).beforeScatter = true := by
    rw [hpart]
    exact hbefore
  have bookings : ((queueCtx s p ctx).part p).bookings = (s.part p).bookings := by rw [hpart]
  have steps : stepOps (queueCtx s p ctx) p = stepOps s p := by simp only [stepOps, hops]
  have halt : spanHalt (queueCtx s p ctx) p = queueCtx s p ctx :=
    spanHalt_of_not_running (by rw [span_of_chn hchn, hspan])
  rw [← bookings] at hu
  rw [activate_of_ready h, ← steps, ← preempt_of_beforeScatter before beats hu]
  simp [hcode, busy_of_inStep (inStep_of_beforeScatter hbefore), hne, hstop, halt]

/-! Stops. -/

/-- A stop is pending in a partition with no activation pending. -/
def stopPending (s : State) (p : Nat) : State := pendSync (s.updPart p (fun y => { y with pendStop := true })) p

/-- With Keeper ready a stop of a partition that has a context and nothing else pending becomes pending, and acts where it
can (R73). -/
theorem stopPart_of_busy {s : State} {p : Nat} (h : s.ready = true) (hbusy : (s.part p).busy = true)
    (hctx : (s.part p).pendCtx = none) (hspan : (s.span p).running = false) (urgent : Bool) (beats : Nat) :
    stopPart s p urgent beats =
      if urgent then preempt (stopPending s p) p beats else actNow (stopPending s p) p := by
  have stored : s.updPart p (fun y => { y with pendCtx := none, pendStop := true }) =
      s.updPart p (fun y => { y with pendStop := true }) := by
    simp only [State.updPart, hctx]
  have halt : spanHalt (stopPending s p) p = stopPending s p :=
    spanHalt_of_not_running (by rw [span_of_chn (show (stopPending s p).chn = s.chn from chn_setPart s p _), hspan])
  rw [stopPart, keeper_of_ready h]
  simp only [hbusy, if_true, hctx, stored]
  change (if urgent = true then preempt (spanHalt (stopPending s p) p) p beats
    else actNow (spanHalt (stopPending s p) p) p) = _
  rw [halt]

/-- What a pending stop changes and leaves. -/
theorem stopPending_effect {s t : State} {p : Nat} (ht : t = stopPending s p) :
    t.part p = { s.part p with pendStop := true } ∧ t.rd (Reg.ITN_P_STATUS_PENDING p) = 1 ∧
    s.regsKept t [Reg.ITN_P_STATUS_PENDING p] ∧ t.dram = s.dram ∧ t.ops = s.ops := by
  obtain ⟨hpending, hkept, honly⟩ := pendSync_effect (by rw [part_updPart_same]; simp) ht
  refine ⟨?_, hpending, fun g hg => ?_, ?_, ?_⟩
  · rw [part_of_onlyRegs honly, part_updPart_same]
  · rw [hkept g hg, rd_updPart]
  · rw [honly]
    exact dram_updPart s p _
  · rw [honly]
    exact ops_updPart s p _

/-! The commands. -/

theorem exec_activation {s : State} {p : Nat} (h : s.hostOk (Reg.ITN_P_CTRL_CONTEXT p).off = true) (c : Nat) :
    exec (.activation p c) s = .next (activate (s.wr (Reg.ITN_P_CTRL_CONTEXT p) c) p c false 0) :=
  congrArg Host.Outcome.next (host_of_ok h _)

theorem exec_partitionStop {s : State} {p : Nat} (h : s.hostOk (Reg.ITN_P_CTRL_CONTEXT p).off = true) :
    exec (.partitionStop p) s = .next (stopPart s p false 0) := congrArg Host.Outcome.next (host_of_ok h _)

theorem exec_urgentPreempt {s : State} {p : Nat} (h : s.hostOk (Reg.SRV_P_URGENT_CONTEXT p).off = true) (c beats : Nat) :
    exec (.urgentPreempt p c beats) s = .next (activate (s.wr (Reg.SRV_P_URGENT_CONTEXT p) c) p c true beats) :=
  congrArg Host.Outcome.next (host_of_ok h _)

theorem exec_urgentStop {s : State} {p : Nat} (h : s.hostOk (Reg.SRV_P_URGENT_CONTEXT p).off = true) (beats : Nat) :
    exec (.urgentStop p beats) s = .next (stopPart s p true beats) := congrArg Host.Outcome.next (host_of_ok h _)

/-- Naming the context of an activation leaves Keeper's ready bit and the bindings alone. -/
theorem ctrlContext_keeps {p : Nat} (h : p < 2) (s : State) (c : Nat) :
    (s.wr (Reg.ITN_P_CTRL_CONTEXT p) c).ready = s.ready ∧
    ∀ d, boundSlot (s.wr (Reg.ITN_P_CTRL_CONTEXT p) c) d = boundSlot s d := by
  have key : (Reg.ITN_P_CTRL_CONTEXT p).key < 0x200000 * 64 := by
    simp only [Fld.key, Reg.ITN_P_CTRL_CONTEXT]
    omega
  exact ⟨ready_wr (by omega) s c, boundSlot_wr (by omega) s c⟩

/-- Naming the context of an urgent request leaves Keeper's ready bit alone. -/
theorem ready_urgentContext {p : Nat} (h : p < 2) (s : State) (c : Nat) :
    (s.wr (Reg.SRV_P_URGENT_CONTEXT p) c).ready = s.ready := by
  refine ready_wr ?_ s c
  simp only [Fld.key, Reg.SRV_P_URGENT_CONTEXT]
  omega

/-- Settles O20: each request passes its gates, and the partition's stage picks what it does: it starts, waits for the
boundary, is refused or abandons the step. -/
theorem activation : Obligations.Activation := by
  unfold Obligations.Activation
  refine ⟨?starts, ?pends, ?refused, ?stops, ?idle, ?urgent, ?urgentStop⟩
  case starts =>
    intro p c k im s hp hc hok hready hk him hidle hcode
    obtain ⟨ready, bound⟩ := ctrlContext_keeps hp s c
    rw [hready] at ready
    have started : activate (s.wr (Reg.ITN_P_CTRL_CONTEXT p) c) p c false 0 =
        startIdle (s.wr (Reg.ITN_P_CTRL_CONTEXT p) c) p c := by
      rw [activate_of_ready ready]
      simp [hcode, Part.busy, hidle]
    have hruns := runs_startIdle (p := p) ((bound c).trans hk) him
    simp only [runs, Prod.mk.injEq] at hruns
    exact ⟨_, exec_activation hok c, started, by rw [started]; exact hruns⟩
  case pends =>
    intro p c s hp hc hok hready hin hstop hctx hcode
    obtain ⟨ready, bound⟩ := ctrlContext_keeps hp s c
    rw [hready] at ready
    have queued := activate_of_step ready hcode hin hstop hctx
    obtain ⟨hpart, hpins, hpending, hregs, hdram, -⟩ := queueCtx_effect (s := s.wr (Reg.ITN_P_CTRL_CONTEXT p) c) hstop hctx queued
    rw [part_wr] at hpart hpins
    refine ⟨_, exec_activation hok c, hpart, hpins, ?_, hpending, fun g hg => ?_, memKept_of_dram hdram⟩
    · intro k im new hk him hnew hroom hfree
      rw [queued]
      refine pins_queueCtx hstop hctx ((bound c).trans hk) him ?_ hroom hfree
      rw [← hnew]
      exact savePins_congr (dram_wr s _ c) (gran_wr s _ c) (ctxs_wr s _ c) (exp_wr s _ c) _ _ _
    · rw [hregs g fun f hf => hg f (List.mem_cons_of_mem _ hf), rd_wr_ne s c (hg _ List.mem_cons_self)]
  case refused =>
    intro p c s hp hc hok hready hcode
    obtain ⟨ready, -⟩ := ctrlContext_keeps hp s c
    rw [hready] at ready
    rw [exec_activation hok, activate_of_ready ready]
    simp [hcode]
  case stops =>
    intro p s hp hok hready hin hctx hspan
    have stopped : stopPart s p false 0 = stopPending s p := by
      obtain ⟨hpart, -⟩ := stopPending_effect (rfl : stopPending s p = _)
      have later : ((stopPending s p).part p).inStep = true := by
        rw [hpart]
        exact hin
      rw [stopPart_of_busy hready (busy_of_inStep hin) hctx hspan, if_neg (by decide), actNow_of_step later]
    obtain ⟨hpart, hpending, hregs, hdram, -⟩ := stopPending_effect stopped
    exact ⟨_, exec_partitionStop hok, hpart, hpending, hregs, memKept_of_dram hdram⟩
  case idle =>
    intro p s _ hok hready hidle
    rw [exec_partitionStop hok, stopPart, keeper_of_ready hready]
    simp [Part.busy, hidle]
  case urgent =>
    intro p c beats s u hp hc hok hready hbefore hne hstop hctx hspan hcode hu
    rw [exec_urgentPreempt hok, activate_urgent ((ready_urgentContext hp s c).trans hready) hcode hbefore hne hstop hctx hspan beats hu]
    rfl
  case urgentStop =>
    intro p beats s u hp hok hready hbefore hctx hspan hu
    obtain ⟨hpart, -, -, -, hops⟩ := stopPending_effect (rfl : stopPending s p = _)
    have before : ((stopPending s p).part p).beforeScatter = true := by
      rw [hpart]
      exact hbefore
    have bookings : ((stopPending s p).part p).bookings = (s.part p).bookings := by rw [hpart]
    have steps : stepOps (stopPending s p) p = stepOps s p := by simp only [stepOps, hops]
    rw [← bookings] at hu
    rw [exec_urgentStop hok, stopPart_of_busy hready (busy_of_inStep (inStep_of_beforeScatter hbefore)) hctx hspan,
      if_pos rfl, preempt_of_beforeScatter before beats hu, steps]

end Sys2Proof.Machine.Architecture
end

section
/-! The beginning of a step: work that arrives, segment 0, the seal beat and segment 1 (R87 to R89, R93, R269, R272, R314,
R318). -/

namespace Sys2Proof.Machine.Architecture

/-- A pass whose rounds change registers and tiles only. -/
theorem RegsTiles.of_overList {α : Type} {l : List α} {f : α → State → State} {s : State}
    (h : ∀ x t, RegsTiles s t → RegsTiles s (f x t)) : RegsTiles s (overList l f s) :=
  overList_keeps l f (fun x _ t ht => h x t ht) s rfl

/-- A pass in which each tile changes itself, as often as once would do, changes each tile of the list once. -/
theorem tile_overList_updTile {g : Nat → Tile → Tile} (idem : ∀ n u, g n (g n u) = g n u) {l : List Nat} {n : Nat}
    (hn : n ∈ l) (s : State) : (overList l (fun m t => t.updTile m (g m)) s).tile n = g n (s.tile n) := by
  refine overList_reaches (P := fun t => g n (t.tile n) = g n (s.tile n)) (Q := fun t => t.tile n = g n (s.tile n)) hn
    (fun m _ t ht => ?_) (fun t ht => (tile_updTile_same t n _).trans ht) (fun m _ t ht => ?_) s rfl
  · by_cases h : m = n
    · subst h
      rw [tile_updTile_same, idem, ht]
    · rw [tile_updTile_ne _ _ h, ht]
  · by_cases h : m = n
    · subst h
      rw [tile_updTile_same, ht, idem]
    · rw [tile_updTile_ne _ _ h, ht]

/-! Work for a waiting partition. -/

/-- Work for a partition that waits with nothing pending: deadlines, admission, and the end of the wait (R87). -/
theorem workArrives_of_waiting {s : State} {p : Nat} (hs : (s.part p).stage = .waiting) (hctx : (s.part p).pendCtx = none)
    (hstop : (s.part p).pendStop = false) (hcode : (s.part p).stopCode = 0) :
    workArrives s p = wake (admitWaiting (deadlinePass s (s.part p).ctx) p) p := by
  simp [workArrives, hs, hctx, hstop, hcode]

/-! Segment 0. -/

/-- What makes a step due but for the banks that it reads (R47, R87, R269). -/
theorem stepDue_of_candidates {s : State} {p : Nat} (hdone : startDone s = true) (hs : (s.part p).stage = .waiting)
    (hst : (s.part p).stall = {}) (hramp : ramped s p = true) (hctx : (s.part p).pendCtx = none)
    (hstop : (s.part p).pendStop = false) (hcode : (s.part p).stopCode = 0)
    (hcand : spanLater s p = true ∨ candidates s p ≠ []) (hspan : spanReady s p = true) : stepDue s p = true := by
  have work : (spanLater s p || !(candidates s p).isEmpty) = true := by simpa using hcand
  simp [stepDue, hdone, hs, not_on_of_none hst, hramp, hctx, hstop, hcode, work, hspan]

/-- A step that is due and that a bank holds: the partition notes since when (R175, R181). -/
theorem stepStart_of_held {s : State} {p : Nat} (hdue : stepDue s p = true) (hbank : bankHolds s p = true) (need : Needs) :
    stepStart need s p = s.updPart p (fun y => { y with heldKc := some (y.heldKc.getD s.timeKc) }) := by
  simp [stepStart, stepReady, hdue, hbank]

/-- A step that is due and that no bank holds: segment 0 begins (R269). -/
theorem stepReady_of_due {s : State} {p : Nat} (hdue : stepDue s p = true) (hbank : bankHolds s p = false) :
    stepReady s p = true := by
  simp [stepReady, hdue, hbank]

/-- A later stage of a span adopts its plan, any other step forms it (R269, R347). -/
theorem planMade_eq (later : Bool) (need : Needs) (s : State) (p : Nat) :
    (if later then adoptPlan else formPlan) need s p = if later then adoptPlan need s p else formPlan need s p := by
  cases later with
  | false => rfl
  | true => rfl

/-! The seal beat. -/

/-- The seal beat of a prologue that no stall holds: deadlines, admission, and the plan closes (R93, R314, R318). -/
theorem sealBeat_of_prologue {s : State} {p : Nat} (hs : (s.part p).stage = .prologue) (hst : (s.part p).stall = {}) :
    sealBeat s p = (admitWaiting (deadlineAll s) p).updPart p (fun y => { y with
      stage := .sealed
      beat := y.beat + (prologueBeats ((admitWaiting (deadlineAll s) p).partImage p) - 16) }) := by
  simp [sealBeat, hs, not_on_of_none hst]

/-! Segment 1. -/

/-- A tile is filled once its fill entries have run (R272). -/
def markFilled (img : PartImage) (n : Nat) (u : Tile) : Tile :=
  { u with filled := u.filled || (fillEntries img n).all (fun e => u.fillDone.contains e) }

/-- A tile marked twice is as a tile marked once. -/
theorem markFilled_twice (img : PartImage) (n : Nat) (u : Tile) :
    markFilled img n (markFilled img n u) = markFilled img n u := by
  simp [markFilled]

/-- Every tile of the partition is marked where its fill entries have run. -/
def fillMarked (s : State) (p : Nat) : State :=
  overList (s.part p).tiles (fun n t => t.updTile n (markFilled (s.partImage p) n)) s

theorem fillMarked_frame (s : State) (p : Nat) : RegsTiles s (fillMarked s p) :=
  RegsTiles.of_overList fun _ _ ht => ht.updTile _ _

/-- The pass marks each tile of the partition, and each only by its own entries. -/
theorem tile_fillMarked {s : State} {p n : Nat} (hn : n ∈ (s.part p).tiles) :
    (fillMarked s p).tile n = markFilled (s.partImage p) n (s.tile n) :=
  tile_overList_updTile (markFilled_twice (s.partImage p)) hn s

/-- One tile binds its thread slots for a plan of `rows` rows (R89). -/
def bindTile (img : PartImage) (free rows n : Nat) (t : State) : State :=
  (t.updTile n (fun u => { u with
    threads := bindKernels (free + 98304 * n) rows 0 0 ((tileKernels img n).getD {}).dir u.threads })).wr
    (Reg.TIL_THREADS_BOUND n) (boundThreads rows ((tileKernels img n).getD {}).dir)

/-- Every tile of the partition binds its thread slots. -/
def threadsBound (s : State) (p : Nat) : State :=
  overList (s.part p).tiles (bindTile (s.partImage p) s.free (s.part p).plan.length) s

theorem threadsBound_frame (s : State) (p : Nat) : RegsTiles s (threadsBound s p) :=
  RegsTiles.of_overList fun _ _ ht => (ht.updTile _ _).wr _ _

/-- Binding a tile's thread slots changes of any tile the thread slots alone. -/
theorem tile_bindTile (img : PartImage) (free rows m : Nat) (t : State) (n : Nat) :
    (bindTile img free rows m t).tile n = { t.tile n with threads := ((bindTile img free rows m t).tile n).threads } := by
  unfold bindTile
  by_cases h : m = n
  · subst h
    simp
  · simp [tile_updTile_ne _ _ h]

theorem tile_threadsBound (s : State) (p n : Nat) :
    (threadsBound s p).tile n = { s.tile n with threads := ((threadsBound s p).tile n).threads } := by
  refine overList_keeps (P := fun t => t.tile n = { s.tile n with threads := (t.tile n).threads }) _ _
    (fun m _ t ht => ?_) s rfl
  rw [tile_bindTile, ht]

/-- Each tile of the partition reports its thread slots that serve a live row or all rows. -/
theorem rd_threadsBound {s : State} {p n : Nat} (hn : n ∈ (s.part p).tiles) :
    (threadsBound s p).rd (Reg.TIL_THREADS_BOUND n) =
      boundThreads (s.part p).plan.length ((tileKernels (s.partImage p) n).getD {}).dir %
        2 ^ (Reg.TIL_THREADS_BOUND n).width := by
  refine overList_reaches (P := fun _ => True) (Q := fun t => t.rd (Reg.TIL_THREADS_BOUND n) = _) hn
    (fun _ _ _ _ => trivial) (fun t _ => ?_) (fun m _ t ht => ?_) s trivial
  · exact rd_wr_same _ _ _
  · by_cases h : m = n
    · subst h
      exact rd_wr_same _ _ _
    · have other : (Reg.TIL_THREADS_BOUND m).key ≠ (Reg.TIL_THREADS_BOUND n).key := by
        simp only [Fld.key, Reg.TIL_THREADS_BOUND]
        omega
      exact (rd_wr_ne _ _ other).trans ht

/-- What the binding of a partition's thread slots changes and leaves. -/
theorem bindThreads_effect {s t : State} {p : Nat} (ht : t = bindThreads s p) :
    t.part p = s.part p ∧ t.dram = s.dram ∧
    ∀ n ∈ (s.part p).tiles, (t.tile n).filled = (s.tile n).filled ∧ (t.tile n).scratch = (s.tile n).scratch ∧
      t.rd (Reg.TIL_THREADS_BOUND n) =
        boundThreads (s.part p).plan.length ((tileKernels (s.partImage p) n).getD {}).dir %
          2 ^ (Reg.TIL_THREADS_BOUND n).width := by
  have frame := threadsBound_frame s p
  have tile (n : Nat) : (bindThreads s p).tile n = _ := tile_threadsBound s p n
  subst ht
  refine ⟨frame.part p, frame.dram, fun n hn => ⟨?_, ?_, rd_threadsBound hn⟩⟩
  · rw [tile n]
  · rw [tile n]

/-- The state in which the body of a step begins, its thread slots still to bind. -/
def bodyBegun (s : State) (p : Nat) : State :=
  ((fillMarked s p).updPart p (fun y => { y with beat := y.beat + 16, seg := 1 })).updPart p
    (fun y => { y with stage := .body })

/-- At segment 1 of a plan with rows the tiles are marked and bind their thread slots (R89, R93, R272). -/
theorem segmentOne_of_plan {s : State} {p : Nat} (hs : (s.part p).stage = .sealed) (hst : (s.part p).stall = {})
    (hplan : (s.part p).plan ≠ []) : segmentOne s p = bindThreads (bodyBegun s p) p := by
  have rows : (s.part p).plan.isEmpty = false := by simpa using hplan
  simp only [segmentOne, hs, not_on_of_none hst, rows]
  rfl

theorem part_bodyBegun (s : State) (p : Nat) : (bodyBegun s p).part p =
    { s.part p with beat := (s.part p).beat + 16, seg := 1, stage := .body } := by
  rw [bodyBegun, part_updPart_same, part_updPart_same, (fillMarked_frame s p).part]

theorem tile_bodyBegun {s : State} {p n : Nat} (hn : n ∈ (s.part p).tiles) :
    (bodyBegun s p).tile n = markFilled (s.partImage p) n (s.tile n) := by
  rw [← tile_fillMarked hn, bodyBegun, State.tile, tiles_updPart, tiles_updPart, State.tile]

/-- The partition's slot and its image are as before. -/
theorem partImage_bodyBegun (s : State) (p : Nat) : (bodyBegun s p).partImage p = s.partImage p := by
  have images : (bodyBegun s p).images = s.images := by
    rw [bodyBegun, State.updPart, images_setPart, State.updPart, images_setPart, fillMarked_frame s p]
  rw [State.partImage, State.partImage, part_bodyBegun, State.image, State.image, images]

theorem dram_bodyBegun (s : State) (p : Nat) : (bodyBegun s p).dram = s.dram := by
  rw [bodyBegun, dram_updPart, dram_updPart, (fillMarked_frame s p).dram]

/-- Settles O21: a live part runs the event, and each clause's conditions pick the branch that its lemma states. -/
theorem stepBegins : Obligations.StepBegins := by
  unfold Obligations.StepBegins
  refine ⟨?work, ?start, ?sealing, ?body⟩
  case work =>
    intro p s _ hl hs hctx hstop hcode
    exact congrArg Host.Outcome.next ((engine_of_live hl _).trans (workArrives_of_waiting hs hctx hstop hcode))
  case start =>
    intro p tables inputs bad s _ hl hdone hs hst hramp hctx hstop hcode hcand hspan
    have hdue := stepDue_of_candidates hdone hs hst hramp hctx hstop hcode hcand hspan
    refine ⟨fun hbank => ?_, fun hbank => ?_⟩
    · exact congrArg Host.Outcome.next ((engine_of_live hl _).trans (stepStart_of_held hdue hbank _))
    · refine congrArg Host.Outcome.next ((engine_of_live hl _).trans ?_)
      simp only [stepStart, stepReady_of_due hdue hbank, if_true, planMade_eq]
  case sealing =>
    intro p s _ hl hs hst
    exact congrArg Host.Outcome.next ((engine_of_live hl _).trans (sealBeat_of_prologue hs hst))
  case body =>
    intro p s _ hl hs hst hplan
    obtain ⟨hpart, hdram, htiles⟩ := bindThreads_effect (segmentOne_of_plan hs hst hplan)
    rw [part_bodyBegun] at hpart htiles
    rw [partImage_bodyBegun] at htiles
    refine ⟨_, congrArg Host.Outcome.next (engine_of_live hl _), ?_, ?_, ?_, ?_, fun n hn => ?_, memKept_of_dram ?_⟩
    · rw [hpart]
    · rw [hpart]
    · rw [hpart]
    · rw [hpart]
    · obtain ⟨hfilled, hscratch, hcount⟩ := htiles n hn
      rw [tile_bodyBegun hn] at hfilled hscratch
      exact ⟨hfilled, hscratch, hcount⟩
    · exact hdram.trans (dram_bodyBegun s p)

end Sys2Proof.Machine.Architecture
end

section
/-! Kernels' entries, threads past their bound, and the faults that end request slots (R29, R90, R91, R96, R110, R233,
R257, R272). -/

namespace Sys2Proof.Machine.Architecture

/-! Entries of classes 6 and 7. -/

/-- What the stages of an entry bring about: its thread slots run, then the stages in order (R90, R257). -/
def stagesRun (s : State) (p n owner source rep : Nat) (runs : List KernelRun) (e : TimeEntry) (k : TileKernels)
    (v : Nat × Nat × Nat) : State :=
  runs.foldl (runStage p n owner source
    { t := e, kernel := k.dir.getD v.1 {}, first := v.2.1, count := v.2.2, base := threadBase k v.1 + v.2.1, rep := rep })
    (runThreads s p n (threadBase k v.1 + v.2.1) v.2.2)

/-- An entry whose kernel is found runs its stages; a fill entry passes idle on a filled tile and is noted on another
(R272). -/
theorem kernelEntry_of_entry {s : State} {p i rep cls : Nat} {e : TimeEntry} {k : TileKernels} {v : Nat × Nat × Nat}
    (he : entryNow s p i rep cls = some e) (hk : tileKernels (s.partImage p) e.index = some k)
    (hv : k.invocations[e.opRef]? = some v) (owner source : Nat) (runs : List KernelRun) :
    kernelEntry s p i rep cls owner source runs =
      let fill := (fillEntries (s.partImage p) e.index).contains i
      if fill && (s.tile e.index).filled then s
      else if fill then (stagesRun s p e.index owner source rep runs e k v).updTile e.index
        (fun x => { x with fillDone := x.fillDone ++ [i] })
      else stagesRun s p e.index owner source rep runs e k v := by
  simp only [kernelEntry, he, hk, hv]
  rfl

/-- Either command runs its entry with the class, the owner and the source of its engine. -/
theorem exec_kernelEntry {s : State} {c : Instr} {p i rep cls owner source : Nat} {runs : List KernelRun}
    (hl : s.live = true) (hc : (c = .elementPipelineEntry p i rep runs ∧ cls = 6 ∧ owner = 3 ∧ source = 2) ∨
      (c = .tileDmaEntry p i rep runs ∧ cls = 7 ∧ owner = 4 ∧ source = 3)) :
    exec c s = .next (kernelEntry s p i rep cls owner source runs) := by
  rcases hc with ⟨rfl, rfl, rfl, rfl⟩ | ⟨rfl, rfl, rfl, rfl⟩
  · exact congrArg Host.Outcome.next (engine_of_live hl _)
  · exact congrArg Host.Outcome.next (engine_of_live hl _)

/-! What a per-row kernel leaves out, and padding rows. -/

/-- A per-row kernel does no work for a request slot that has ended (R90). -/
theorem slotRuns_of_ended {s : State} {p i : Nat} {v : EntryRun} {x : Slot} (hrow : bitOf v.kernel.flags 1 = true)
    (hx : (s.part p).plan[i]? = some x) (hend : x.fault.isSome = true) (n : Nat) (held : List Nat) :
    slotRuns s p n v held i = false := by
  have ended : x.fault.isNone = false := by simp [Option.isNone_eq_false_iff, hend]
  simp [slotRuns, hrow, hx, ended]

/-- The write of a slot in a stage is one whose slot runs. -/
theorem slotRuns_of_mem_writes {s : State} {p n owner i : Nat} {v : EntryRun} {r : KernelRun} {w : ScrWrite}
    (hw : w ∈ (liveRun s p n owner v r).writes) (hi : w.slot = some i) :
    slotRuns s p n v (fencedSlots s p) i = true := by
  obtain ⟨-, runs⟩ := List.mem_filter.mp hw
  rwa [hi] at runs

/-- A padding row is converted, and no counter moves (R110). -/
theorem convertOne_of_padding {w : ConvRow} (hw : w.slot = none) (s0 : State) (p n owner : Nat) (f : ConvWork) :
    (convertOne s0 p n owner f w).s = f.s := by
  unfold convertOne
  dsimp only
  cases siteOf (s0.partImage p) w with
  | none => rfl
  | some site =>
    rw [hw]
    cases w.dest with
    | bank b base off r => rfl
    | state op first => rfl
    | kv layer head kind => rfl

/-! A thread past its bound. -/

theorem threads_put (t : Tile) (bank off v : Nat) : (t.put bank off v).threads = t.threads := by
  unfold Tile.put Tile.freshLine
  split <;> rfl

/-- Writing a run of scratch leaves the thread slots alone. -/
theorem threads_putRef (t : Tile) (owner : Nat) (r : ScrRef) (bs : List Nat) :
    (t.putRef owner r bs).threads = t.threads := by
  unfold Tile.putRef
  refine List.foldlRecOn (motive := fun u => Tile.threads u = t.threads) _ _ rfl fun u hu i _ => ?_
  dsimp only
  split
  · rw [threads_put, hu]
  · exact hu

/-- Zeros in scratch leave every tile's thread slots alone. -/
theorem threads_zeroRuns (s : State) (owner : Nat) (l : List ZeroRun) (n : Nat) :
    ((zeroRuns s owner l).tile n).threads = (s.tile n).threads := by
  refine overList_keeps (P := fun t => (t.tile n).threads = (s.tile n).threads) _ _ (fun z _ t ht => ?_) s rfl
  by_cases h : z.tile = n
  · subst h
    rw [tile_updTile_same, threads_putRef, ht]
  · rw [tile_updTile_ne _ _ h, ht]

/-- The fault of a thread of one row ends its request slot (R91, R96). -/
theorem threadFault_of_row {s : State} {n i : Nat} {th : Thread} (hth : SMap.get threadBlank (s.tile n).threads i = th)
    (hrow : th.row ≠ 0xFF) (p source : Nat) (bit : Fld) (code : Nat) :
    threadFault s p n i source bit code = slotFault (tileNote (s.updTile n (fun x => { x with
      threads := SMap.set threadBlank x.threads i { th with state := 3 } })) n bit source th.row i)
      p th.row (tileErr code 1 p n) := by
  subst hth
  exact if_neg hrow

/-- A thread of one row reaches its bound in a step of its tile: zeros for its outputs, then its fault (R91). -/
theorem threadOverrun_of_row {s : State} {p n i : Nat} {th : Thread} (hin : (s.part p).inStep = true)
    (hn : n ∈ (s.part p).tiles) (hth : SMap.get threadBlank (s.tile n).threads i = th) (hrow : th.row ≠ 0xFF)
    (zeros : List ZeroRun) {u : State}
    (hu : u = zeroRuns s (if dmaThread s p n i then 4 else 3) (zeros.filter (fun z => z.tile == n))) :
    threadOverrun s p n i zeros = slotFault (tileNote (u.updTile n (fun x => { x with
      threads := SMap.set threadBlank x.threads i { th with state := 3 } })) n (Reg.TIL_ERR_STATUS_OVERRUN n)
      (if dmaThread s p n i then 3 else 2) th.row i) p th.row (tileErr Code.TIL_E_OVERRUN 1 p n) := by
  have thread : SMap.get threadBlank (u.tile n).threads i = th := by rw [hu, threads_zeroRuns, hth]
  have running : ((s.part p).inStep && (s.part p).tiles.contains n) = true := by simp [hin, hn]
  rw [threadOverrun, if_pos running]
  dsimp only
  rw [← hu]
  exact threadFault_of_row thread hrow p _ _ _

/-! Accesses that are late or fail. -/

/-- A late access counts in XLT_LATE. -/
theorem countAccess_late (s : State) : countAccess s Code.XLT_E_LATE = s.inc Reg.XLT_LATE := if_pos rfl

/-- One that meets an uncorrectable line counts in MEM_DRAM_UNCORR. -/
theorem countAccess_uncorr (s : State) : countAccess s Code.XLT_E_UNCORR = s.inc Reg.MEM_DRAM_UNCORR := by
  rw [countAccess, if_neg (by decide), if_pos rfl]

/-- A refused one counts in XLT_FAULTS. -/
theorem countAccess_refused {code : Nat} (h : code ∈ accessCodes) (huncorr : code ≠ Code.XLT_E_UNCORR)
    (h2 : code ≠ Code.XLT_E_TIER2) (h3 : code ≠ Code.XLT_E_TIER3) (s : State) :
    countAccess s code = s.inc Reg.XLT_FAULTS := by
  have notLate : code ≠ Code.XLT_E_LATE := by
    rintro rfl
    exact absurd h (by decide)
  rw [countAccess, if_neg notLate, if_neg huncorr, if_neg (by simp [h2, h3])]

theorem exec_allowanceExpiry {s : State} (hl : s.live = true) {p : Nat} (hin : (s.part p).inStep = true)
    (slots : List Nat) (zeros : List ZeroRun) :
    exec (.allowanceExpiry p slots zeros) s = .next (accessFault s p Code.XLT_E_LATE slots zeros) :=
  congrArg Host.Outcome.next ((engine_of_live hl _).trans (if_pos hin))

theorem exec_tierAccessFault {s : State} (hl : s.live = true) {p code : Nat} (hin : (s.part p).inStep = true)
    (hcode : code ∈ accessCodes) (slots : List Nat) (zeros : List ZeroRun) :
    exec (.tierAccessFault p code slots zeros) s = .next (accessFault s p code slots zeros) :=
  congrArg Host.Outcome.next ((engine_of_live hl _).trans (if_pos (by simp [hin, hcode])))

/-- Zeros take the place of the data, the access is counted, and the slots it carried end (R29). -/
theorem accessFault_of_counted {s u : State} {p code : Nat} {zeros : List ZeroRun} {count : Fld}
    (hu : u = zeroRuns s 4 (zeros.filter (fun z => (s.part p).tiles.contains z.tile)))
    (hcount : countAccess u code = u.inc count) (slots : List Nat) :
    accessFault s p code slots zeros = someFault (u.inc count) p slots { errOf code 1 with partition := p } := by
  rw [accessFault, ← hu, hcount]

/-! The end of a request slot. -/

theorem part_of_reports {s t : State} (h : Reports s t) (p : Nat) : t.part p = s.part p := by
  rw [State.part, State.part, part0_of_reports h, part1_of_reports h]

theorem ops_of_reports {s t : State} (h : Reports s t) : t.ops = s.ops := by
  obtain ⟨_, _, _, _, _, _, rfl⟩ := h
  rfl

/-- A request slot ended with a code; the first code stands. -/
def slotEnded (code : Nat) (x : Slot) : Slot := { x with fault := if x.fault.isNone then some code else x.fault }

/-- A fault of one slot while another is live: beside the report, the slot's code alone changes (R29, R42, R96). -/
theorem slotFault_of_live {s : State} {p i : Nat} {r : ErrRec} {x : Slot} {o : Operation}
    (hx : (s.part p).plan[i]? = some x) (ho : s.op x.op = some o)
    (hlive : allEnded ((s.part p).plan.set i (slotEnded r.code x)) = false) :
    ∃ t, Reports s t ∧ slotFault s p i r = t.updPart p (fun y => { y with plan := y.plan.set i (slotEnded r.code x) }) := by
  have reports := report_reports s { r with
    userTag := o.desc.userTag, rq := o.rq, context := o.ctx, fetchIdx := o.fetchIdx, sev := 1 }
  refine ⟨_, reports, ?_⟩
  have live := hlive
  rw [← part_of_reports reports p] at live
  simp only [slotFault, hx, ho]
  rw [if_neg]
  · rfl
  · rw [part_updPart_same]
    exact ne_true_of_eq_false live

/-- What a fault of one slot changes and leaves while another slot of the step is live. -/
theorem slotFault_effect {s t : State} {p i : Nat} {r : ErrRec} {x : Slot} {o : Operation}
    (hx : (s.part p).plan[i]? = some x) (ho : s.op x.op = some o)
    (hlive : allEnded ((s.part p).plan.set i (slotEnded r.code x)) = false) (ht : t = slotFault s p i r) :
    (t.part p).plan = (s.part p).plan.set i (slotEnded r.code x) ∧ t.ops = s.ops ∧ t.dram = s.dram := by
  obtain ⟨v, reports, hv⟩ := slotFault_of_live hx ho hlive
  rw [ht, hv]
  refine ⟨?_, ?_, ?_⟩
  · rw [part_updPart_same, part_of_reports reports]
  · rw [ops_updPart, ops_of_reports reports]
  · rw [dram_updPart, dram_of_reports reports]

/-- Settles O25: a live part runs the event, and each clause's conditions pick the branch that its lemma states. -/
theorem kernelsAndSlotFaults : Obligations.KernelsAndSlotFaults := by
  unfold Obligations.KernelsAndSlotFaults
  refine ⟨?entries, ?ended, ?padding, ?overrun, ?accesses, ?slots⟩
  case entries =>
    intro p i rep cls owner source runs e k v c s u _ hl hc he hk hv hu
    have stages : stagesRun s p e.index owner source rep runs e k v = u := hu.symm
    rw [exec_kernelEntry hl hc, kernelEntry_of_entry he hk hv, stages]
    generalize (fillEntries (s.partImage p) e.index).contains i = fill, (s.tile e.index).filled = filled
    refine ⟨?_, ?_, ?_⟩
    · rintro rfl
      rfl
    · rintro rfl rfl
      rfl
    · rintro rfl rfl
      rfl
  case ended =>
    intro p n owner i v r x w s hrow hx hend hw hslot
    have runs := slotRuns_of_mem_writes hw hslot
    rw [slotRuns_of_ended hrow hx hend] at runs
    exact Bool.noConfusion runs
  case padding =>
    intro s0 p n owner f w hw
    exact convertOne_of_padding hw s0 p n owner f
  case overrun =>
    intro p n i zeros th s u _ hl hin hn hth hrow hu
    exact congrArg Host.Outcome.next ((engine_of_live hl _).trans (threadOverrun_of_row hin hn hth hrow zeros hu))
  case accesses =>
    intro p code slots zeros s u _ hl hin hu
    refine ⟨?_, fun hcode huncorr h2 h3 => ?_, ?_⟩
    · rw [exec_allowanceExpiry hl hin, accessFault_of_counted hu (countAccess_late u)]
    · rw [exec_tierAccessFault hl hin hcode, accessFault_of_counted hu (countAccess_refused hcode huncorr h2 h3 u)]
    · rw [exec_tierAccessFault hl hin (by decide), accessFault_of_counted hu (countAccess_uncorr u)]
  case slots =>
    intro p i r x o s _ hx ho hlive
    obtain ⟨hplan, hops, hdram⟩ := slotFault_effect hx ho hlive rfl
    have inside : i < (s.part p).plan.length := (List.getElem?_eq_some_iff.mp hx).1
    refine ⟨?_, fun j hj => ?_, hops, memKept_of_dram hdram⟩
    · rw [hplan, List.getElem?_set_self inside]
      rfl
    · rw [hplan, List.getElem?_set_ne hj.symm]

end Sys2Proof.Machine.Architecture
end

section
/-! Bytes of DRAM that Keeper writes by a booking within one line (R261, R263). -/

namespace Sys2Proof.Machine.Architecture

/-! Little-endian numbers. -/

@[simp] theorem length_leBytes (n v : Nat) : (leBytes n v).length = n := by
  induction n generalizing v with
  | zero => rfl
  | succ n ih => rw [leBytes, List.length_cons, ih]

/-- The number of the bytes of a number is that number cut to their width. -/
theorem leNat_leBytes (n v : Nat) : leNat (leBytes n v) = v % 256 ^ n := by
  induction n generalizing v with
  | zero => exact (Nat.mod_one v).symm
  | succ n ih =>
    rw [leBytes, leNat, ih, Nat.pow_succ', Nat.mod_mul]
    rfl

theorem leNat_lt (bs : List Byte) : leNat bs < 256 ^ bs.length := by
  induction bs with
  | nil => exact Nat.one_pos
  | cons b rest ih =>
    have hb : b.toNat < 256 := b.isLt
    rw [leNat, List.length_cons, Nat.pow_succ]
    omega

@[simp] theorem length_dramRead (m : SMap Byte) (a n : Nat) : (dramRead m a n).length = n := by
  induction n generalizing a with
  | zero => rfl
  | succ n ih => rw [dramRead, List.length_cons, ih]

/-- A number of `n` bytes of DRAM fits them. -/
theorem mnat_lt (s : State) (a n : Nat) : s.mnat a n < 256 ^ n := by
  have bound := leNat_lt (dramRead s.dram a n)
  rwa [length_dramRead] at bound

/-! Reads after writes. -/

theorem dramRead_congr {m m' : SMap Byte} {a n : Nat}
    (h : ∀ b, a ≤ b → b < a + n → SMap.get dramBlank m' b = SMap.get dramBlank m b) :
    dramRead m' a n = dramRead m a n := by
  induction n generalizing a with
  | zero => rfl
  | succ n ih => rw [dramRead, dramRead, h a (by omega) (by omega), ih fun b _ _ => h b (by omega) (by omega)]

/-- A number of DRAM depends on its own bytes alone. -/
theorem mnat_congr {s t : State} {a n : Nat} (h : ∀ b, a ≤ b → b < a + n → t.byteAt b = s.byteAt b) :
    t.mnat a n = s.mnat a n := congrArg leNat (dramRead_congr h)

/-- What a byte reads after a masked write. -/
theorem get_dramWriteMask {bs : List Byte} {ks : List Bool} (len : ks.length = bs.length) (m : SMap Byte) (a b : Nat) :
    SMap.get dramBlank (dramWriteMask m a bs ks) b =
      if a ≤ b ∧ ks.getD (b - a) false = true then bs.getD (b - a) 0 else SMap.get dramBlank m b := by
  induction bs generalizing m a ks with
  | nil =>
    obtain rfl := List.length_eq_zero_iff.mp len
    simp [dramWriteMask]
  | cons x rest ih =>
    obtain - | ⟨k, ks⟩ := ks
    · cases len
    have other (h : a ≠ b) :
        SMap.get dramBlank (if k then SMap.set dramBlank m a x else m) b = SMap.get dramBlank m b := by
      split
      · exact SMap.get_set_ne _ _ _ h
      · rfl
    rw [dramWriteMask, ih (Nat.succ.inj len)]
    rcases Nat.lt_trichotomy a b with h | rfl | h
    · have later : b - a = b - (a + 1) + 1 := by omega
      simp only [later, List.getD_cons_succ, other (Nat.ne_of_lt h), Nat.succ_le_of_lt h, Nat.le_of_lt h]
    · have past : ¬ (a + 1 ≤ a ∧ ks.getD (a - (a + 1)) false = true) := fun c => by omega
      rw [if_neg past]
      cases k <;> simp
    · rw [other (Nat.ne_of_gt h), if_neg fun c => by omega, if_neg fun c => by omega]

/-- A write is a masked write of every byte. -/
theorem dramWriteMask_full (bs : List Byte) (m : SMap Byte) (a : Nat) :
    dramWriteMask m a bs (fullMask bs) = dramWrite m a bs := by
  induction bs generalizing m a with
  | nil => rfl
  | cons x rest ih => exact ih _ _

/-- What a byte reads after a write. -/
theorem byteAt_mwrite (s : State) (a : Nat) (bs : List Byte) (b : Nat) :
    (s.mwrite a bs).byteAt b = if a ≤ b ∧ b < a + bs.length then bs.getD (b - a) 0 else s.byteAt b := by
  have mask : (fullMask bs).getD (b - a) false = decide (b - a < bs.length) := by
    simp only [fullMask, List.getD_eq_getElem?_getD, List.getElem?_map]
    by_cases inside : b - a < bs.length <;> simp [inside]
  have named : a ≤ b ∧ (fullMask bs).getD (b - a) false = true ↔ a ≤ b ∧ b < a + bs.length := by
    rw [mask, decide_eq_true_iff]
    omega
  rw [State.byteAt, State.mwrite, ← dramWriteMask_full, get_dramWriteMask (by simp [fullMask])]
  simp only [named]
  rfl

/-- A number of DRAM is the same after a write of other bytes. -/
theorem mnat_mwrite_outside {a n pa : Nat} {bs : List Byte} (h : a + n ≤ pa ∨ pa + bs.length ≤ a) (s : State) :
    (s.mwrite pa bs).mnat a n = s.mnat a n :=
  mnat_congr fun b _ _ => get_dramWrite_outside bs s.dram pa (by omega)

/-- A number that fits its bytes is read back. -/
theorem mnat_mwrite_leBytes {n v : Nat} (h : v < 256 ^ n) (s : State) (a : Nat) :
    (s.mwrite a (leBytes n v)).mnat a n = v := by
  have read := dramRead_dramWrite (leBytes n v) s.dram a
  rw [length_leBytes] at read
  exact (congrArg leNat read).trans ((leNat_leBytes n v).trans (Nat.mod_eq_of_lt h))

/-- Two runs of bytes that follow each other are written one after the other. -/
theorem mwrite_append (s : State) (a : Nat) (bs cs : List Byte) :
    s.mwrite a (bs ++ cs) = (s.mwrite a bs).mwrite (a + bs.length) cs := by
  have run (m : SMap Byte) : dramWrite m a (bs ++ cs) = dramWrite (dramWrite m a bs) (a + bs.length) cs := by
    induction bs generalizing a m with
    | nil => rfl
    | cons x rest ih =>
      have after : a + (rest.length + 1) = a + 1 + rest.length := by omega
      rw [List.cons_append, dramWrite, ih, List.length_cons, dramWrite, after]
  rw [State.mwrite, run]
  rfl

/-- Several writes in order. -/
def writeAll (ws : List (Nat × List Byte)) (s : State) : State := ws.foldl (fun t w => t.mwrite w.1 w.2) s

/-- Writes within a range change nothing outside it. -/
theorem memKeptBut_writeAll {ws : List (Nat × List Byte)} {a n : Nat}
    (h : ∀ w ∈ ws, a ≤ w.1 ∧ w.1 + w.2.length ≤ a + n) (s : State) : s.memKeptBut (writeAll ws s) a n := by
  intro b hb
  induction ws generalizing s with
  | nil => rfl
  | cons w rest ih =>
    have inside := h w (by simp)
    exact (ih (fun v hv => h v (List.mem_cons_of_mem _ hv)) _).trans (get_dramWrite_outside w.2 s.dram w.1 (by omega))

/-! The lines of a booking. -/

/-- A write of some bytes that stays within the line at an address. -/
def InLine (line : Nat) (w : Nat × List Byte) : Prop := line ≤ w.1 ∧ w.1 + w.2.length ≤ line + 64 ∧ w.2 ≠ []

/-- Bytes within one line make one write line, of that address. -/
theorem writeLines_of_inLine {line : Nat} {w : Nat × List Byte} (aligned : line % 64 = 0) (h : InLine line w) :
    writeLines w.1 w.2 = [lineAt false w.1 w.2 0] ∧ (lineAt false w.1 w.2 0).addr = line := by
  obtain ⟨lo, hi, nonempty⟩ := h
  have pos : 0 < w.2.length := List.length_pos_iff.mpr nonempty
  have one : (w.1 + w.2.length - 1) / 64 + 1 - w.1 / 64 = 1 := by omega
  refine ⟨?_, ?_⟩
  · rw [writeLines, linesOf, if_neg (by simpa using nonempty), one]
    rfl
  · simp only [lineAt]
    omega

/-- The mask of a line's write names the bytes written, and each has its value. -/
theorem byteAt_applyLine_of_inLine {line : Nat} {w : Nat × List Byte} (aligned : line % 64 = 0) (h : InLine line w)
    (s : State) (owner b : Nat) :
    (applyLine s owner (lineAt false w.1 w.2 0)).byteAt b = (s.mwrite w.1 w.2).byteAt b := by
  obtain ⟨-, base⟩ := writeLines_of_inLine aligned h
  obtain ⟨lo, hi, -⟩ := h
  have at0 : (w.1 / 64 + 0) * 64 = line := base
  have applied : (applyLine s owner (lineAt false w.1 w.2 0)).byteAt b = SMap.get dramBlank (dramWriteMask s.dram line
      (lineAt false w.1 w.2 0).bytes (lineAt false w.1 w.2 0).mask) b := by
    rw [← base]
    rfl
  rw [applied, get_dramWriteMask (by simp [lineAt]), byteAt_mwrite]
  simp only [lineAt, at0]
  by_cases named : w.1 ≤ b ∧ b < w.1 + w.2.length
  · have inside : line ≤ b ∧ b - line < 64 := by omega
    have back : line + (b - line) = b := by omega
    simp [named, inside, back]
  · by_cases inside : line ≤ b ∧ b - line < 64
    · have back : line + (b - line) = b := by omega
      simp [named, inside, back, State.byteAt]
    · have unmasked : line ≤ b → 64 ≤ b - line := by omega
      rw [if_neg named, if_neg]
      · rfl
      · rintro ⟨above, masked⟩
        simp [unmasked above] at masked

/-- The write lines of several writes in order. -/
def linesAll (ws : List (Nat × List Byte)) : List BookLine := ws.flatMap (fun w => writeLines w.1 w.2)

/-- Lines applied in order leave the bytes that the writes leave. -/
theorem byteAt_applyLines {line : Nat} {ws : List (Nat × List Byte)} (aligned : line % 64 = 0)
    (h : ∀ w ∈ ws, InLine line w) (owner : Nat) {s t : State} (same : ∀ b, t.byteAt b = s.byteAt b) (b : Nat) :
    ((linesAll ws).foldl (fun t l => applyLine t owner l) t).byteAt b = (writeAll ws s).byteAt b := by
  induction ws generalizing s t with
  | nil => exact same b
  | cons w rest ih =>
    have first := h w (by simp)
    rw [linesAll, List.flatMap_cons, (writeLines_of_inLine aligned first).1]
    refine ih (fun v hv => h v (List.mem_cons_of_mem _ hv)) fun c => ?_
    rw [byteAt_applyLine_of_inLine aligned first, byteAt_mwrite, byteAt_mwrite, same]

/-- The lines of writes within one line are write lines of that address. -/
theorem linesAll_of_inLine {line : Nat} {ws : List (Nat × List Byte)} (aligned : line % 64 = 0)
    (h : ∀ w ∈ ws, InLine line w) : ∀ l ∈ linesAll ws, l.check = false ∧ l.addr = line := by
  intro l hl
  obtain ⟨w, hw, hlw⟩ := List.mem_flatMap.mp hl
  obtain ⟨one, base⟩ := writeLines_of_inLine aligned (h w hw)
  rw [one, List.mem_singleton] at hlw
  subst hlw
  exact ⟨rfl, base⟩

/-- Write lines of one address count once (R261). -/
theorem bookSize_of_one_line {lines : List BookLine} {line : Nat}
    (h : ∀ l ∈ lines, l.check = false ∧ l.addr = line) : bookSize lines [] ≤ 1 := by
  have keys : ∀ k ∈ lines.map (fun l => (l.check, l.addr)), k = (false, line) := by
    intro k hk
    obtain ⟨l, hl, rfl⟩ := List.mem_map.mp hk
    exact Prod.ext (h l hl).1 (h l hl).2
  rw [bookSize]
  generalize lines.map (fun l => (l.check, l.addr)) = ks at keys
  cases ks with
  | nil => decide
  | cons k rest =>
    have others : rest.filter (fun b => !b == k) = [] :=
      List.filter_eq_nil_iff.mpr fun b hb => by simp [keys b (by simp [hb]), keys k (by simp)]
    rw [List.eraseDups_cons, others]
    simp

/-- With nothing held and no page marked, no line waits. -/
theorem lineHeld_of_free {s : State} (hold : s.holdRanges = []) (mig : s.mig = none) (l : BookLine) :
    lineHeld s l = false := by
  simp [lineHeld, heldAt, markedAt, hold, mig]

/-- A booking of Keeper's of write lines of one address, with nothing held and no page marked, applies each of them. -/
theorem dram_keeperWrite_of_one_line {s : State} {lines : List BookLine} {line : Nat}
    (h : ∀ l ∈ lines, l.check = false ∧ l.addr = line) (hold : s.holdRanges = []) (mig : s.mig = none) :
    (keeperWrite s lines []).dram = (lines.foldl (fun t l => applyLine t 0 l) s).dram := by
  have fits : ¬ 64 < bookSize lines [] := by have := bookSize_of_one_line h; omega
  have passes : checksOk s lines = true := List.all_eq_true.mpr fun l hl => by simp [(h l hl).1]
  have free : lines.any (lineHeld s) = false := List.any_eq_false.mpr fun l _ => by simp [lineHeld_of_free hold mig]
  simp only [keeperWrite, keeperBook, if_neg fits, passes, if_true, commitLines, free]
  rfl

/-- Such a booking leaves the numbers that its writes leave, and changes nothing outside a range that holds them
(R263). -/
theorem keeperWrite_of_inLine {line a n : Nat} {ws : List (Nat × List Byte)} (aligned : line % 64 = 0)
    (h : ∀ w ∈ ws, InLine line w) (within : ∀ w ∈ ws, a ≤ w.1 ∧ w.1 + w.2.length ≤ a + n) {s : State}
    (hold : s.holdRanges = []) (mig : s.mig = none) :
    (∀ c k, (keeperWrite s (linesAll ws) []).mnat c k = (writeAll ws s).mnat c k) ∧
    s.memKeptBut (keeperWrite s (linesAll ws) []) a n := by
  have bytes (b : Nat) : (keeperWrite s (linesAll ws) []).byteAt b = (writeAll ws s).byteAt b := by
    rw [State.byteAt, dram_keeperWrite_of_one_line (linesAll_of_inLine aligned h) hold mig]
    exact byteAt_applyLines aligned h 0 (fun _ => rfl) b
  exact ⟨fun _ _ => mnat_congr fun b _ _ => bytes b, fun b hb => (bytes b).trans (memKeptBut_writeAll within s b hb)⟩

end Sys2Proof.Machine.Architecture
end

section
/-! Sequences: attach, the copy of a shared block, release, and Keeper's writes of their records (R145, R158 to R161,
R271). -/

namespace Sys2Proof.Machine.Architecture

/-! Attach and copy. -/

theorem exec_attach {s : State} {n : Nat} {o : Operation} (hl : s.live = true) (ho : s.op n = some o) (bad : Bool) :
    exec (.attach n bad) s = .next (if bad && o.phase == .attaching then keeperFault s o else attachOp s o) := by
  refine congrArg Host.Outcome.next ((engine_of_live hl _).trans ?_)
  rw [ho]

theorem exec_kvBlockCopy {s : State} {n : Nat} {o : Operation} (hl : s.live = true) (ho : s.op n = some o)
    (bad : Bool) :
    exec (.kvBlockCopy n bad) s = .next (if bad && o.copyBlock.isSome then keeperFault s o else copyOp s o) := by
  refine congrArg Host.Outcome.next ((engine_of_live hl _).trans ?_)
  rw [ho]

/-- An attach of a running context's request ends as its walk over the blocks ends (R158). -/
theorem attachOp_of_walk {s t : State} {o : Operation} {b : Book} {w : Work} {pa a : Nat} (hpa : o.seqPa = some pa)
    (hb : bookOf s o.ctx = some b) (hphase : o.phase = .attaching) (hrun : (runPart s o.ctx).isSome = true)
    (hwalk : attachFrom o b (geo s o.ctx) (s.mnat pa 8) o.attach 0 (rootKey s o.ctx) s = (w, a, t)) :
    attachOp s o = match w with
      | .done => (attachFinal t o pa a).updOp o.id (fun _ => { o with
          prefillPos := 64 * a, length := 64 * a, shared := a != 0
          reserveN := o.reserveN + (o.attach - a) * (geo s o.ctx).tokblkPages
          phase := { o with prefillPos := 64 * a }.nextPhase })
      | .fail c => endRequest (t.report (opErr o c 1)) o c
      | .wait => t := by
  have due : (o.phase == .attaching && (runPart s o.ctx).isSome) = true := by rw [hphase, hrun]; rfl
  simp only [attachOp, hpa, hb, due, if_true, hwalk]
  cases w <;> rfl

/-- A copy of a running context's request ends as the copy of its shared block ends (R159). -/
theorem copyOp_of_copied {s t : State} {o : Operation} {w : Work} {blk pa k : Nat} (hpa : o.seqPa = some pa)
    (hblk : o.copyBlock = some blk) (hrun : (runPart s o.ctx).isSome = true)
    (hcopy : copyShared s o.ctx pa blk o.copied = (w, k, t)) :
    copyOp s o = match w with
      | .done => t.updOp o.id (fun x => { x with copyBlock := none, copied := 0 })
      | .wait => t.updOp o.id (fun x => { x with copied := k })
      | .fail c => endRequest (t.report (opErr o c 1)) o c := by
  simp only [copyOp, hblk, hpa, hrun, if_true, hcopy]
  cases w <;> rfl

/-! Release. -/

/-- The pages that a release frees, highest first: those of the backed blocks, and of those above them the ones that a
walk finds (R160). -/
def releasePages (s : State) (x : Release) : List Nat :=
  (pagesDown (s.mnat x.seqPa 8) x.tokblk (minNat (maxNat (s.mnat (x.seqPa + 24) 4 + 1) x.mapped) x.maxBlocks)).filter
    (fun va => decide (va < s.mnat x.seqPa 8 + s.mnat (x.seqPa + 24) 4 * x.tokblk * 65536) ||
      (rangeEntry s x.ctx va).isLeft)

theorem releaseRun_of_freed {s t : State} {x : Release} (h : freePages x.ctx (releasePages s x) s = (.done, t)) :
    releaseRun s x = releaseFinal (dropRelease t x) x.seqPa := by
  unfold releasePages at h
  simp only [releaseRun, h]

theorem releaseRun_of_fault {s t : State} {x : Release} {c : Nat}
    (h : freePages x.ctx (releasePages s x) s = (.fail c, t)) : releaseRun s x = releaseFault t x c := by
  unfold releasePages at h
  simp only [releaseRun, h]

theorem exec_sequenceRelease {s : State} {ctx seq : Nat} {x : Release} (hl : s.live = true)
    (hx : s.releases.find? (fun y => y.ctx == ctx && y.seqIndex == seq && !y.held) = some x) (bad : Bool) :
    exec (.sequenceRelease ctx seq bad) s =
      .next (if bad then releaseFault (uncorrBook s) x Code.XLT_E_UNCORR else releaseRun s x) := by
  refine congrArg Host.Outcome.next ((engine_of_live hl _).trans ?_)
  rw [hx]

/-- The one held release of a context goes on, no longer held (R161). -/
theorem exec_releaseResume_of_one {s : State} {ctx : Nat} {x : Release} (hl : s.live = true)
    (hx : s.releases.filter (fun y => y.ctx == ctx && y.held) = [x]) :
    exec (.releaseResume ctx) s = .next (releaseRun { s with
      releases := s.releases.map (fun z => if z = x then { x with held := false } else z) } { x with held := false }) := by
  refine congrArg Host.Outcome.next ((engine_of_live hl _).trans ?_)
  rw [releaseResume, hx]
  rfl

/-! Keeper's writes of a sequence record. -/

/-- What the final booking of a release writes: LENGTH, the flags without VALID and RELEASING, BUCKET, and from KV_TAG
to BACKED_BLOCKS (R160). -/
def finalWrites (s : State) (pa : Nat) : List (Nat × List Byte) :=
  [(pa + 8, leBytes 4 0), (pa + 16, leBytes 2 (s.mnat (pa + 16) 2 / 4 * 4) ++ [0xFF]), (pa + 20, leBytes 8 0)]

theorem releaseFinal_eq (s : State) (pa : Nat) : releaseFinal s pa = keeperWrite s (linesAll (finalWrites s pa)) [] := by
  simp [releaseFinal, linesAll, finalWrites]

/-- The final booking of a release clears its fields of the record and writes nothing else (R145, R160). -/
theorem releaseFinal_effect {s t : State} {pa : Nat} (aligned : pa % 64 = 0) (hold : s.holdRanges = [])
    (mig : s.mig = none) (ht : t = releaseFinal s pa) :
    t.mnat (pa + 8) 4 = 0 ∧ t.mnat (pa + 16) 2 % 4 = 0 ∧ t.mnat (pa + 18) 1 = 0xFF ∧ t.mnat (pa + 20) 8 = 0 ∧
    s.memKeptBut t (pa + 8) 20 := by
  rw [releaseFinal_eq] at ht
  obtain ⟨reads, kept⟩ := keeperWrite_of_inLine (a := pa + 8) (n := 20) (ws := finalWrites s pa) aligned
    (by simp [finalWrites, InLine, leBytes]) (by simp [finalWrites]) hold mig
  have order : writeAll (finalWrites s pa) s = (((s.mwrite (pa + 8) (leBytes 4 0)).mwrite (pa + 16)
      (leBytes 2 (s.mnat (pa + 16) 2 / 4 * 4))).mwrite (pa + 18) (leBytes 1 0xFF)).mwrite (pa + 20) (leBytes 8 0) := by
    simp only [writeAll, finalWrites, List.foldl_cons, List.foldl_nil, mwrite_append, length_leBytes]
    rfl
  have flags : s.mnat (pa + 16) 2 / 4 * 4 < 256 ^ 2 :=
    Nat.lt_of_le_of_lt (Nat.div_mul_le_self _ 4) (mnat_lt s (pa + 16) 2)
  rw [← ht] at reads kept
  simp only [order] at reads
  refine ⟨?_, ?_, ?_, ?_, kept⟩
  · rw [reads, mnat_mwrite_outside (by simp), mnat_mwrite_outside (by simp), mnat_mwrite_outside (by simp),
      mnat_mwrite_leBytes (by decide)]
  · rw [reads, mnat_mwrite_outside (by simp), mnat_mwrite_outside (by simp), mnat_mwrite_leBytes flags]
    exact Nat.mul_mod_left _ 4
  · rw [reads, mnat_mwrite_outside (by simp), mnat_mwrite_leBytes (by decide)]
  · rw [reads, mnat_mwrite_leBytes (by decide)]

/-- A number with bit 1 set. -/
def withBit1 (v : Nat) : Nat := if bitOf v 1 then v else v + 2

theorem withBit1_eq (v : Nat) : withBit1 v = if v / 2 % 2 = 1 then v else v + 2 := by
  simp [withBit1, bitOf]

theorem withBit1_lt {v : Nat} (h : v < 256 ^ 2) : withBit1 v < 256 ^ 2 := by
  rw [withBit1_eq]
  split <;> omega

theorem bitOf_withBit1 (v : Nat) : bitOf (withBit1 v) 1 = true := by
  have set : withBit1 v / 2 % 2 = 1 := by
    rw [withBit1_eq]
    split <;> omega
  simp [bitOf, set]

/-- Setting a clear bit 1 carries into no other bit. -/
theorem bitOf_withBit1_ne (v : Nat) {i : Nat} (h : i ≠ 1) : bitOf (withBit1 v) i = bitOf v i := by
  have low : withBit1 v % 2 = v % 2 := by
    rw [withBit1_eq]
    split <;> omega
  have high : withBit1 v / 4 = v / 4 := by
    rw [withBit1_eq]
    split <;> omega
  rcases i with - | - | i
  · simp [bitOf, low]
  · exact absurd rfl h
  · have power : 2 ^ (i + 1 + 1) = 4 * 2 ^ i := by omega
    simp only [bitOf, power, ← Nat.div_div_eq_div_mul, high]

/-- What the mark of an ending record writes: RELEASING among the flags, and the code (R160). -/
def markWrites (s : State) (pa code : Nat) : List (Nat × List Byte) :=
  [(pa + 16, leBytes 2 (withBit1 (s.mnat (pa + 16) 2))), (pa + 28, leBytes 2 code)]

theorem markReleasing_eq (s : State) (pa code : Nat) :
    markReleasing s pa code = keeperWrite s (linesAll (markWrites s pa code)) [] := by
  simp [markReleasing, linesAll, markWrites, withBit1]

/-- The mark of an ending record sets RELEASING and the code, keeps the other flags, and writes nothing else (R160). -/
theorem markReleasing_effect {s t : State} {pa code : Nat} (aligned : pa % 64 = 0) (hcode : code < 2 ^ 16)
    (hold : s.holdRanges = []) (mig : s.mig = none) (ht : t = markReleasing s pa code) :
    t.mnat (pa + 28) 2 = code ∧ t.mnat (pa + 16) 2 = withBit1 (s.mnat (pa + 16) 2) ∧
    s.memKeptBut t (pa + 16) 14 := by
  rw [markReleasing_eq] at ht
  obtain ⟨reads, kept⟩ := keeperWrite_of_inLine (a := pa + 16) (n := 14) (ws := markWrites s pa code) aligned
    (by simp [markWrites, InLine, leBytes]) (by simp [markWrites]) hold mig
  have flags := withBit1_lt (mnat_lt s (pa + 16) 2)
  rw [← ht] at reads kept
  simp only [writeAll, markWrites, List.foldl_cons, List.foldl_nil] at reads
  refine ⟨?_, ?_, kept⟩
  · rw [reads, mnat_mwrite_leBytes hcode]
  · rw [reads, mnat_mwrite_outside (by simp), mnat_mwrite_leBytes flags]

/-- Settles O44: a live part performs each command as its walk, copy or run of freed pages ends, and each booking of a
record leaves what its writes leave. -/
theorem sequenceLife : Obligations.SequenceLife := by
  unfold Obligations.SequenceLife
  refine ⟨?attach, ?lost, ?copy, ?release, ?resume, ?final, ?mark⟩
  case attach =>
    intro n pa a o b w s t hl ho hpa hb hphase hrun hwalk
    rw [exec_attach hl ho]
    refine congrArg Host.Outcome.next ((attachOp_of_walk hpa hb hphase hrun hwalk).trans ?_)
    cases w <;> rfl
  case lost =>
    intro n o s hl ho
    refine ⟨fun hphase => ?_, fun hcopy => ?_⟩
    · rw [exec_attach hl ho, hphase]
      rfl
    · rw [exec_kvBlockCopy hl ho, hcopy]
      rfl
  case copy =>
    intro n blk pa k o w s t hl ho hpa hblk hrun hcopy
    rw [exec_kvBlockCopy hl ho]
    refine congrArg Host.Outcome.next ((copyOp_of_copied hpa hblk hrun hcopy).trans ?_)
    cases w <;> rfl
  case release =>
    rintro ctx seq x _ s t hl hx rfl
    have release := exec_sequenceRelease hl hx
    exact ⟨fun hfree => (release false).trans (congrArg Host.Outcome.next (releaseRun_of_freed hfree)),
      fun c hfree => (release false).trans (congrArg Host.Outcome.next (releaseRun_of_fault hfree)), release true⟩
  case resume =>
    intro ctx x s hl hx
    exact exec_releaseResume_of_one hl hx
  case final =>
    intro pa s aligned hold mig
    exact releaseFinal_effect aligned hold mig rfl
  case mark =>
    intro pa code s aligned hcode hold mig
    obtain ⟨hread, hflags, hkept⟩ := markReleasing_effect aligned hcode hold mig rfl
    refine ⟨hread, ?_, fun i hi => ?_, hkept⟩
    · rw [hflags, bitOf_withBit1]
    · rw [hflags, bitOf_withBit1_ne _ hi]

end Sys2Proof.Machine.Architecture
end

section
/-! Page reads of the Cellar (R168, R170, R174, R176, R208). -/

namespace Sys2Proof.Machine.Architecture

@[simp] theorem regs_updPart (s : State) (p : Nat) (f : Part → Part) : (s.updPart p f).regs = s.regs := regs_setPart s p _

@[simp] theorem cel_updPart (s : State) (p : Nat) (f : Part → Part) : (s.updPart p f).cel = s.cel := cel_setPart s p _

@[simp] theorem exp_updPart (s : State) (p : Nat) (f : Part → Part) : (s.updPart p f).exp = s.exp := exp_setPart s p _

/-- Where a page of a run lies depends on the owners of the logical numbers alone. -/
theorem runPage_of_cel {s t : State} (h : t.cel.alloc = s.cel.alloc) : runPage t = runPage s := by
  have numbers : dataNumbers t = dataNumbers s := by
    funext set b
    simp only [dataNumbers, State.alloc, h]
  funext set plane n
  simp only [runPage, numbers]

/-! CELLAR_PAGE_READ. -/

theorem exec_cellarPageRead {s : State} (h : s.live = true) (p plane : Nat) :
    exec (.cellarPageRead p plane) s = .next (pageRead s p plane) := congrArg Host.Outcome.next (engine_of_live h _)

/-- A class-4 entry of a plane is counted. -/
def entryCounted (s : State) (p plane : Nat) : State :=
  s.updPart p (fun y => { y with
    issued := SMap.set countBlank y.issued plane (SMap.get countBlank (s.part p).issued plane + 1) })

theorem issued_entryCounted (s : State) (p plane : Nat) :
    SMap.get countBlank ((entryCounted s p plane).part p).issued plane =
      SMap.get countBlank (s.part p).issued plane + 1 := by
  simp only [entryCounted, part_updPart_same, SMap.get_set_same]

/-- A class-4 entry waits for its plane, which stalls its partition (R170). -/
def entryWaits (s : State) (p plane : Nat) : State :=
  stallAssert (s.updPart p (fun y => { y with
    waitPlanes := if y.waitPlanes.contains plane then y.waitPlanes else y.waitPlanes ++ [plane] })) p .retry

section
variable {s : State} {p plane : Nat} (hin : (s.part p).inStep = true) (hst : (s.part p).stall = {})
  (hdue : SMap.get countBlank (s.part p).issued plane <
    ((s.partImage p).entries.filter (fun e => e.cls == 4 && e.index == plane)).length)
include hin hst hdue

/-- An entry that is due meets a busy bank with a bus fault (R174). -/
theorem pageRead_of_busy (hbusy : s.bankBusy (plane / 16) = true) : pageRead s p plane = busFault s p plane := by
  simp [pageRead, hin, not_on_of_none hst, Nat.not_le.mpr hdue, hbusy]

/-- An entry that is due waits for a plane that is still read. -/
theorem pageRead_of_reading (hbusy : s.bankBusy (plane / 16) = false)
    (hread : s.cel.inFlight.any (fun r => r.plane == plane) = true) : pageRead s p plane = entryWaits s p plane := by
  simp only [pageRead, hin, not_on_of_none hst, Nat.not_le.mpr hdue, hbusy, hread]
  rfl

/-- An entry that is due on a free plane is counted; its page of an interrupted block is a bus fault, another is read. -/
theorem pageRead_of_free {k : Nat} {q : Nat × Nat} (hbusy : s.bankBusy (plane / 16) = false)
    (hread : s.cel.inFlight.any (fun r => r.plane == plane) = false) (hset : setOnPlane s p plane = some k)
    (hpage : runPage s k plane (SMap.get countBlank (s.part p).issued plane) = some q)
    (hlen : SMap.get countBlank (s.part p).issued plane < runLen (s.set k) plane) :
    pageRead s p plane =
      if (s.pblock plane (s.physOf plane q.1)).use = 6 then busFault (entryCounted s p plane) p plane
      else { entryCounted s p plane with cel := { s.cel with inFlight := s.cel.inFlight ++ [{
        plane := plane, part := p, set := k, n := SMap.get countBlank (s.part p).issued plane }] } } := by
  have hcel : (entryCounted s p plane).cel = s.cel := cel_updPart s p _
  have hrec : (entryCounted s p plane).set k = s.set k := by
    rw [State.set, entryCounted, exp_updPart]
    rfl
  have hset' : setOnPlane (entryCounted s p plane) p plane = some k := by
    rw [← hset]
    simp [setOnPlane, entryCounted, Part.sets, Part.busy, State.set]
  have hpage' : runPage (entryCounted s p plane) k plane (SMap.get countBlank (s.part p).issued plane) = some q := by
    rw [runPage_of_cel (s := s) (by rw [hcel]), hpage]
  simp only [pageRead, hin, not_on_of_none hst, Nat.not_le.mpr hdue, hbusy, hread, decide_false, Bool.not_true,
    Bool.or_false, Bool.false_eq_true, if_false]
  rw [← entryCounted, hset']
  dsimp only
  rw [hpage']
  dsimp only
  rw [hrec, if_neg (Nat.not_le.mpr hlen), State.pblock, State.physOf, hcel]
  rfl

end

/-- What the wait for a plane changes and leaves. -/
theorem entryWaits_effect {s t : State} {p plane : Nat} (hp : p < 2) (hbusy : (s.part p).busy = true)
    (ht : t = entryWaits s p plane) :
    (t.part p).stall.retry = true ∧ plane ∈ (t.part p).waitPlanes ∧ (t.part p).issued = (s.part p).issued ∧
    t.cel = s.cel ∧ t.dram = s.dram := by
  have hcel : t.cel = s.cel := by
    rw [ht, entryWaits, stallAssert]
    split
    · rw [setTileStates_onlyRegs, cel_wr, cel_updPart, cel_updPart]
    · exact cel_updPart s p _
  obtain ⟨hpart, -, -, hdram⟩ := stallAssert_effect hp (by rw [part_updPart_same]; exact hbusy) ht
  rw [part_updPart_same] at hpart
  refine ⟨?_, ?_, ?_, hcel, hdram.trans (dram_updPart s p _)⟩
  · rw [hpart]
    simp only [Stall.put]
    split <;> rfl
  · rw [hpart]
    by_cases h : plane ∈ (s.part p).waitPlanes <;> simp [h]
  · rw [hpart]

/-! What the arrays take from the pages that arrive. -/

/-- `t` is `s` but for the expanders and the partitions. -/
def Takes (s t : State) : Prop := t = { s with exp := t.exp, part0 := t.part0, part1 := t.part1 }

theorem Takes.refl (s : State) : Takes s s := rfl

theorem Takes.trans {s t u : State} (a : Takes s t) (b : Takes t u) : Takes s u := by
  rw [Takes] at a b ⊢
  rw [b, a]

theorem Takes.updPart (s : State) (p : Nat) (f : Part → Part) : Takes s (s.updPart p f) := by
  unfold State.updPart State.setPart
  split <;> rfl

theorem Takes.regs {s t : State} (h : Takes s t) : t.regs = s.regs := by rw [h]

theorem Takes.dram {s t : State} (h : Takes s t) : t.dram = s.dram := by rw [h]

theorem Takes.cel {s t : State} (h : Takes s t) : t.cel = s.cel := by rw [h]

/-- The blocks that the arrays take go into the expanders' buffers. -/
theorem takeArrived_frame (s : State) (f : LateStep) (live : Bool) :
    (takeArrived s f live).2 = { s with exp := (takeArrived s f live).2.exp } := by
  refine foldl_keeps (P := fun q : SMap Nat × State => q.2 = { s with exp := q.2.exp }) _ (fun q arr hq => ?_) _ _ rfl
  dsimp only
  rw [hq]

theorem takeArrived_takes (s : State) (f : LateStep) (live : Bool) : Takes s (takeArrived s f live).2 := by
  rw [Takes, takeArrived_frame]

theorem bufferAll_takes (s : State) (p : Nat) : Takes s (bufferAll s p) := by
  unfold bufferAll
  split
  · exact Takes.refl s
  · exact (takeArrived_takes _ _ _).trans (Takes.updPart _ _ _)

theorem bufferLate_takes (s : State) (p : Nat) : Takes s (bufferLate s p) := by
  unfold bufferLate
  split
  · exact Takes.refl s
  · exact (takeArrived_takes _ _ _).trans (Takes.updPart _ _ _)

theorem settleRetry_takes (s : State) (p : Nat) : Takes s (settleRetry s p) := by
  unfold settleRetry stallClear
  dsimp only
  split
  · exact Takes.updPart s p _
  · exact Takes.refl s

/-- Taking blocks leaves the count of the pages that have arrived. -/
theorem arrived_bufferAll (s : State) (p : Nat) : ((bufferAll s p).part p).arrived = (s.part p).arrived := by
  unfold bufferAll
  split
  · rfl
  · rw [part_updPart_same, takeArrived_frame]
    rfl

theorem arrived_settleRetry (s : State) (p : Nat) : ((settleRetry s p).part p).arrived = (s.part p).arrived := by
  unfold settleRetry stallClear
  dsimp only
  split
  · rw [part_updPart_same]
  · rfl

theorem pageArrived_takes (s : State) (r : ReadOp) (retried : Bool) : Takes s (pageArrived s r retried) := by
  unfold pageArrived
  split
  · exact (Takes.updPart s _ _).trans ((bufferAll_takes _ _).trans (settleRetry_takes _ _))
  · exact (Takes.updPart s _ _).trans ((bufferLate_takes _ _).trans (settleRetry_takes _ _))

/-- A page of the running step is delivered. -/
theorem arrived_pageArrived {r : ReadOp} (h : r.live = true) (s : State) (retried : Bool) :
    SMap.get countBlank ((pageArrived s r retried).part r.part).arrived r.plane = r.n + 1 := by
  rw [pageArrived, if_pos h]
  dsimp only
  rw [arrived_settleRetry, arrived_bufferAll]
  simp only [part_updPart_same, SMap.get_set_same]

/-! CELLAR_READ_DONE. -/

theorem exec_cellarReadDone {s : State} (h : s.live = true) (plane outcome : Nat) :
    exec (.cellarReadDone plane outcome) s = .next (readDone s plane outcome) :=
  congrArg Host.Outcome.next (engine_of_live h _)

/-- Counting a read counts it in CEL_READS and in its block. -/
theorem countRead_frame (s : State) (plane b : Nat) : countRead s plane b =
    { s with regs := (s.inc Reg.CEL_READS).regs, cel := { s.cel with blocks := (countRead s plane b).cel.blocks } } := rfl

theorem rd_countRead (s : State) (plane b : Nat) (g : Fld) :
    (countRead s plane b).rd g = (s.inc Reg.CEL_READS).rd g := rfl

/-- A read that is good at the first try is only counted. -/
theorem readOutcome_of_good (s : State) (plane l : Nat) :
    readOutcome s plane l 0 = countRead s plane (s.physOf plane l) := rfl

/-- The read in flight on a plane is over. -/
def readOver (s : State) (plane : Nat) : State :=
  { s with cel := { s.cel with inFlight := s.cel.inFlight.filter (fun x => x.plane != plane) } }

section
variable {s : State} {plane : Nat}

theorem readDone_of_none (h : s.cel.inFlight.find? (fun x => x.plane == plane) = none) (outcome : Nat) :
    readDone s plane outcome = s := by
  rw [readDone, h]

/-- A read whose set no longer has the page is over, and no more. -/
theorem readDone_of_gone {r : ReadOp} (h : s.cel.inFlight.find? (fun x => x.plane == plane) = some r)
    (hpage : runPage s r.set r.plane r.n = none) (outcome : Nat) : readDone s plane outcome = readOver s plane := by
  have hpage' : pageOf (readOver s plane) r = none := hpage
  rw [readDone, h]
  dsimp only
  rw [← readOver, hpage']

/-- A read that is good at the first try is counted, its plane is waited for no longer, and its page arrives. -/
theorem readDone_of_good {r : ReadOp} {q : Nat × Nat}
    (h : s.cel.inFlight.find? (fun x => x.plane == plane) = some r)
    (hpage : runPage s r.set r.plane r.n = some q) :
    readDone s plane 0 = pageArrived ((countRead (readOver s plane) plane (s.physOf plane q.1)).updPart r.part
      (fun y => { y with waitPlanes := y.waitPlanes.filter (fun w => w != plane) })) r false := by
  have hpage' : pageOf (readOver s plane) r = some q := hpage
  rw [readDone, h]
  dsimp only
  rw [← readOver, hpage']
  rfl

end

/-- What a good read changes and leaves. -/
theorem readDone_effect {s t : State} {plane : Nat} {r : ReadOp} {q : Nat × Nat}
    (h : s.cel.inFlight.find? (fun x => x.plane == plane) = some r)
    (hpage : runPage s r.set r.plane r.n = some q) (ht : t = readDone s plane 0) :
    t.cel.inFlight = s.cel.inFlight.filter (fun x => x.plane != plane) ∧
    (∀ g, t.rd g = (s.inc Reg.CEL_READS).rd g) ∧
    (r.live = true → SMap.get countBlank (t.part r.part).arrived plane = r.n + 1) ∧ t.dram = s.dram := by
  have hplane : r.plane = plane := by simpa using List.find?_some h
  rw [readDone_of_good h hpage] at ht
  have takes := (Takes.updPart (countRead (readOver s plane) plane (s.physOf plane q.1)) r.part
    (fun y => { y with waitPlanes := y.waitPlanes.filter (fun w => w != plane) })).trans (pageArrived_takes _ r false)
  rw [← ht] at takes
  refine ⟨?_, fun g => ?_, fun hlive => ?_, ?_⟩
  · rw [takes.cel]
    rfl
  · rw [rd_congr takes.regs, rd_countRead]
    rfl
  · rw [ht, ← hplane]
    exact arrived_pageArrived hlive _ false
  · rw [takes.dram]
    rfl

/-! TIER1_READ. -/

theorem exec_tier1Read {s : State} (h : s.live = true) (c va n outcome : Nat) (pos : List Nat) :
    exec (.tier1Read c va n outcome pos) s = .next (tier1Read s c va n outcome pos) :=
  congrArg Host.Outcome.next (engine_of_live h _)

/-- `t` is `s` after a translation that was not refused (R232): a free value may be taken, a walk counted and cached. -/
def Walked (s t : State) : Prop :=
  t = { s with free := t.free, regs := t.regs, walks := t.walks } ∧ s.regsKept t [Reg.XLT_WALKS]

/-- A read's translation reaches the leaf that both the walk and every cached walk of the page name. -/
theorem access_of_leaf {s : State} {c va : Nat} {l : Leaf}
    (hcached : ∀ w ∈ s.walks, w.ctx = c → w.leaf.covers va = true → w.leaf = l) (hwalk : walk s c va false = .ok l) :
    ∃ t, access s c va false = (.ok l, t) ∧ Walked s t := by
  unfold access
  split
  · next w hw =>
    have covers : w.ctx = c ∧ w.leaf.covers va = true := by simpa using List.find?_some hw
    have leaf : w.leaf = l := hcached w (List.mem_of_find?_eq_some hw) covers.1 covers.2
    dsimp only
    split
    · refine ⟨s.freshBool.2, ?_, rfl, fun _ _ => rfl⟩
      simp [leaf]
    · refine ⟨s.freshBool.2.inc Reg.XLT_WALKS, by rw [hwalk, countWalk], rfl, fun g hg => ?_⟩
      exact regsKept_inc s.freshBool.2 Reg.XLT_WALKS g hg
  · rw [hwalk]
    exact ⟨_, rfl, rfl, regsKept_inc s Reg.XLT_WALKS⟩

/-- With no cached walk of the page, a refused walk is counted as a walk and as a fault. -/
theorem access_of_refused {s : State} {c va code : Nat}
    (hcached : ∀ w ∈ s.walks, w.ctx = c → w.leaf.covers va = false) (hwalk : walk s c va false = .no code) :
    ∃ t, access s c va false = (.no code, t) ∧ s.onlyRegs t ∧ s.regsKept t [Reg.XLT_WALKS, Reg.XLT_FAULTS] := by
  have missed : s.walks.find? (fun w => w.ctx == c && w.leaf.covers va) = none := by
    simpa using hcached
  refine ⟨(s.inc Reg.XLT_WALKS).inc Reg.XLT_FAULTS, ?_, rfl, fun g hg => ?_⟩
  · rw [access, missed]
    dsimp only
    rw [hwalk]
    rfl
  · simp only [List.mem_cons, List.not_mem_nil, or_false, forall_eq_or_imp, forall_eq] at hg
    obtain ⟨hwalks, hfaults⟩ := hg
    exact (rd_wr_ne _ _ hfaults).trans (rd_wr_ne s _ hwalks)

/-- Whether an operation may start on a bank depends on the Cellar, the partitions, their images and the map's floor. -/
theorem Walked.permits {s t : State} (h : Walked s t) : permits t = permits s := by
  obtain ⟨hframe, hregs⟩ := h
  have floor : partFloor t = partFloor s := by
    have maxDiv (n : Nat) : t.rd (Reg.PWR_TILE_MAXDIV n) = s.rd (Reg.PWR_TILE_MAXDIV n) := by
      refine hregs _ ?_
      simp only [List.mem_singleton, forall_eq, Fld.key, Reg.XLT_WALKS, Reg.PWR_TILE_MAXDIV]
      omega
    funext p
    simp only [partFloor, floorOf, maxDiv]
    rw [hframe]
    rfl
  have next : nextRead t = nextRead s := by
    rw [hframe]
    rfl
  funext b pos ns
  simp only [Machine.permits, floor, next]
  rw [hframe]
  rfl

/-- A read of a mapped tier-1 page in an interval that R172 permits, good at the first try, is counted and answers the
stored bytes (R176). -/
theorem tier1Read_of_permitted {s t : State} {c va n : Nat} {pos : List Nat} {l : Leaf} {q r : Nat × Nat}
    (haccess : access s c va false = (.ok l, t)) (hwalked : Walked s t) (htier : l.tier = 1)
    (hdata : dataPage (s.set ((l.addr + (va - l.va)) / 2 ^ 40)).planes (s.set ((l.addr + (va - l.va)) / 2 ^ 40)).pages
      ((l.addr + (va - l.va)) % 2 ^ 40 / 16384) = some q)
    (hbusy : s.bankBusy (q.1 / 16) = false) (hpermits : permits s (q.1 / 16) pos 8000 = true)
    (hpage : runPage s ((l.addr + (va - l.va)) / 2 ^ 40) q.1 q.2 = some r) :
    tier1Read s c va n 0 pos = { countRead t q.1 (s.physOf q.1 r.1) with
      resp := (tier1Bytes s (l.addr + (va - l.va)) n).map (·.toNat) } := by
  have hframe := hwalked.1
  have set : t.set = s.set := by
    rw [hframe]
    rfl
  have busy : t.bankBusy (q.1 / 16) = false := by
    rw [← hbusy, hframe]
    rfl
  have page : runPage t = runPage s := runPage_of_cel (by rw [hframe])
  have phys : t.physOf = s.physOf := by
    rw [hframe]
    rfl
  have bytes (b : Nat) : tier1Bytes (countRead t q.1 b) (l.addr + (va - l.va)) n =
      tier1Bytes s (l.addr + (va - l.va)) n := by
    rw [countRead_frame, hframe]
    rfl
  rw [tier1Read, haccess]
  dsimp only
  rw [set, hdata]
  dsimp only
  rw [busy, hwalked.permits, hpermits, page, hpage]
  simp only [htier, readOutcome_of_good, bytes, phys]
  rfl

/-- A read whose access is refused answers zeros. -/
theorem tier1Read_of_refused {s t : State} {c va code : Nat} (haccess : access s c va false = (.no code, t))
    (n outcome : Nat) (pos : List Nat) :
    tier1Read s c va n outcome pos = { t with resp := List.replicate n 0 } := by
  rw [tier1Read, haccess]

/-! The statement. -/

/-- Settles O31: a live part performs each command; the case of each clause picks the branch that it takes. -/
theorem cellarReads : Obligations.CellarReads := by
  unfold Obligations.CellarReads
  refine ⟨?issued, ?waits, ?done, ?gone, ?none, ?tier1, ?refused⟩
  case issued =>
    intro p plane k q s _ hl hin hst _ hdue hbusy hread hset hpage hlen
    have free := (exec_cellarPageRead hl p plane).trans
      (congrArg Host.Outcome.next (pageRead_of_free hin hst hdue hbusy hread hset hpage hlen))
    refine ⟨fun huse => ?_, fun huse => ?_⟩
    · rw [free, if_pos huse]
      rfl
    · rw [if_neg huse] at free
      exact ⟨_, free, rfl, issued_entryCounted s p plane, regs_updPart s p _, memKept_of_dram (dram_updPart s p _)⟩
  case waits =>
    intro p plane s hp hl hin hst hdue
    refine ⟨fun hbusy => ?_, fun hbusy hread => ?_⟩
    · rw [exec_cellarPageRead hl, pageRead_of_busy hin hst hdue hbusy]
    · obtain ⟨hretry, hwaits, hissued, hcel, hdram⟩ := entryWaits_effect (plane := plane) hp (busy_of_inStep hin) rfl
      refine ⟨entryWaits s p plane, ?_, hretry, hwaits, hissued, hcel, memKept_of_dram hdram⟩
      rw [exec_cellarPageRead hl, pageRead_of_reading hin hst hdue hbusy hread]
  case done =>
    intro plane r q s hl hr hpage _
    obtain ⟨hflight, hrd, harrived, hdram⟩ := readDone_effect hr hpage rfl
    refine ⟨_, exec_cellarReadDone hl plane 0, hflight, ?_, fun g hg => ?_, harrived, memKept_of_dram hdram⟩
    · rw [hrd, rd_inc_same]
    · rw [hrd, regsKept_inc s _ g hg]
  case gone =>
    intro plane outcome r s hl hr hpage
    rw [exec_cellarReadDone hl, readDone_of_gone hr hpage]
    rfl
  case none =>
    intro plane outcome s hl hr
    rw [exec_cellarReadDone hl, readDone_of_none hr]
  case tier1 =>
    intro c va n pos l q r s hl hcached hwalk htier hdata hbusy hpermits hpage
    obtain ⟨t, haccess, hwalked⟩ := access_of_leaf hcached hwalk
    obtain ⟨hframe, hkept⟩ := id hwalked
    refine ⟨_, (exec_tier1Read hl c va n 0 pos).trans (congrArg Host.Outcome.next
      (tier1Read_of_permitted haccess hwalked htier hdata hbusy hpermits hpage)), rfl, ?_, fun g hg => ?_,
      memKept_of_dram ?_⟩
    · refine (rd_inc_same t Reg.CEL_READS).trans ?_
      rw [hkept _ (by decide)]
    · simp only [List.mem_cons, List.not_mem_nil, or_false, forall_eq_or_imp, forall_eq] at hg
      obtain ⟨hreads, hwalks⟩ := hg
      exact (regsKept_inc t Reg.CEL_READS g (by simpa using hreads)).trans (hkept g (by simpa using hwalks))
    · show t.dram = s.dram
      rw [hframe]
  case refused =>
    intro c va n outcome code pos s hl hcached hwalk
    obtain ⟨t, haccess, honly, hkept⟩ := access_of_refused hcached hwalk
    rw [State.onlyRegs] at honly
    refine ⟨_, (exec_tier1Read hl c va n outcome pos).trans (congrArg Host.Outcome.next
      (tier1Read_of_refused haccess n outcome pos)), rfl, hkept, ?_, memKept_of_dram ?_⟩
    · rw [honly]
    · show t.dram = s.dram
      rw [honly]

end Sys2Proof.Machine.Architecture
end

section
/-! Read disturb, block queries and the start of the Cellar (R180, R181, R184, R187, R188, R431). -/

namespace Sys2Proof.Machine.Architecture

/-! Physical blocks. -/

@[simp] theorem pblock_updBlock_same (s : State) (plane b : Nat) (f : PBlock → PBlock) :
    (s.updBlock plane b f).pblock plane b = f (s.pblock plane b) := SMap.get_set_same pblockBlank s.cel.blocks _ _

theorem minNat_eq_min (a b : Nat) : minNat a b = min a b := rfl

/-! Read disturb. -/

theorem exec_refreshThreshold {s : State} (h : s.live = true) (plane b : Nat) :
    exec (.refreshThreshold plane b) s = .next (refreshThreshold s plane b) :=
  congrArg Host.Outcome.next (engine_of_live h _)

theorem exec_forcedRelocation {s : State} (h : s.live = true) (plane b : Nat) :
    exec (.forcedRelocation plane b) s = .next (forcedRelocation s plane b) :=
  congrArg Host.Outcome.next (engine_of_live h _)

/-- A user block in stage 0 that is not queued and has reached the threshold is queued (R181). -/
theorem refreshThreshold_of_reached {s : State} {plane b : Nat} (huse : (s.pblock plane b).use = 1)
    (hqueued : (s.pblock plane b).queued = 0) (hstage : (s.pblock plane b).stage = 0)
    (hcount : refreshAt s ≤ sweepsOf s (s.pblock plane b)) :
    refreshThreshold s plane b = s.updBlock plane b (fun y => { y with queued := 1 }) := by
  simp [refreshThreshold, huse, hqueued, hstage, hcount]

/-- A block queued for relocation by its counter, where it is not queued already. -/
def queuedOnce (y : PBlock) : PBlock := { y with queued := if y.queued = 0 then 1 else y.queued }

/-- What a forced relocation does to a user block at 1.5 times the threshold (R181). -/
theorem forcedRelocation_effect {s t : State} {plane b : Nat} (huse : (s.pblock plane b).use = 1)
    (hcount : 3 * refreshAt s ≤ 2 * sweepsOf s (s.pblock plane b)) (ht : t = forcedRelocation s plane b) :
    (t.pblock plane b).queued ≠ 0 ∧ plane / 16 ∈ t.cel.forced ∧ t.cel.data = s.cel.data ∧
    t = { s with cel := t.cel } := by
  have reached : ((s.pblock plane b).use = 1 ∨ (s.pblock plane b).use = 3) ∧
      3 * refreshAt s ≤ 2 * sweepsOf s (s.pblock plane b) := ⟨Or.inl huse, hcount⟩
  rw [forcedRelocation, if_pos reached] at ht
  have block : t.pblock plane b = queuedOnce (s.pblock plane b) := by
    rw [ht]
    exact pblock_updBlock_same s plane b queuedOnce
  have forced : t.cel.forced = if s.cel.forced.contains (plane / 16) then s.cel.forced
      else s.cel.forced ++ [plane / 16] := by rw [ht]; rfl
  refine ⟨?_, ?_, by rw [ht]; rfl, by rw [ht]; rfl⟩
  · rw [block, queuedOnce]
    dsimp only
    split <;> omega
  · rw [forced]
    by_cases h : plane / 16 ∈ s.cel.forced <;> simp [h]

/-- A checkpoint keeps every counter (R180). -/
theorem ckpt_checkpoint (s : State) : ∀ e ∈ (checkpoint s).cel.blocks, e.2.ckpt = e.2.sweeps := by
  intro e he
  obtain ⟨x, -, rfl⟩ := List.mem_map.mp he
  rfl

/-! THRESH_K. -/

theorem clampThresh_eq (v : Nat) : clampThresh v = min (max v 1000) 6000 := by
  unfold clampThresh
  split
  · omega
  · split <;> omega

/-! Block queries. -/

theorem exec_blockQuery {s : State} (h : s.hostOk Reg.CEL_BQ_SEL_PLANE.off = true) (plane : Nat) (phys : Bool) (b : Nat) :
    exec (.blockQuery plane phys b) s = .next (blockQuery s plane phys b) := congrArg Host.Outcome.next (host_of_ok h _)

/-- A query stores what it selects. -/
def queryStored (s : State) (plane b : Nat) : State :=
  s.wrs [(Reg.CEL_BQ_SEL_PLANE, plane), (Reg.CEL_BQ_SEL_PHYS, 1), (Reg.CEL_BQ_SEL_BLOCK, b)]

/-- With Keeper ready a query of a physical block answers its words. -/
theorem blockQuery_of_phys {s : State} (h : s.ready = true) (plane b : Nat) :
    blockQuery s plane true b = queryWords (queryStored s plane b) plane b := by
  have ready : (queryStored s plane b).ready = true :=
    (ready_wr (by decide) _ _).trans ((ready_wr (by decide) _ _).trans ((ready_wr (by decide) s _).trans h))
  exact if_pos ready

/-- What the answer of a query writes: the counters, state and stage of a physical block (R188). -/
def queryFields (s : State) (plane b : Nat) : List (Fld × Nat) :=
  let x := s.pblock plane b
  [(Reg.CEL_BQ_DATA0_SWEEPS_K, minNat (sweepsOf s x / 1000) 65535), (Reg.CEL_BQ_DATA0_PE, minNat x.pe 65535),
    (Reg.CEL_BQ_DATA1_STATE, x.use), (Reg.CEL_BQ_DATA1_STAGE, x.stage), (Reg.CEL_BQ_DATA1_PROG_10US, x.prog10us),
    (Reg.CEL_BQ_DATA1_RETRY, if x.sinceRefresh = 0 then 0 else minNat (100000 * x.retried / x.sinceRefresh) 255),
    (Reg.CEL_BQ_DATA1_PBLOCK, b)]

theorem queryWords_eq (s : State) (plane b : Nat) : queryWords s plane b = s.wrs (queryFields s plane b) := rfl

/-- The fields of an answer lie at different places. -/
theorem queryFields_distinct (s : State) (plane b : Nat) : ((queryFields s plane b).map (·.1.key)).Nodup :=
  show ([Reg.CEL_BQ_DATA0_SWEEPS_K.key, Reg.CEL_BQ_DATA0_PE.key, Reg.CEL_BQ_DATA1_STATE.key,
    Reg.CEL_BQ_DATA1_STAGE.key, Reg.CEL_BQ_DATA1_PROG_10US.key, Reg.CEL_BQ_DATA1_RETRY.key,
    Reg.CEL_BQ_DATA1_PBLOCK.key]).Nodup by decide

/-- What the answer of a query reads. -/
theorem queryWords_effect {s t : State} {plane b : Nat} (hb : b < 128) (ht : t = queryWords s plane b) :
    t.rd Reg.CEL_BQ_DATA0_PE = min (s.pblock plane b).pe 65535 ∧
    t.rd Reg.CEL_BQ_DATA0_SWEEPS_K = min (sweepsOf s (s.pblock plane b) / 1000) 65535 ∧
    t.rd Reg.CEL_BQ_DATA1_PBLOCK = b ∧ s.onlyRegs t := by
  have read {f : Fld} {v : Nat} (h : (f, v) ∈ queryFields s plane b) (hv : v < 2 ^ f.width) : t.rd f = v := by
    rw [ht, queryWords_eq]
    exact rd_wrs_mem_of_lt h (queryFields_distinct s plane b) hv s
  have cut (n : Nat) : min n 65535 < 2 ^ 16 := by omega
  refine ⟨read ?_ (cut _), read ?_ (cut _), read ?_ hb, ht ▸ onlyRegs_wrs s _⟩
  all_goals simp [queryFields, minNat_eq_min]

/-! The start. -/

theorem exec_cellarStart {s : State} (hl : s.live = true) (hready : s.ready = true) (htiles : s.chip.tilesStarted = 32)
    (badCal bad : List Nat) (scan : Bool) (lost factory : List (Nat × Nat)) :
    exec (.cellarStart badCal bad scan lost factory) s = .next (cellarStart s badCal bad scan lost factory) := by
  refine congrArg Host.Outcome.next ((engine_of_live hl _).trans ?_)
  simp [hready, htiles]

/-- A bad calibration row ends the start in PHASE 5 (R177, R184). -/
theorem cellarStart_of_badRow {s : State} (h : s.rd Reg.CEL_STATUS_PHASE = 0) (d : Nat) (l bad : List Nat) (scan : Bool)
    (lost factory : List (Nat × Nat)) :
    cellarStart s (d :: l) bad scan lost factory = ((s.wr Reg.CEL_STATUS_PHASE 5).report
      (errOf Code.CEL_E_CALIB 0)).raiseCel Reg.CEL_IRQ_STATUS_READY := by
  simp [cellarStart, h]

/-- `t` is `s` but for the Cellar's blocks, its map and its spare pools. -/
def Pools (s t : State) : Prop :=
  t = { s with cel := { s.cel with blocks := t.cel.blocks, map := t.cel.map, spare := t.cel.spare } }

theorem Pools.refl (s : State) : Pools s s := rfl

theorem Pools.trans {s t u : State} (a : Pools s t) (b : Pools t u) : Pools s u := by
  rw [Pools] at a b ⊢
  rw [b, a]

theorem remap_pools (s : State) (plane l : Nat) : Pools s (remap s plane l) := by
  unfold remap
  split
  · exact Pools.refl s
  · rfl

/-- A factory bad block changes its plane's blocks, map and spare pool (R178). -/
theorem factoryBad_pools (q : Nat × Nat) (s : State) : Pools s (factoryBad q s) := by
  unfold factoryBad
  dsimp only
  split
  · exact Pools.refl s
  · split
    · refine Pools.trans ?_ (remap_pools _ _ _)
      rfl
    · rfl

theorem overList_factoryBad_pools (s : State) (factory : List (Nat × Nat)) : Pools s (overList factory factoryBad s) :=
  overList_keeps (P := Pools s) _ _ (fun q _ t ht => ht.trans (factoryBad_pools q t)) s (Pools.refl s)

/-- With no operation in any bank there is nothing to recover. -/
theorem recoverBanks_of_none {s : State} (h : s.cel.bankOps = []) (bad l : List Nat) :
    l.foldl (fun t b => recoverBank bad b t) s = s := by
  have idle (b : Nat) : recoverBank bad b s = s := by simp [recoverBank, State.bankOp, h, SMap.get, bankBlank]
  induction l with
  | nil => rfl
  | cons b rest ih => rw [List.foldl_cons, idle, ih]

/-- With no relocation in hand none begins again. -/
theorem restartRelocs_of_none {s : State} (h : s.cel.relocs = []) : restartRelocs s = s := by
  have relocs : s.cel.relocs.map (fun r => { r with dst := 128, page := 0 }) = s.cel.relocs := by
    rw [h]
    rfl
  have stale (l : List Stale) : l ++ (s.cel.relocs.filter (fun r => decide (r.dst < 128))).map
      (fun r => ({ plane := r.plane, block := r.dst } : Stale)) = l := by simp [h]
  rw [restartRelocs]
  dsimp only
  rw [relocs, stale]

/-- The Cellar as a start without a scan finds it: factory bad blocks drawn, the counters of the last checkpoint (R180). -/
def startFound (s : State) (factory : List (Nat × Nat)) : State :=
  let t := startCounters (overList factory factoryBad s)
  { t with cel := { t.cel with orderly := false } }

theorem startFound_frame (s : State) (factory : List (Nat × Nat)) :
    startFound s factory = { s with cel := (startFound s factory).cel } ∧ (startFound s factory).cel.orderly = false ∧
    (startFound s factory).cel.margin = s.cel.margin + (if s.cel.orderly then 0 else 30000) := by
  unfold startFound startCounters
  rw [overList_factoryBad_pools]
  exact ⟨rfl, rfl, rfl⟩

/-- What the end of a start writes: no interrupted block, PHASE 4 and the factory's bad blocks. -/
def startFields (factoryBlocks : Nat) : List (Fld × Nat) :=
  [(Reg.CEL_STATUS_INT_BLOCKS, 0), (Reg.CEL_STATUS_PHASE, 4), (Reg.CEL_WEAR_RETIRED_FACTORY, factoryBlocks)]

theorem startFields_distinct (n : Nat) : ((startFields n).map (·.1.key)).Nodup :=
  show ([Reg.CEL_STATUS_INT_BLOCKS.key, Reg.CEL_STATUS_PHASE.key, Reg.CEL_WEAR_RETIRED_FACTORY.key]).Nodup by decide

/-- The registers at the end of a start, but for the event. -/
def startNoted (s : State) : State :=
  (capacityRegs s).wrs (startFields (s.cel.blocks.filter (fun e => e.2.use == 4)).length)

/-- A start that finds no operation and no relocation, without a scan. -/
theorem cellarStart_of_idle {s : State} (h : s.rd Reg.CEL_STATUS_PHASE = 0) (hops : s.cel.bankOps = [])
    (hrelocs : s.cel.relocs = []) (bad : List Nat) (lost factory : List (Nat × Nat)) :
    cellarStart s [] bad false lost factory =
      (startNoted (startFound s factory)).raise 3 Reg.CEL_IRQ_STATUS_READY Reg.CEL_IRQ_EN_BITS := by
  have counted : (startCounters (overList factory factoryBad s)).cel.bankOps = [] ∧
      (startCounters (overList factory factoryBad s)).cel.relocs = [] := by
    rw [overList_factoryBad_pools]
    exact ⟨hops, hrelocs⟩
  obtain ⟨ops, relocs⟩ := counted
  simp only [cellarStart, h, bne_self_eq_false, List.isEmpty_nil, Bool.not_true, Bool.false_eq_true, if_false,
    recoverBanks_of_none ops, restartRelocs_of_none relocs]
  rfl

/-- The start's registers but for the event. -/
theorem startNoted_effect {s t : State} (ht : t = startNoted s) :
    t.rd Reg.CEL_STATUS_PHASE = 4 ∧ s.onlyRegs t ∧ (s.vectorsFit → t.vectorsFit) := by
  subst ht
  refine ⟨?_, onlyRegs_trans (onlyRegs_wrs s _) (onlyRegs_wrs _ _), vectorsFit_of_rd (fun i hi => ?_)⟩
  · exact rd_wrs_mem_of_lt (by simp [startFields]) (startFields_distinct _) (show 4 < 2 ^ 3 by decide) _
  · rw [startNoted, rd_wrs_ne, capacityRegs, rd_wrs_ne]
    all_goals
      simp only [startFields, List.mem_cons, List.not_mem_nil, or_false, forall_eq_or_imp, forall_eq, Fld.key,
        Reg.HIF_IVEC_VECTOR, Reg.CEL_CAPACITY_USER_BLOCKS, Reg.CEL_CAPACITY_ALLOC_BLOCKS, Reg.CEL_STATUS_INT_BLOCKS,
        Reg.CEL_STATUS_PHASE, Reg.CEL_WEAR_RETIRED_FACTORY]
      omega

/-- What a start that finds no operation and no relocation changes and leaves. -/
theorem startDone_effect {s t : State} {factory : List (Nat × Nat)} (fit : s.vectorsFit)
    (ht : t = (startNoted (startFound s factory)).raise 3 Reg.CEL_IRQ_STATUS_READY Reg.CEL_IRQ_EN_BITS) :
    t.rd Reg.CEL_STATUS_PHASE = 4 ∧ t.rd Reg.CEL_IRQ_STATUS_READY = 1 ∧ t.cel.orderly = false ∧
    t.cel.margin = s.cel.margin + (if s.cel.orderly then 0 else 30000) ∧ s.memKept t := by
  obtain ⟨hframe, horderly, hmargin⟩ := startFound_frame s factory
  obtain ⟨hnoted, honly, hfits⟩ := startNoted_effect (s := startFound s factory) rfl
  have vector := hfits (vectorsFit_of_rd (fun i _ => rd_congr (by rw [hframe]) _) fit) 3 (by decide)
  have ready : Plain Reg.CEL_IRQ_STATUS_READY := by unfold Plain; decide
  have phase : Plain Reg.CEL_STATUS_PHASE := by unfold Plain; decide
  obtain ⟨_, _, _, hsent⟩ :=
    raise_sends (startNoted (startFound s factory)) 3 Reg.CEL_IRQ_STATUS_READY Reg.CEL_IRQ_EN_BITS
  have hcel : t.cel = (startFound s factory).cel := by rw [ht, hsent, honly]
  subst ht
  refine ⟨(rd_raise _ vector phase (by decide)).trans hnoted, rd_raise_same _ vector ready rfl, ?_, ?_,
    memKept_of_dram ?_⟩
  · rw [hcel, horderly]
  · rw [hcel, hmargin]
  · rw [hsent, honly, hframe]

/-! The statement. -/

/-- Settles O33: a live part performs each command, and its lemma says what it changes. -/
theorem cellarUpkeep : Obligations.CellarUpkeep := by
  unfold Obligations.CellarUpkeep
  refine ⟨?threshold, ?forced, ?checkpoint, ?shutdown, ?clamp, ?query, ?start⟩
  case threshold =>
    intro plane b s hl huse hqueued hstage hcount
    rw [exec_refreshThreshold hl, refreshThreshold_of_reached huse hqueued hstage hcount]
  case forced =>
    intro plane b s hl huse hcount
    exact ⟨_, exec_forcedRelocation hl plane b, forcedRelocation_effect huse hcount rfl⟩
  case checkpoint =>
    intro s hl
    exact ⟨_, congrArg Host.Outcome.next (engine_of_live hl _), rfl, ckpt_checkpoint s, rfl, rfl⟩
  case shutdown =>
    intro s hl hbrake
    exact ⟨_, congrArg Host.Outcome.next ((engine_of_live hl _).trans (if_pos hbrake)), rfl, ckpt_checkpoint s, rfl, rfl⟩
  case clamp =>
    intro v s hok
    rw [← clampThresh_eq]
    exact congrArg Host.Outcome.next (host_of_ok hok _)
  case query =>
    intro plane b s hok hready _ hb
    have stored : s.onlyRegs (queryStored s plane b) := onlyRegs_wrs s _
    obtain ⟨hpe, hsweeps, hblock, honly⟩ := queryWords_effect (s := queryStored s plane b) (plane := plane) hb rfl
    have hcel : (queryStored s plane b).cel = s.cel := cel_wrs s _
    refine ⟨_, (exec_blockQuery hok plane true b).trans (congrArg _ (blockQuery_of_phys hready plane b)), ?_, ?_, hblock,
      onlyRegs_trans stored honly⟩
    · rw [hpe, State.pblock, hcel]
      rfl
    · rw [hsweeps, sweepsOf, State.pblock, hcel]
      rfl
  case start =>
    intro bad scan lost factory s hl hready htiles hphase
    refine ⟨fun d l => ?_, fun fit hops hrelocs => ?_⟩
    · rw [exec_cellarStart hl hready htiles, cellarStart_of_badRow hphase]
    · exact ⟨_, (exec_cellarStart hl hready htiles [] bad false lost factory).trans
        (congrArg _ (cellarStart_of_idle hphase hops hrelocs bad lost factory)), startDone_effect fit rfl⟩

end Sys2Proof.Machine.Architecture
end

section
/-! Saving and restoring the carry set (R275 to R277). -/

namespace Sys2Proof.Machine.Architecture

/-! The end of a save. -/

theorem exec_saveDone {s : State} (h : s.live = true) (p : Nat) (fault : Bool) :
    exec (.saveDone p fault) s = .next (saveDone s p fault) :=
  congrArg Host.Outcome.next (engine_of_live h _)

/-- With no incoming context the banks are handed back and the partition parks (R275, step 5). -/
theorem saveDone_of_stop {s : State} {p : Nat} (hst : (s.part p).stage = .saving) (hin : (s.part p).incoming = none)
    (fault : Bool) :
    saveDone s p fault = idlePending (parkPart
      (handBack ((if fault then saveFault s p else writeSave s p).updPart p Part.dropStep) p) p (s.part p).outCode) p := by
  simp only [saveDone, hst, hin, beq_self_eq_true, if_true]

/-- An incoming context is switched in (R275, step 6). -/
theorem saveDone_of_switch {s : State} {p c : Nat} (hst : (s.part p).stage = .saving)
    (hin : (s.part p).incoming = some c) (fault : Bool) :
    saveDone s p fault =
      switchIn ((if fault then saveFault s p else writeSave s p).updPart p Part.dropStep) p c := by
  simp only [saveDone, hst, hin, beq_self_eq_true, if_true]

/-! The end of a restore. -/

theorem exec_restoreDone {s : State} (h : s.live = true) (p : Nat) (fault : Bool) :
    exec (.restoreDone p fault) s = .next (restoreDone s p fault) :=
  congrArg Host.Outcome.next (engine_of_live h _)

/-- A restore that meets no fault and passes its checks leaves the tiles it restored (R276). -/
theorem restoreDone_of_passed {s : State} {p : Nat} (hst : (s.part p).stage = .restoring)
    (hpass : (restore s p).1 = true) :
    restoreDone s p false = boundary (partResult (restore s p).2 p 0) p := by
  simp [restoreDone, hst, hpass]

/-- A restore that meets a fault restores no tile; the fault is recorded (R277). -/
theorem restoreDone_of_fault {s : State} {p : Nat} (hst : (s.part p).stage = .restoring) :
    restoreDone s p true = boundary (partResult (saveFault s p) p 0) p := by
  simp [restoreDone, hst]

/-! The statement. -/

/-- Settles O23: a live part performs the command, whose end follows the incoming context of the save and the outcome of
the restore. -/
theorem saveAndRestore : Obligations.SaveAndRestore := by
  unfold Obligations.SaveAndRestore
  refine ⟨fun p fault s _ hl hst => ⟨?stop, ?switch⟩, fun p s _ hl hst => ⟨?passed, ?fault⟩⟩
  case stop =>
    intro hin
    rw [exec_saveDone hl, saveDone_of_stop hst hin]
  case switch =>
    intro c hin
    rw [exec_saveDone hl, saveDone_of_switch hst hin]
  case passed =>
    intro hpass
    rw [exec_restoreDone hl, restoreDone_of_passed hst hpass]
  case fault =>
    rw [exec_restoreDone hl, restoreDone_of_fault hst]

end Sys2Proof.Machine.Architecture
end

section
/-! What a host write, a doorbell and a message of the part come to where nothing stands in their way (R260, R284, R298). -/

namespace Sys2Proof.Machine.HostInterface

open Sys2Proof.Machine.Architecture

/-! The registers that a change leaves alone. -/

/-- A write changes one field. -/
theorem regsKept_wr (s : State) (f : Fld) (v : Nat) : s.regsKept (s.wr f v) [f] :=
  fun _ h => rd_wr_ne s v (h f (by simp))

/-- Several writes change their own fields. -/
theorem regsKept_wrs (s : State) (l : List (Fld × Nat)) : s.regsKept (s.wrs l) (l.map (·.1)) :=
  fun _ h => rd_wrs_ne (fun _ hx => h _ (List.mem_map_of_mem hx)) s

theorem regsKept_trans {s t u : State} {fs : List Fld} (a : s.regsKept t fs) (b : t.regsKept u fs) : s.regsKept u fs :=
  fun g h => (b g h).trans (a g h)

theorem regsKept_mono {s t : State} {fs gs : List Fld} (sub : ∀ f ∈ fs, f ∈ gs) (a : s.regsKept t fs) : s.regsKept t gs :=
  fun g h => a g fun f hf => h f (sub f hf)

/-- A write in the registers that BAR0 shows before the MSI-X table leaves every field above them alone. -/
theorem rd_wr_below {f g : Fld} (hf : f.key < 0x300000 * 64) (hg : 0x300000 * 64 ≤ g.key) (s : State) (v : Nat) :
    (s.wr f v).rd g = s.rd g :=
  rd_wr_ne s v (by omega)

/-- An event whose bit is set already has no effect (R298). -/
theorem raise_of_set {s : State} {bit : Fld} (h : s.flag bit = true) (n : Nat) (en : Fld) : s.raise n bit en = s :=
  if_pos h

/-! Sending. -/

/-- A doorbell that reaches the part is taken. -/
theorem doorbell_of_ok {s : State} (h : s.barOk = true) (k : State → State) : s.doorbell k = k s :=
  if_pos h

/-- What the part sends goes out at once: no trip, no safe state, no D3hot. -/
def Sending (s : State) : Prop := s.chip.tripped = false ∧ s.safe = false ∧ s.chip.d3hot = false

/-- A live part sends outside D3hot. -/
theorem sending_of_live {s : State} (hl : s.live = true) (hd3 : s.chip.d3hot = false) : Sending s := by
  simp only [State.live, State.alive, Bool.and_eq_true, Bool.not_eq_true'] at hl
  obtain ⟨⟨_, htrip⟩, hsafe⟩ := hl
  exact ⟨htrip, hsafe, hd3⟩

/-- A part that a BAR0 write reaches sends outside the safe state. -/
theorem sending_of_hostOk {s : State} {off : Nat} (h : s.hostOk off = true) (hsafe : s.safe = false) : Sending s := by
  simp only [State.hostOk, State.alive, State.linked, Bool.and_eq_true, Bool.not_eq_true'] at h
  obtain ⟨⟨⟨⟨⟨_, htrip⟩, ⟨_, hd3⟩, _⟩, _⟩, _⟩, _⟩ := h
  exact ⟨htrip, hsafe, hd3⟩

/-- A state with transactions sent. -/
def sendAll (s : State) (l : List Emit) : State := { s with out := s.out ++ l }

/-- Transactions sent one after another. -/
theorem sendAll_sendAll (s : State) (l m : List Emit) : sendAll (sendAll s l) m = sendAll s (l ++ m) := by
  rw [sendAll, sendAll, sendAll, List.append_assoc]

theorem emit_of_sending {s : State} (h : Sending s) (e : Emit) : s.emit e = sendAll s [e] := by
  obtain ⟨htrip, hsafe, hd3⟩ := h
  simp [State.emit, htrip, hsafe, hd3, sendAll]

/-- The message that the table of MSI-X gives a vector. -/
def vectorMessage (s : State) (v : Nat) : Emit :=
  .msix v (s.rd (Reg.MSIX_ADDR_LO_ADDR v) + 2 ^ 32 * s.rd (Reg.MSIX_ADDR_HI_ADDR v)) (s.rd (Reg.MSIX_DATA_DATA v))

/-- An open vector's message is sent. -/
theorem msix_of_open {s : State} {v : Nat} (hopen : s.msixOpen v = true) (hs : Sending s) :
    s.msix v = sendAll s [vectorMessage s v] := by
  simp only [State.msixOpen, Bool.and_eq_true, Bool.not_eq_true'] at hopen
  obtain ⟨⟨hen, hfunction⟩, hvector⟩ := hopen
  rw [State.msix, if_neg (by simp [hen]), if_neg (by simp [hfunction, hvector]), emit_of_sending hs]
  rfl

end Sys2Proof.Machine.HostInterface
end

section
/-! Sync cells and wait slots (R296, R297, R301). -/

namespace Sys2Proof.Machine.HostInterface

open Sys2Proof.Machine.Architecture

/-! Cells. -/

/-- A slot that is not armed does not fire. -/
theorem checkSlot_of_unarmed {s : State} {w : Nat} (h : s.flag (Reg.SYN_W_CTRL_ARMED w) = false) : checkSlot w s = s := by
  simp [checkSlot, slotMet, h]

/-- A cell that changes with no slot armed fires none. -/
theorem checkSlots_wr_cell {s : State} {c : Nat} (_hc : c < 32768)
    (idle : ∀ w, w < 256 → s.flag (Reg.SYN_W_CTRL_ARMED w) = false) (v : Nat) :
    checkSlots (s.wr (Reg.SYN_CELL c) v) = s.wr (Reg.SYN_CELL c) v := by
  refine iter_keeps (P := fun t => t = s.wr (Reg.SYN_CELL c) v) _ _ (fun w t hw ht => ?_) _ rfl
  have apart : (Reg.SYN_CELL c).key ≠ (Reg.SYN_W_CTRL_ARMED w).key := by
    simp only [Fld.key, Reg.SYN_CELL, Reg.SYN_W_CTRL_ARMED]
    omega
  subst ht
  refine checkSlot_of_unarmed ?_
  rw [State.flag, rd_wr_ne s v apart]
  exact idle w hw

/-- The commit of a cell's pair: its holding register is cleared and the cell takes the value (R16). -/
def cellCommitted (s : State) (off c v : Nat) : State := (s.clearHold off).wr (Reg.SYN_CELL c) v

theorem cellCommitted_effect {s t : State} {off c v : Nat} (ht : t = cellCommitted s off c v) :
    t.rd (Reg.SYN_CELL c) = v % 2 ^ 64 ∧ SMap.get (fun _ => 0) t.hold off = 0 ∧ s.regsKept t [Reg.SYN_CELL c] ∧
    t = { s with regs := t.regs, hold := t.hold } ∧ s.memKept t := by
  subst ht
  exact ⟨rd_wr_same _ _ v, SMap.get_set_same _ _ off 0, regsKept_wr (s.clearHold off) _ v, rfl, memKept_of_dram rfl⟩

section
variable {s : State} {c : Nat} (hc : c < 32768) (idle : ∀ w, w < 256 → s.flag (Reg.SYN_W_CTRL_ARMED w) = false)
include hc idle

theorem exec_synCellSet_of_unarmed (hok : s.hostOk (Reg.SYN_CELL c).off = true) (v : Nat) :
    exec (.synCellSet c v) s = .next (cellCommitted s (Reg.SYN_CELL c).off c v) :=
  congrArg Host.Outcome.next ((host_of_ok hok _).trans (checkSlots_wr_cell (s := s.clearHold _) hc idle v))

theorem exec_synAdd_of_unarmed (hok : s.hostOk (Reg.SYN_ADD c).off = true) (v : Nat) :
    exec (.synAdd c v) s =
      .next (cellCommitted s (Reg.SYN_ADD c).off c (min (s.rd (Reg.SYN_CELL c) + v) (2 ^ 64 - 1))) :=
  congrArg Host.Outcome.next ((host_of_ok hok _).trans (checkSlots_wr_cell (s := s.clearHold _) hc idle _))

end

/-! Wait slots. -/

/-- The fields of a slot's control register. -/
def slotFields (w : Nat) : List Fld :=
  [Reg.SYN_W_CTRL_ARMED w, Reg.SYN_W_CTRL_FIRED w, Reg.SYN_W_CTRL_VECTOR w, Reg.SYN_W_CTRL_CELL w]

/-- They lie in one register. -/
theorem key_slotFields {w : Nat} : ∀ f ∈ slotFields w,
    (0x490000 + w * 0x20) * 64 ≤ f.key ∧ f.key < (0x490000 + w * 0x20) * 64 + 32 := by
  simp only [slotFields, List.forall_mem_cons, Fld.key, Reg.SYN_W_CTRL_ARMED, Reg.SYN_W_CTRL_FIRED,
    Reg.SYN_W_CTRL_VECTOR, Reg.SYN_W_CTRL_CELL, List.not_mem_nil, false_implies, implies_true, and_true]
  omega

/-- Every field outside that register reads as before. -/
theorem rd_of_slotFields {s t : State} {w : Nat} (h : s.regsKept t (slotFields w)) {g : Fld}
    (hg : g.key < (0x490000 + w * 0x20) * 64 ∨ (0x490000 + w * 0x20) * 64 + 32 ≤ g.key) : t.rd g = s.rd g := by
  refine h g fun f hf => ?_
  obtain ⟨hlo, hhi⟩ := key_slotFields f hf
  omega

/-- What a write of a slot's control register stores, before its slot is compared. -/
def slotStored (s : State) (w word : Nat) : State :=
  (if bitOf word 30 then s.wr (Reg.SYN_W_CTRL_FIRED w) 0 else s).wrs
    [(Reg.SYN_W_CTRL_ARMED w, bitsOf word 31 1), (Reg.SYN_W_CTRL_VECTOR w, bitsOf word 16 11),
      (Reg.SYN_W_CTRL_CELL w, bitsOf word 0 15)]

theorem exec_waitSlotArm {s : State} {w : Nat} (hok : s.hostOk (Reg.SYN_W_CTRL_ARMED w).off = true) (word : Nat) :
    exec (.waitSlotArm w word) s = .next (checkSlot w (slotStored s w word)) :=
  congrArg Host.Outcome.next (host_of_ok hok _)

theorem slotStored_frame (s : State) (w word : Nat) :
    s.onlyRegs (slotStored s w word) ∧ s.regsKept (slotStored s w word) (slotFields w) := by
  unfold slotStored
  have stored (t : State) : t.regsKept (t.wrs [(Reg.SYN_W_CTRL_ARMED w, bitsOf word 31 1),
      (Reg.SYN_W_CTRL_VECTOR w, bitsOf word 16 11), (Reg.SYN_W_CTRL_CELL w, bitsOf word 0 15)]) (slotFields w) :=
    regsKept_mono (by simp [slotFields]) (regsKept_wrs t _)
  split
  · exact ⟨onlyRegs_trans (onlyRegs_wr s _ 0) (onlyRegs_wrs _ _),
      regsKept_trans (regsKept_mono (by simp [slotFields]) (regsKept_wr s _ 0)) (stored _)⟩
  · exact ⟨onlyRegs_wrs s _, stored s⟩

/-- The three fields of the word are stored. -/
theorem rd_slotStored (s : State) (w word : Nat) :
    (slotStored s w word).rd (Reg.SYN_W_CTRL_ARMED w) = bitsOf word 31 1 ∧
    (slotStored s w word).rd (Reg.SYN_W_CTRL_VECTOR w) = bitsOf word 16 11 ∧
    (slotStored s w word).rd (Reg.SYN_W_CTRL_CELL w) = bitsOf word 0 15 := by
  have distinct : ([(Reg.SYN_W_CTRL_ARMED w, bitsOf word 31 1), (Reg.SYN_W_CTRL_VECTOR w, bitsOf word 16 11),
      (Reg.SYN_W_CTRL_CELL w, bitsOf word 0 15)].map (·.1.key)).Nodup := by
    simp [Fld.key, Reg.SYN_W_CTRL_ARMED, Reg.SYN_W_CTRL_VECTOR, Reg.SYN_W_CTRL_CELL]
  have fits (lo n : Nat) : bitsOf word lo n < 2 ^ n := Nat.mod_lt _ (Nat.two_pow_pos n)
  exact ⟨rd_wrs_mem_of_lt (by simp) distinct (fits 31 1) _, rd_wrs_mem_of_lt (by simp) distinct (fits 16 11) _,
    rd_wrs_mem_of_lt (by simp) distinct (fits 0 15) _⟩

section
variable {s : State} {w word : Nat} (hw : w < 256) (hword : bitOf word 31 = true)
include hw hword

/-- A slot that a word arms is met where the word's cell holds VALUE or more. -/
theorem slotMet_slotStored : slotMet (slotStored s w word) w =
    decide (s.rd (Reg.SYN_W_VALUE w) ≤ s.rd (Reg.SYN_CELL (bitsOf word 0 15))) := by
  obtain ⟨harmed, _, hcell⟩ := rd_slotStored s w word
  have kept := (slotStored_frame s w word).2
  have armed : bitsOf word 31 1 = 1 := beq_iff_eq.mp hword
  have cell : bitsOf word 0 15 < 2 ^ 15 := Nat.mod_lt _ (by decide)
  have value : (slotStored s w word).rd (Reg.SYN_W_VALUE w) = s.rd (Reg.SYN_W_VALUE w) :=
    rd_of_slotFields kept (by simp only [Fld.key, Reg.SYN_W_VALUE]; omega)
  have held : (slotStored s w word).rd (Reg.SYN_CELL (bitsOf word 0 15)) = s.rd (Reg.SYN_CELL (bitsOf word 0 15)) :=
    rd_of_slotFields kept (by simp only [Fld.key, Reg.SYN_CELL]; omega)
  simp [slotMet, State.flag, harmed, hcell, armed, value, held]

/-- Below VALUE the slot stays armed. -/
theorem exec_waitSlotArm_of_below (hok : s.hostOk (Reg.SYN_W_CTRL_ARMED w).off = true)
    (below : s.rd (Reg.SYN_CELL (bitsOf word 0 15)) < s.rd (Reg.SYN_W_VALUE w)) :
    exec (.waitSlotArm w word) s = .next (slotStored s w word) := by
  rw [exec_waitSlotArm hok, checkSlot, slotMet_slotStored hw hword, decide_eq_false (Nat.not_le.mpr below),
    if_neg Bool.false_ne_true]

/-- At VALUE it fires at once. -/
theorem exec_waitSlotArm_of_met (hok : s.hostOk (Reg.SYN_W_CTRL_ARMED w).off = true)
    (met : s.rd (Reg.SYN_W_VALUE w) ≤ s.rd (Reg.SYN_CELL (bitsOf word 0 15))) :
    exec (.waitSlotArm w word) s = .next (fireSlot (slotStored s w word) w) := by
  rw [exec_waitSlotArm hok, checkSlot, slotMet_slotStored hw hword, decide_eq_true met, if_pos rfl]

end

/-- A slot that has fired, its message still to be sent. -/
def slotFired (s : State) (w word : Nat) : State :=
  ((slotStored s w word).wr (Reg.SYN_W_CTRL_FIRED w) 1).wr (Reg.SYN_W_CTRL_ARMED w) 0

theorem fireSlot_slotStored (s : State) (w word : Nat) :
    fireSlot (slotStored s w word) w = (slotFired s w word).msix (bitsOf word 16 11) :=
  congrArg (slotFired s w word).msix (rd_slotStored s w word).2.1

theorem slotFired_frame (s : State) (w word : Nat) :
    s.onlyRegs (slotFired s w word) ∧ s.regsKept (slotFired s w word) (slotFields w) := by
  obtain ⟨only, kept⟩ := slotStored_frame s w word
  exact ⟨onlyRegs_trans only rfl, regsKept_trans kept
    (regsKept_trans (regsKept_mono (by simp [slotFields]) (regsKept_wr _ _ 1))
      (regsKept_mono (by simp [slotFields]) (regsKept_wr _ _ 0)))⟩

theorem rd_slotFired (s : State) (w word : Nat) : (slotFired s w word).rd (Reg.SYN_W_CTRL_ARMED w) = 0 ∧
    (slotFired s w word).rd (Reg.SYN_W_CTRL_FIRED w) = 1 := by
  refine ⟨rd_wr_same _ _ 0, ?_⟩
  rw [slotFired, rd_wr_ne _ _ (by simp [Fld.key, Reg.SYN_W_CTRL_ARMED, Reg.SYN_W_CTRL_FIRED]), rd_wr_same]
  rfl

/-- The vector of a slot that fires is as open as before, and its message is the table's. -/
theorem msix_slotFired {s : State} {w word : Nat} (hw : w < 256) (hs : Sending s)
    (hopen : s.msixOpen (bitsOf word 16 11) = true) :
    (slotFired s w word).msix (bitsOf word 16 11) =
      sendAll (slotFired s w word) [vectorMessage s (bitsOf word 16 11)] := by
  obtain ⟨only, kept⟩ := slotFired_frame s w word
  have vector : bitsOf word 16 11 < 2 ^ 11 := Nat.mod_lt _ (by decide)
  have chip : (slotFired s w word).chip = s.chip := by rw [only]
  have safe : (slotFired s w word).safe = s.safe := by
    rw [State.safe, State.flag, rd_of_slotFields kept]
    · rfl
    · simp only [Fld.key, Reg.ERR_SAFE_SAFE]
      omega
  have table {g : Fld} (hg : g.key < 0x308000 * 64) : (slotFired s w word).rd g = s.rd g :=
    rd_of_slotFields kept (by omega)
  have mask : (slotFired s w word).msixOpen (bitsOf word 16 11) = s.msixOpen (bitsOf word 16 11) := by
    rw [State.msixOpen, State.msixOpen, State.flag, State.flag, chip, table]
    simp only [Fld.key, Reg.MSIX_CTRL_MASK]
    omega
  have message : vectorMessage (slotFired s w word) (bitsOf word 16 11) = vectorMessage s (bitsOf word 16 11) := by
    rw [vectorMessage, vectorMessage, table, table, table] <;>
      simp only [Fld.key, Reg.MSIX_ADDR_LO_ADDR, Reg.MSIX_ADDR_HI_ADDR, Reg.MSIX_DATA_DATA] <;> omega
  rw [msix_of_open (mask.trans hopen) (by rwa [Sending, chip, safe]), message]

/-- Settles O2: a cell's commit meets no armed slot; an armed slot is compared on what its word stores. -/
theorem syncCellsAndWaitSlots : Obligations.SyncCellsAndWaitSlots := by
  unfold Obligations.SyncCellsAndWaitSlots
  refine ⟨?set, ?add, ?below, ?met⟩
  case set =>
    intro c v s hc hok idle
    exact ⟨_, exec_synCellSet_of_unarmed hc idle hok v, cellCommitted_effect rfl⟩
  case add =>
    intro c v s hc hok idle
    obtain ⟨hcell, rest⟩ := cellCommitted_effect (s := s) (off := (Reg.SYN_ADD c).off) (c := c)
      (v := min (s.rd (Reg.SYN_CELL c) + v) (2 ^ 64 - 1)) rfl
    exact ⟨_, exec_synAdd_of_unarmed hc idle hok v, hcell.trans (Nat.mod_eq_of_lt (by omega)), rest⟩
  case below =>
    intro w word s hw hok hword below
    obtain ⟨harmed, hvector, hcell⟩ := rd_slotStored s w word
    obtain ⟨only, kept⟩ := slotStored_frame s w word
    exact ⟨_, exec_waitSlotArm_of_below hw hword hok below, harmed.trans (beq_iff_eq.mp hword), hvector, hcell, kept, only⟩
  case met =>
    intro w word s hw hok hword met hsafe hopen
    obtain ⟨harmed, hfired⟩ := rd_slotFired s w word
    obtain ⟨only, -⟩ := slotFired_frame s w word
    have sent := msix_slotFired hw (sending_of_hostOk hok hsafe) hopen
    refine ⟨_, (exec_waitSlotArm_of_met hw hword hok met).trans
      (congrArg _ ((fireSlot_slotStored s w word).trans sent)), harmed, hfired, ?_, ?_, memKept_of_dram ?_⟩
    · rw [sendAll, only]
      rfl
    · rw [State.onlyRegsSent, sendAll, only]
    · rw [sendAll, only]

end Sys2Proof.Machine.HostInterface
end

section
/-! Doorbells, queue commands and halts of request and completion queues (R286 to R288, R293). -/

namespace Sys2Proof.Machine.HostInterface

open Sys2Proof.Machine.Architecture

/-! Doorbells. -/

theorem exec_rqDoorbell {s : State} (h : s.barOk = true) (q tail : Nat) :
    exec (.rqDoorbell q tail) s = .next (rqDoorbell s q tail) :=
  congrArg Host.Outcome.next (doorbell_of_ok h _)

theorem exec_cqHeadDoorbell {s : State} (h : s.barOk = true) (c head : Nat) :
    exec (.cqHeadDoorbell c head) s = .next (cqHead s c head) :=
  congrArg Host.Outcome.next (doorbell_of_ok h _)

/-- A discarded doorbell with DB_DROP set already is counted only (R287, R298). -/
theorem dbDrop_of_noted {s : State} (h : s.flag Reg.HIF_IRQ_STATUS_DB_DROP = true) :
    dbDrop s = s.inc Reg.HIF_DB_DROPPED := by
  have noted : (s.inc Reg.HIF_DB_DROPPED).flag Reg.HIF_IRQ_STATUS_DB_DROP = true := by
    rw [State.flag, State.inc, State.add, rd_wr_ne _ _ (by decide)]
    exact h
  exact raise_of_set noted 0 _

theorem rqDoorbell_of_unconfigured {s : State} {q : Nat} (h : s.rq q = none) (tail : Nat) :
    rqDoorbell s q tail = dbDrop s := by
  simp only [rqDoorbell, h]

section
variable {s : State} {q tail : Nat} {x : RqConf} (hx : s.rq q = some x) (htail : tail < 2 ^ 32)
  (takes : s.rd (Reg.HIF_RQ_STATUS_STATE q) = 1 ∨ s.rd (Reg.HIF_RQ_STATUS_STATE q) = 4)
include hx htail takes

/-- A doorbell equal to TAIL has no effect. -/
theorem rqDoorbell_of_same (same : tail = s.rd (Reg.HIF_RQ_TAIL_TAIL q)) : rqDoorbell s q tail = s := by
  have open_ : ¬ (rqState s q ≠ 1 ∧ rqState s q ≠ 4) := by
    rw [rqState]
    omega
  simp only [rqDoorbell, hx]
  rw [if_neg open_, if_pos ((Nat.mod_eq_of_lt htail).trans same)]

/-- A new TAIL within the ring is taken, with the doorbell's time for the descriptors that it covers. -/
theorem rqDoorbell_of_within (new : tail ≠ s.rd (Reg.HIF_RQ_TAIL_TAIL q))
    (within : (tail + 2 ^ 32 - s.rd (Reg.HIF_RQ_HEAD_HEAD q)) % 2 ^ 32 ≤ 2 ^ x.sizeLog2) :
    rqDoorbell s q tail = (s.wr (Reg.HIF_RQ_TAIL_TAIL q) tail).setRq q
      (some { x with rung := x.rung ++ [(tail, s.timeUs * 375)] }) := by
  have open_ : ¬ (rqState s q ≠ 1 ∧ rqState s q ≠ 4) := by
    rw [rqState]
    omega
  simp only [rqDoorbell, hx, Nat.mod_eq_of_lt htail]
  rw [if_neg open_, if_neg new, if_neg (Nat.not_lt.mpr within)]

end

/-- A head within the records written, on a queue that holds no record back, is taken. -/
theorem cqHead_of_within {s : State} {c head : Nat} {x : CqConf} (hx : s.cq c = some x) (hheld : x.held = [])
    (hlo : x.head ≤ head) (hhi : head ≤ x.written) (hspan : head < x.head + 2 ^ 32) :
    cqHead s c head = s.setCq c (some { x with head := head }) := by
  have advance : (head % 2 ^ 32 + 2 ^ 32 - x.head % 2 ^ 32) % 2 ^ 32 = head - x.head := by omega
  have reached : x.head + (head - x.head) = head := by omega
  simp only [cqHead, hx, advance, reached]
  rw [if_neg (by omega), hheld]
  rfl

/-- Settles O3: a queue takes or drops a doorbell by its configuration, its state and its pointers. -/
theorem doorbells : Obligations.Doorbells := by
  unfold Obligations.Doorbells
  refine ⟨?taken, ?same, ?dropped, ?head⟩
  case taken =>
    intro q tail x s hok hx htail takes new within
    refine ⟨_, (exec_rqDoorbell hok q tail).trans (congrArg _ (rqDoorbell_of_within hx htail takes new within)), ?_,
      rq_setRq_same _ q _, regsKept_wr s _ tail, rfl, fun r hr => rq_setRq_ne _ _ hr.symm⟩
    exact (rd_wr_same s _ tail).trans (Nat.mod_eq_of_lt htail)
  case same =>
    intro q tail x s hok hx htail takes same
    rw [exec_rqDoorbell hok, rqDoorbell_of_same hx htail takes same]
  case dropped =>
    intro q tail s hok hx noted
    exact ⟨_, (exec_rqDoorbell hok q tail).trans
        (congrArg _ ((rqDoorbell_of_unconfigured hx tail).trans (dbDrop_of_noted noted))),
      rd_inc_same s _, regsKept_inc s _, rfl⟩
  case head =>
    intro c head x s hok hx hheld hlo hhi hspan
    exact ⟨_, (exec_cqHeadDoorbell hok c head).trans (congrArg _ (cqHead_of_within hx hheld hlo hhi hspan)),
      cq_setCq_same s c _, rfl, fun d hd => cq_setCq_ne s _ hd.symm⟩

/-! Commands of the completion queues. -/

/-- The completion queue `c` set to `y` and registers written, by the operation `op` of HIF_CQ_CMD. -/
def cqAfter (s : State) (c op : Nat) (y : Option CqConf) (l : List (Fld × Nat)) : State :=
  ((s.wr Reg.HIF_CQ_CMD_OP op).setCq c y).wrs l

/-- With its code stored, an operation has set its queue, and nothing else but registers has changed. -/
theorem cqAfter_effect {s t : State} {c op : Nat} {y : Option CqConf} {l : List (Fld × Nat)}
    (ht : t = (cqAfter s c op y l).wr (Reg.HIF_CQ_STATUS_CODE c) 0) :
    t.rd (Reg.HIF_CQ_STATUS_CODE c) = 0 ∧ t.cq c = y ∧ t = { s with regs := t.regs, cqs := t.cqs } ∧
    (∀ d, d ≠ c → t.cq d = s.cq d) := by
  obtain ⟨r, hr⟩ := wrs_shape l ((s.wr Reg.HIF_CQ_CMD_OP op).setCq c y)
  rw [cqAfter, hr] at ht
  subst ht
  exact ⟨rd_wr_same _ _ 0, cq_setCq_same s c y, rfl, fun d hd => cq_setCq_ne s y hd.symm⟩

/-- What an operation of HIF_CQ_CMD does to the selected queue: its code, and the state. -/
def cqOp (s : State) (c op : Nat) : Nat × State :=
  if op = 0 then cqCreate s c else if op = 1 then cqDelete s c else if op = 2 then cqApply s c else (Code.HIF_E_QUEUE, s)

/-- With Keeper ready the operation is performed, and CODE takes its code. -/
theorem cqCmd_of_ready {s : State} (h : s.ready = true) (op : Nat) :
    cqCmd s op = (cqOp (s.wr Reg.HIF_CQ_CMD_OP op) (s.rd Reg.HIF_CQ_SEL_QUEUE) op).2.wr
      (Reg.HIF_CQ_STATUS_CODE (s.rd Reg.HIF_CQ_SEL_QUEUE))
      (cqOp (s.wr Reg.HIF_CQ_CMD_OP op) (s.rd Reg.HIF_CQ_SEL_QUEUE) op).1 := by
  have selected : (s.wr Reg.HIF_CQ_CMD_OP op).rd Reg.HIF_CQ_SEL_QUEUE = s.rd Reg.HIF_CQ_SEL_QUEUE :=
    rd_wr_ne s op (by decide)
  rw [cqCmd, selected]
  exact keeper_of_ready ((ready_wr (by decide) s op).trans h) _ _

/-- The four commands, each on its own operation. -/
theorem exec_cqCmd {s : State} (hok : s.hostOk Reg.HIF_CQ_CMD_OP.off = true) :
    exec .cqCreate s = .next (cqCmd s 0) ∧ exec .cqDelete s = .next (cqCmd s 1) ∧
    exec .cqApply s = .next (cqCmd s 2) ∧ exec .cqCmdRefused s = .next (cqCmd s 3) :=
  have reached (op : Nat) := congrArg Host.Outcome.next (host_of_ok hok (fun u => cqCmd u op))
  ⟨reached 0, reached 1, reached 2, reached 3⟩

/-- The operation's own field is no part of a queue's configuration. -/
theorem cqConfOf_wr_op (s : State) (op c : Nat) : cqConfOf (s.wr Reg.HIF_CQ_CMD_OP op) c = cqConfOf s c := by
  have home {g : Fld} (hg : 0x300000 * 64 ≤ g.key) : (s.wr Reg.HIF_CQ_CMD_OP op).rd g = s.rd g :=
    rd_wr_below (by decide) hg s op
  simp only [cqConfOf, State.flag]
  rw [home, home, home, home, home, home] <;>
    simp only [Fld.key, Reg.HIF_CQ_BASE, Reg.HIF_CQ_CFG_SIZE_LOG2, Reg.HIF_CQ_CFG_VECTOR, Reg.HIF_CQ_CFG_IRQ_EN,
      Reg.HIF_CQ_CFG_COAL_COUNT, Reg.HIF_CQ_CFG_COAL_US] <;> omega

theorem cqOp_create {s : State} {c : Nat} (hfree : s.cq c = none) (hlo : 4 ≤ s.rd (Reg.HIF_CQ_CFG_SIZE_LOG2 c))
    (hhi : s.rd (Reg.HIF_CQ_CFG_SIZE_LOG2 c) ≤ 16) (op : Nat) :
    cqOp (s.wr Reg.HIF_CQ_CMD_OP op) c 0 =
      (0, cqAfter s c op (some (cqConfOf s c)) [(Reg.HIF_CQ_STATUS_ENABLED c, 1)]) := by
  have free : (s.wr Reg.HIF_CQ_CMD_OP op).cq c = none := hfree
  have size : sizeOk (cqConfOf s c).sizeLog2 = true := by simp [sizeOk, cqConfOf, hlo, hhi]
  simp [cqOp, cqCreate, cqConfOf_wr_op, free, size, cqAfter, State.wrs]

theorem cqOp_delete {s : State} {c : Nat} {x : CqConf} (hx : s.cq c = some x) (hused : cqUsed s c = false) (op : Nat) :
    cqOp (s.wr Reg.HIF_CQ_CMD_OP op) c 1 =
      (0, cqAfter s c op none [(Reg.HIF_CQ_STATUS_ENABLED c, 0), (Reg.HIF_CQ_STATUS_HELD c, 0)]) := by
  have enabled : (s.wr Reg.HIF_CQ_CMD_OP op).cq c = some x := hx
  have unused : cqUsed (s.wr Reg.HIF_CQ_CMD_OP op) c = false := hused
  simp [cqOp, cqDelete, enabled, unused, cqAfter]

theorem cqOp_apply {s : State} {c : Nat} {x : CqConf} (hx : s.cq c = some x) (op : Nat) :
    cqOp (s.wr Reg.HIF_CQ_CMD_OP op) c 2 = (0, cqAfter s c op (some { x with
      vector := (cqConfOf s c).vector, irqEn := (cqConfOf s c).irqEn, coalCount := (cqConfOf s c).coalCount,
      coalUs := (cqConfOf s c).coalUs }) []) := by
  have enabled : (s.wr Reg.HIF_CQ_CMD_OP op).cq c = some x := hx
  simp [cqOp, cqApply, cqConfOf_wr_op, enabled, cqAfter, State.wrs]

/-- ENABLED reads what a create or a delete has written there, once CODE is written. -/
theorem rd_cqAfter_enabled (s : State) (c op : Nat) (y : Option CqConf) {v : Nat} (hv : v < 2) {l : List (Fld × Nat)}
    (hl : l = [(Reg.HIF_CQ_STATUS_ENABLED c, v)] ∨
      l = [(Reg.HIF_CQ_STATUS_ENABLED c, v), (Reg.HIF_CQ_STATUS_HELD c, 0)]) :
    ((cqAfter s c op y l).wr (Reg.HIF_CQ_STATUS_CODE c) 0).rd (Reg.HIF_CQ_STATUS_ENABLED c) = v := by
  have distinct : (l.map (·.1.key)).Nodup := by
    rcases hl with rfl | rfl <;> simp [Fld.key, Reg.HIF_CQ_STATUS_HELD, Reg.HIF_CQ_STATUS_ENABLED]
  have written : (Reg.HIF_CQ_STATUS_ENABLED c, v) ∈ l := by
    rcases hl with rfl | rfl <;> simp
  rw [rd_wr_ne _ 0 (by simp [Fld.key, Reg.HIF_CQ_STATUS_CODE, Reg.HIF_CQ_STATUS_ENABLED])]
  exact rd_wrs_mem_of_lt written distinct hv _

/-! Commands of the request queues. -/

/-- The request queue `q` set to `y` and registers written, by the operation `op` of HIF_RQ_CMD. -/
def rqAfter (s : State) (q op : Nat) (y : Option RqConf) (l : List (Fld × Nat)) : State :=
  ((s.wr Reg.HIF_RQ_CMD_OP op).setRq q y).wrs l

/-- Likewise for an operation of a request queue. -/
theorem rqAfter_effect {s t : State} {q op : Nat} {y : Option RqConf} {l : List (Fld × Nat)}
    (ht : t = (rqAfter s q op y l).wr (Reg.HIF_RQ_STATUS_CODE q) 0) :
    t.rd (Reg.HIF_RQ_STATUS_CODE q) = 0 ∧ t.rq q = y ∧ t = { s with regs := t.regs, rqs := t.rqs } ∧
    (∀ r, r ≠ q → t.rq r = s.rq r) := by
  obtain ⟨r, hr⟩ := wrs_shape l ((s.wr Reg.HIF_RQ_CMD_OP op).setRq q y)
  rw [rqAfter, hr] at ht
  subst ht
  exact ⟨rd_wr_same _ _ 0, rq_setRq_same s q y, rfl, fun r hr => rq_setRq_ne s y hr.symm⟩

/-- What an operation of HIF_RQ_CMD does to the selected queue: its code, and the state. -/
def rqOp (s : State) (q op : Nat) : Nat × State :=
  if op = 0 then rqCreate s q else if op = 1 then rqDelete s q else if op = 2 then rqResume s q else (Code.HIF_E_QUEUE, s)

theorem rqCmd_of_ready {s : State} (h : s.ready = true) (op : Nat) :
    rqCmd s op = (rqOp (s.wr Reg.HIF_RQ_CMD_OP op) (s.rd Reg.HIF_RQ_SEL_QUEUE) op).2.wr
      (Reg.HIF_RQ_STATUS_CODE (s.rd Reg.HIF_RQ_SEL_QUEUE))
      (rqOp (s.wr Reg.HIF_RQ_CMD_OP op) (s.rd Reg.HIF_RQ_SEL_QUEUE) op).1 := by
  have selected : (s.wr Reg.HIF_RQ_CMD_OP op).rd Reg.HIF_RQ_SEL_QUEUE = s.rd Reg.HIF_RQ_SEL_QUEUE :=
    rd_wr_ne s op (by decide)
  rw [rqCmd, selected]
  exact keeper_of_ready ((ready_wr (by decide) s op).trans h) _ _

theorem exec_rqCmd {s : State} (hok : s.hostOk Reg.HIF_RQ_CMD_OP.off = true) :
    exec .rqCreate s = .next (rqCmd s 0) ∧ exec .rqDelete s = .next (rqCmd s 1) ∧
    exec .rqResume s = .next (rqCmd s 2) ∧ exec .rqCmdRefused s = .next (rqCmd s 3) :=
  have reached (op : Nat) := congrArg Host.Outcome.next (host_of_ok hok (fun u => rqCmd u op))
  ⟨reached 0, reached 1, reached 2, reached 3⟩

/-- The operation's own field is no other field of a queue, nor a context's state. -/
theorem rd_wr_rqOp {g : Fld} (hg : 0x300000 * 64 ≤ g.key) (s : State) (op : Nat) :
    (s.wr Reg.HIF_RQ_CMD_OP op).rd g = s.rd g :=
  rd_wr_below (by decide) hg s op

/-- The fields of a request queue lie above the operation's. -/
theorem rqState_wr_op (s : State) (op q : Nat) : rqState (s.wr Reg.HIF_RQ_CMD_OP op) q = s.rd (Reg.HIF_RQ_STATUS_STATE q) :=
  rd_wr_rqOp (by simp only [Fld.key, Reg.HIF_RQ_STATUS_STATE]; omega) s op

theorem ctxState_wr_rqOp (s : State) (op c : Nat) :
    (s.wr Reg.HIF_RQ_CMD_OP op).rd (Reg.SEC_CTX_STATE c) = s.rd (Reg.SEC_CTX_STATE c) :=
  rd_wr_rqOp (by simp only [Fld.key, Reg.SEC_CTX_STATE]; omega) s op

/-- What the selected request queue's CFG and BASE give a create. -/
def rqConfOf (s : State) (q : Nat) : RqConf :=
  { base := s.rd (Reg.HIF_RQ_BASE q) / 64 * 64, sizeLog2 := s.rd (Reg.HIF_RQ_CFG_SIZE_LOG2 q),
    ctx := s.rd (Reg.HIF_RQ_CFG_CONTEXT q), cq := s.rd (Reg.HIF_RQ_CFG_CQ q) }

/-- What a create writes to its queue's registers. -/
def rqFresh (q : Nat) : List (Fld × Nat) :=
  [(Reg.HIF_RQ_STATUS_STATE q, 1), (Reg.HIF_RQ_HEAD_HEAD q, 0), (Reg.HIF_RQ_TAIL_TAIL q, 0)]

theorem rqOp_create {s : State} {q : Nat} (hstate : s.rd (Reg.HIF_RQ_STATUS_STATE q) = 0)
    (hlo : 4 ≤ s.rd (Reg.HIF_RQ_CFG_SIZE_LOG2 q)) (hhi : s.rd (Reg.HIF_RQ_CFG_SIZE_LOG2 q) ≤ 16)
    (hcq : (s.cq (s.rd (Reg.HIF_RQ_CFG_CQ q))).isSome = true)
    (hctx : s.rd (Reg.SEC_CTX_STATE (s.rd (Reg.HIF_RQ_CFG_CONTEXT q))) = 1 ∨
      s.rd (Reg.SEC_CTX_STATE (s.rd (Reg.HIF_RQ_CFG_CONTEXT q))) = 2) (op : Nat) :
    rqOp (s.wr Reg.HIF_RQ_CMD_OP op) q 0 =
      (0, rqAfter s q op (some (rqConfOf s q)) (rqFresh q)) := by
  have cfg : (s.wr Reg.HIF_RQ_CMD_OP op).rd (Reg.HIF_RQ_CFG_CQ q) = s.rd (Reg.HIF_RQ_CFG_CQ q) ∧
      (s.wr Reg.HIF_RQ_CMD_OP op).rd (Reg.HIF_RQ_CFG_CONTEXT q) = s.rd (Reg.HIF_RQ_CFG_CONTEXT q) ∧
      (s.wr Reg.HIF_RQ_CMD_OP op).rd (Reg.HIF_RQ_CFG_SIZE_LOG2 q) = s.rd (Reg.HIF_RQ_CFG_SIZE_LOG2 q) ∧
      (s.wr Reg.HIF_RQ_CMD_OP op).rd (Reg.HIF_RQ_BASE q) = s.rd (Reg.HIF_RQ_BASE q) := by
    refine ⟨rd_wr_rqOp ?_ s op, rd_wr_rqOp ?_ s op, rd_wr_rqOp ?_ s op, rd_wr_rqOp ?_ s op⟩ <;>
      simp only [Fld.key, Reg.HIF_RQ_CFG_CQ, Reg.HIF_RQ_CFG_CONTEXT, Reg.HIF_RQ_CFG_SIZE_LOG2, Reg.HIF_RQ_BASE] <;> omega
  obtain ⟨cq, context, size, base⟩ := cfg
  have good : ¬ (rqState (s.wr Reg.HIF_RQ_CMD_OP op) q ≠ 0 ∨ sizeOk (s.rd (Reg.HIF_RQ_CFG_SIZE_LOG2 q)) = false ∨
      ((s.wr Reg.HIF_RQ_CMD_OP op).cq (s.rd (Reg.HIF_RQ_CFG_CQ q))).isNone = true) := by
    rw [rqState_wr_op, hstate]
    have enabled : ((s.wr Reg.HIF_RQ_CMD_OP op).cq (s.rd (Reg.HIF_RQ_CFG_CQ q))).isSome = true := hcq
    simp [sizeOk, hlo, hhi, Option.isSome_iff_ne_none.mp enabled]
  rw [rqOp, if_pos rfl, rqCreate]
  rw [cq, context, size, base, if_neg good, ctxState_wr_rqOp, if_neg (by omega)]
  rfl

theorem rqOp_delete {s : State} {q : Nat} (hstate : s.rd (Reg.HIF_RQ_STATUS_STATE q) ≠ 0) (op : Nat) :
    rqOp (s.wr Reg.HIF_RQ_CMD_OP op) q 1 = (0, if rqBusy s q then
      (s.wr Reg.HIF_RQ_CMD_OP op).wr (Reg.HIF_RQ_STATUS_STATE q) 3 else rqDisable (s.wr Reg.HIF_RQ_CMD_OP op) q) := by
  have busy : rqBusy (s.wr Reg.HIF_RQ_CMD_OP op) q = rqBusy s q := rfl
  rw [rqOp, if_neg (by decide), if_pos rfl, rqDelete, rqState_wr_op, if_neg hstate, busy]
  split <;> rfl

theorem rqOp_resume {s : State} {q : Nat} {x : RqConf} (hx : s.rq q = some x)
    (hstate : s.rd (Reg.HIF_RQ_STATUS_STATE q) = 2)
    (hctx : s.rd (Reg.SEC_CTX_STATE x.ctx) = 1 ∨ s.rd (Reg.SEC_CTX_STATE x.ctx) = 2) (op : Nat) :
    rqOp (s.wr Reg.HIF_RQ_CMD_OP op) q 2 =
      (0, (s.wr Reg.HIF_RQ_CMD_OP op).wr (Reg.HIF_RQ_STATUS_STATE q) (if rqWaits s q then 4 else 1)) := by
  have queue : (s.wr Reg.HIF_RQ_CMD_OP op).rq q = some x := hx
  have waits : rqWaits (s.wr Reg.HIF_RQ_CMD_OP op) q = rqWaits s q := rfl
  rw [rqOp, if_neg (by decide), if_neg (by decide), if_pos rfl]
  simp only [rqResume, queue]
  rw [rqState_wr_op, ctxState_wr_rqOp, if_neg (by omega), if_neg (by omega), waits]

/-- CODE and what a create writes are different fields. -/
theorem rqFresh_distinct (q : Nat) :
    ((rqFresh q).map (·.1.key)).Nodup ∧ ∀ x ∈ rqFresh q, (Reg.HIF_RQ_STATUS_CODE q).key ≠ x.1.key := by
  refine ⟨?_, ?_⟩
  · simp [rqFresh, Fld.key, Reg.HIF_RQ_STATUS_STATE, Reg.HIF_RQ_HEAD_HEAD, Reg.HIF_RQ_TAIL_TAIL]
    omega
  · simp only [rqFresh, List.forall_mem_cons, Fld.key, Reg.HIF_RQ_STATUS_CODE, Reg.HIF_RQ_STATUS_STATE,
      Reg.HIF_RQ_HEAD_HEAD, Reg.HIF_RQ_TAIL_TAIL, List.not_mem_nil, false_implies, implies_true, and_true]
    omega

/-- What the registers of a created queue read once its code is written. -/
theorem rd_rqFresh (s : State) (q : Nat) :
    ((s.wrs (rqFresh q)).wr (Reg.HIF_RQ_STATUS_CODE q) 0).rd (Reg.HIF_RQ_STATUS_STATE q) = 1 ∧
    ((s.wrs (rqFresh q)).wr (Reg.HIF_RQ_STATUS_CODE q) 0).rd (Reg.HIF_RQ_HEAD_HEAD q) = 0 ∧
    ((s.wrs (rqFresh q)).wr (Reg.HIF_RQ_STATUS_CODE q) 0).rd (Reg.HIF_RQ_TAIL_TAIL q) = 0 := by
  obtain ⟨distinct, apart⟩ := rqFresh_distinct q
  have kept {f : Fld} {v : Nat} (hf : (f, v) ∈ rqFresh q) (hv : v < 2 ^ f.width) :
      ((s.wrs (rqFresh q)).wr (Reg.HIF_RQ_STATUS_CODE q) 0).rd f = v :=
    (rd_wr_ne _ 0 (apart _ hf)).trans (rd_wrs_mem_of_lt hf distinct hv s)
  refine ⟨kept (by simp [rqFresh]) ?_, kept (by simp [rqFresh]) ?_, kept (by simp [rqFresh]) ?_⟩
  · exact show 1 < 2 ^ 3 by decide
  · exact show 0 < 2 ^ 32 by decide
  · exact show 0 < 2 ^ 32 by decide

/-- An operation that moves a queue's state shows it with code 0, and changes registers only. -/
theorem rqStatus_effect (s : State) {t : State} (q op : Nat) {state : Nat} (h : state < 8)
    (ht : t = ((s.wr Reg.HIF_RQ_CMD_OP op).wr (Reg.HIF_RQ_STATUS_STATE q) state).wr (Reg.HIF_RQ_STATUS_CODE q) 0) :
    t.rd (Reg.HIF_RQ_STATUS_STATE q) = state ∧ t.rd (Reg.HIF_RQ_STATUS_CODE q) = 0 ∧ s.onlyRegs t := by
  subst ht
  refine ⟨?_, rd_wr_same _ _ 0, onlyRegs_trans (onlyRegs_wr s _ op) (onlyRegs_trans (onlyRegs_wr _ _ state) (onlyRegs_wr _ _ 0))⟩
  rw [rd_wr_ne _ _ (by simp [Fld.key, Reg.HIF_RQ_STATUS_CODE, Reg.HIF_RQ_STATUS_STATE]), rd_wr_same]
  exact Nat.mod_eq_of_lt h

/-- A refused operation stores its OP and its code. -/
theorem refused_effect {s t : State} {op code : Fld} {v : Nat} (hcode : code.width = 16)
    (ht : t = (s.wr op v).wr code Code.HIF_E_QUEUE) :
    t.rd code = Code.HIF_E_QUEUE ∧ s.regsKept t [op, code] ∧ s.onlyRegs t := by
  subst ht
  refine ⟨?_, regsKept_trans (regsKept_mono (by simp) (regsKept_wr s op v))
    (regsKept_mono (by simp) (regsKept_wr _ code _)), onlyRegs_trans (onlyRegs_wr s op v) (onlyRegs_wr _ code _)⟩
  rw [rd_wr_same, hcode]
  rfl

/-- Settles O4: with Keeper ready each command performs its operation on the selected queue and stores its code. -/
theorem queueCommands : Obligations.QueueCommands := by
  unfold Obligations.QueueCommands
  intro s hready
  refine ⟨fun c hc hok _ => ⟨?create, ?delete, ?apply, ?refused⟩,
    fun q hq hok _ => ⟨?rqCreate, ?rqDrain, ?rqDelete, ?rqResume, ?rqRefused⟩⟩
  case create =>
    intro hfree hlo hhi
    have done : exec .cqCreate s = _ := (exec_cqCmd hok).1
    rw [cqCmd_of_ready hready, ← hc, cqOp_create hfree hlo hhi] at done
    exact ⟨_, done, rd_cqAfter_enabled s c 0 _ (by decide) (.inl rfl), cqAfter_effect rfl⟩
  case delete =>
    intro x hx hused
    have done : exec .cqDelete s = _ := (exec_cqCmd hok).2.1
    rw [cqCmd_of_ready hready, ← hc, cqOp_delete hx hused] at done
    exact ⟨_, done, rd_cqAfter_enabled s c 1 _ (by decide) (.inr rfl), cqAfter_effect rfl⟩
  case apply =>
    intro x hx
    have done : exec .cqApply s = _ := (exec_cqCmd hok).2.2.1
    rw [cqCmd_of_ready hready, ← hc, cqOp_apply hx] at done
    exact ⟨_, done, cqAfter_effect rfl⟩
  case refused =>
    have done : exec .cqCmdRefused s = _ := (exec_cqCmd hok).2.2.2
    rw [cqCmd_of_ready hready, ← hc] at done
    exact ⟨_, done, refused_effect rfl rfl⟩
  case rqCreate =>
    intro hstate hlo hhi hcq hctx
    have done : exec .rqCreate s = _ := (exec_rqCmd hok).1
    rw [rqCmd_of_ready hready, ← hq, rqOp_create hstate hlo hhi hcq hctx] at done
    obtain ⟨henabled, hhead, htail⟩ := rd_rqFresh ((s.wr Reg.HIF_RQ_CMD_OP 0).setRq q (some (rqConfOf s q))) q
    exact ⟨_, done, henabled, hhead, htail, rqAfter_effect rfl⟩
  case rqDrain =>
    intro hstate hbusy
    have done : exec .rqDelete s = _ := (exec_rqCmd hok).2.1
    rw [rqCmd_of_ready hready, ← hq, rqOp_delete hstate, if_pos hbusy] at done
    obtain ⟨hdraining, hcode, only⟩ := rqStatus_effect s q 1 (state := 3) (by decide) rfl
    exact ⟨_, done, hdraining, hcode, only⟩
  case rqDelete =>
    intro hstate hbusy
    have done : exec .rqDelete s = _ := (exec_rqCmd hok).2.1
    rw [rqCmd_of_ready hready, ← hq, rqOp_delete hstate, if_neg (by simp [hbusy])] at done
    obtain ⟨hdisabled, hcode, -⟩ := rqStatus_effect (s.setRq q none) q 1 (state := 0) (by decide) rfl
    exact ⟨_, done, hdisabled, hcode, rq_setRq_same s q none⟩
  case rqResume =>
    intro x hx hstate hctx
    have done : exec .rqResume s = _ := (exec_rqCmd hok).2.2.1
    rw [rqCmd_of_ready hready, ← hq, rqOp_resume hx hstate hctx] at done
    obtain ⟨hresumed, -, only⟩ := rqStatus_effect s q 2 (state := if rqWaits s q then 4 else 1) (by split <;> decide) rfl
    refine ⟨_, done, hresumed, ?_, only⟩
    rw [rd_wr_ne, rd_wr_ne, rd_wr_rqOp] <;>
      simp only [Fld.key, Reg.HIF_RQ_HEAD_HEAD, Reg.HIF_RQ_STATUS_CODE, Reg.HIF_RQ_STATUS_STATE] <;> omega
  case rqRefused =>
    have done : exec .rqCmdRefused s = _ := (exec_rqCmd hok).2.2.2
    rw [rqCmd_of_ready hready, ← hq] at done
    exact ⟨_, done, refused_effect rfl rfl⟩

/-! Halts. -/

/-- What a halt notes in the queue's registers, and the first halted queue while RQ_HALT is 0. -/
def haltNoted (s : State) (q code : Nat) : State :=
  (if s.flag Reg.HIF_IRQ_STATUS_RQ_HALT then s else s.wr Reg.HIF_HALT_FIRST_QUEUE q).wrs
    [(Reg.HIF_RQ_STATUS_STATE q, 2), (Reg.HIF_RQ_STATUS_CODE q, code)]

/-- A halt sets RQ_HALT and is recorded. -/
theorem rqHalt_eq (s : State) (q code : Nat) : ∃ ctx, rqHalt s q code =
    ((haltNoted s q code).raiseHif Reg.HIF_IRQ_STATUS_RQ_HALT).report { errOf code 0 with context := ctx } := by
  unfold rqHalt haltNoted
  exact ⟨_, rfl⟩

theorem haltNoted_onlyRegs (s : State) (q code : Nat) : s.onlyRegs (haltNoted s q code) := by
  unfold haltNoted
  split
  · exact onlyRegs_wrs s _
  · exact onlyRegs_trans (onlyRegs_wr s _ q) (onlyRegs_wrs _ _)

/-- A halt changes registers, what is sent and the error path. -/
theorem rqHalt_reports (s : State) (q code : Nat) : Reports s (rqHalt s q code) := by
  obtain ⟨ctx, halted⟩ := rqHalt_eq s q code
  have noted : Reports s (haltNoted s q code) := by
    rw [haltNoted_onlyRegs s q code]
    exact ⟨_, _, _, _, _, _, rfl⟩
  rw [halted]
  exact noted.trans ((raise_sends _ 0 _ _).reports.trans (report_reports _ _))

/-- Every field but the queue's status and the first halted queue is as before. -/
theorem rd_haltNoted_ne (s : State) (q code : Nat) {g : Fld} (hstate : (Reg.HIF_RQ_STATUS_STATE q).key ≠ g.key)
    (hcode : (Reg.HIF_RQ_STATUS_CODE q).key ≠ g.key) (hfirst : Reg.HIF_HALT_FIRST_QUEUE.key ≠ g.key) :
    (haltNoted s q code).rd g = s.rd g := by
  rw [haltNoted, rd_wrs_ne (by simp [hstate, hcode])]
  split
  · rfl
  · exact rd_wr_ne s q hfirst

/-- The queue shows HALTED and the code. -/
theorem rd_haltNoted_status (s : State) {q code : Nat} (hcode : code < 2 ^ 16) :
    (haltNoted s q code).rd (Reg.HIF_RQ_STATUS_STATE q) = 2 ∧
    (haltNoted s q code).rd (Reg.HIF_RQ_STATUS_CODE q) = code := by
  have distinct : ([(Reg.HIF_RQ_STATUS_STATE q, 2), (Reg.HIF_RQ_STATUS_CODE q, code)].map (·.1.key)).Nodup := by
    simp [Fld.key, Reg.HIF_RQ_STATUS_STATE, Reg.HIF_RQ_STATUS_CODE]
  have state : 2 < 2 ^ (Reg.HIF_RQ_STATUS_STATE q).width := show 2 < 2 ^ 3 by decide
  exact ⟨rd_wrs_mem_of_lt (by simp) distinct state _, rd_wrs_mem_of_lt (by simp) distinct hcode _⟩

/-- The first queue that halts while RQ_HALT is 0 is named. -/
theorem rd_haltNoted_first (s : State) {q : Nat} (hq : q < 65536) (code : Nat) :
    (haltNoted s q code).rd Reg.HIF_HALT_FIRST_QUEUE =
      if s.rd Reg.HIF_IRQ_STATUS_RQ_HALT = 1 then s.rd Reg.HIF_HALT_FIRST_QUEUE else q := by
  have status : ∀ x ∈ [(Reg.HIF_RQ_STATUS_STATE q, 2), (Reg.HIF_RQ_STATUS_CODE q, code)],
      x.1.key ≠ Reg.HIF_HALT_FIRST_QUEUE.key := by
    simp only [List.forall_mem_cons, List.not_mem_nil, false_implies, implies_true, and_true, Fld.key,
      Reg.HIF_RQ_STATUS_STATE, Reg.HIF_RQ_STATUS_CODE, Reg.HIF_HALT_FIRST_QUEUE]
    omega
  rw [haltNoted, rd_wrs_ne status]
  simp only [State.flag, beq_iff_eq]
  by_cases noted : s.rd Reg.HIF_IRQ_STATUS_RQ_HALT = 1
  · rw [if_pos noted, if_pos noted]
  · rw [if_neg noted, if_neg noted, rd_wr_same]
    exact Nat.mod_eq_of_lt hq

/-- RQ_HALT is no register of vectors. -/
theorem key_ne_rqHalt (i : Nat) : Reg.HIF_IRQ_STATUS_RQ_HALT.key ≠ (Reg.HIF_IVEC_VECTOR i).key := by
  simp only [Fld.key, Reg.HIF_IRQ_STATUS_RQ_HALT, Reg.HIF_IVEC_VECTOR]
  omega

/-- After a halt RQ_HALT is set, and every plain field else reads what the halt noted. -/
theorem rd_rqHalt {s : State} (fit : s.vectorsFit) (q code : Nat) :
    (rqHalt s q code).rd Reg.HIF_IRQ_STATUS_RQ_HALT = 1 ∧ ∀ g, Plain g → Reg.HIF_IRQ_STATUS_RQ_HALT.key ≠ g.key →
      (rqHalt s q code).rd g = (haltNoted s q code).rd g := by
  obtain ⟨ctx, halted⟩ := rqHalt_eq s q code
  have vectors : (haltNoted s q code).vectorsFit := by
    refine vectorsFit_of_rd (fun i _ => rd_haltNoted_ne s q code ?_ ?_ ?_) fit <;>
      simp only [Fld.key, Reg.HIF_IVEC_VECTOR, Reg.HIF_RQ_STATUS_STATE, Reg.HIF_RQ_STATUS_CODE,
        Reg.HIF_HALT_FIRST_QUEUE] <;> omega
  have vector : (haltNoted s q code).rd (Reg.HIF_IVEC_VECTOR 0) < 2048 := vectors 0 (by decide)
  have noted : Plain Reg.HIF_IRQ_STATUS_RQ_HALT := plain_of_lt (by decide)
  have raised (g : Fld) (hg : Plain g) (hne : Reg.HIF_IRQ_STATUS_RQ_HALT.key ≠ g.key) :
      ((haltNoted s q code).raiseHif Reg.HIF_IRQ_STATUS_RQ_HALT).rd g = (haltNoted s q code).rd g :=
    rd_raise _ vector hg hne
  have quiet := report_quiet ((haltNoted s q code).raiseHif Reg.HIF_IRQ_STATUS_RQ_HALT)
    (x := { errOf code 0 with context := ctx }) (errClass_lt code)
    (vectorsFit_of_rd (fun i hi => raised _ (plain_ivec hi) (key_ne_rqHalt i)) vectors)
  rw [halted]
  exact ⟨(quiet _ noted).trans (rd_raise_same _ vector noted rfl), fun g hg hne => (quiet g hg).trans (raised g hg hne)⟩

/-- The fields of a request queue, above BAR0 and so apart from every block of registers, are plain ones other than
RQ_HALT. -/
theorem plain_of_home {g : Fld} (h : 0x4000000 * 64 ≤ g.key) : Plain g ∧ Reg.HIF_IRQ_STATUS_RQ_HALT.key ≠ g.key := by
  refine ⟨plain_of_sec (by omega), ?_⟩
  simp only [Fld.key, Reg.HIF_IRQ_STATUS_RQ_HALT] at h ⊢
  omega

/-- Settles O6: what a halt notes in the registers stays when its event is set and it is recorded. -/
theorem queueHalts : Obligations.QueueHalts := by
  unfold Obligations.QueueHalts
  intro q code s hq hcode fit
  obtain ⟨hset, kept⟩ := rd_rqHalt fit q code
  obtain ⟨hstate, hshown⟩ := rd_haltNoted_status s (q := q) hcode
  have first := (kept Reg.HIF_HALT_FIRST_QUEUE (plain_of_lt (by decide)) (by decide)).trans (rd_haltNoted_first s hq code)
  have reports := rqHalt_reports s q code
  have home {g : Fld} (h : 0x4000000 * 64 ≤ g.key) : (rqHalt s q code).rd g = (haltNoted s q code).rd g :=
    kept g (plain_of_home h).1 (plain_of_home h).2
  refine ⟨(home ?_).trans hstate, (home ?_).trans hshown, hset, fun h => first.trans (if_neg h),
    fun h => first.trans (if_pos h), (home ?_).trans (rd_haltNoted_ne s q code ?_ ?_ ?_),
    (home ?_).trans (rd_haltNoted_ne s q code ?_ ?_ ?_), memKept_of_dram (dram_of_reports reports),
    ops_of_reports reports, part0_of_reports reports, part1_of_reports reports⟩ <;>
    simp only [Fld.key, Reg.HIF_RQ_STATUS_STATE, Reg.HIF_RQ_STATUS_CODE, Reg.HIF_RQ_HEAD_HEAD, Reg.HIF_RQ_TAIL_TAIL,
      Reg.HIF_HALT_FIRST_QUEUE] <;> omega

end Sys2Proof.Machine.HostInterface
end

section
/-! Completion records, coalescing, token delivery, and the ends of SIGNAL and WAIT (R40, R286, R290, R292 to R295). -/

namespace Sys2Proof.Machine.HostInterface

open Sys2Proof.Machine.Architecture

/-! What leaves the completion queues alone. -/

theorem cq_wr (s : State) (f : Fld) (v c : Nat) : (s.wr f v).cq c = s.cq c := rfl

theorem cq_dropOp (s : State) (n c : Nat) : (dropOp s n).cq c = s.cq c := rfl

theorem cq_sendAll (s : State) (l : List Emit) (c : Nat) : (sendAll s l).cq c = s.cq c := rfl

/-! Completion records. -/

theorem length_recordOf (s : State) (o : Operation) (phase : Bool) : (recordOf s o phase).length = 32 := by
  simp [recordOf]

theorem id_of_op {s : State} {n : Nat} {o : Operation} (h : s.op n = some o) : o.id = n :=
  beq_iff_eq.mp (List.find?_some (p := fun o : Operation => o.id == n) h)

/-- An operation that is taken out is no longer in flight. -/
theorem op_dropOp_same (s : State) (n : Nat) : (dropOp s n).op n = none := by
  refine List.find?_eq_none.mpr fun o ho => ?_
  obtain ⟨-, hne⟩ := List.mem_filter.mp ho
  simpa using hne

section
variable {s : State} {n : Nat} {o : Operation} {x : CqConf} (ho : s.op n = some o) (hdue : tokensDue s n = false)
  (hrec : o.noRecord = false) (hx : s.cq o.cq = some x)
include ho hdue hrec hx

/-- An ended operation writes its record where its queue holds none back and has room (R293). -/
theorem complete_of_room (hheld : x.held = []) (hroom : x.written - x.head < 2 ^ x.sizeLog2) :
    complete s n = cqWrite s o.cq x o := by
  simp [complete, ho, hdue, hrec, hx, hheld, cqRoom, hroom]

/-- A queue that holds records back holds the next one too. -/
theorem complete_of_held (hheld : x.held ≠ []) : complete s n = cqHold s o.cq x o := by
  simp [complete, ho, hdue, hrec, hx, hheld]

end

/-- The write of a record at the ring's next place. -/
def recordWrite (s : State) (x : CqConf) (o : Operation) : Emit :=
  .hostWrite (x.base + 32 * (x.written % 2 ^ x.sizeLog2)) (recordOf s o (x.written / 2 ^ x.sizeLog2 % 2 == 0)) true

/-- A record sent and counted, its operation taken out. -/
def recordWritten (s : State) (c : Nat) (x : CqConf) (o : Operation) : State :=
  dropOp (((sendAll s [recordWrite s x o]).inc Reg.HIF_COMPLETIONS).setCq c
    (some { x with written := x.written + 1, unreported := x.unreported + 1 })) o.id

/-- With the queue's interrupt off no message follows; an operation other than a GENERATE adds to no cell here. -/
theorem cqWrite_of_quiet {s : State} {x : CqConf} {o : Operation} (hs : Sending s) (hirq : x.irqEn = false)
    (hop : o.desc.opcode ≠ 1) (c : Nat) : cqWrite s c x o = recordWritten s c x o := by
  simp [cqWrite, recordWritten, recordWrite, coalesce, State.hostWrite, emit_of_sending hs, hirq, hop]

theorem recordWritten_effect {s t : State} {c : Nat} {x : CqConf} {o : Operation} (ht : t = recordWritten s c x o) :
    t.out = s.out ++ [recordWrite s x o] ∧ t.op o.id = none ∧
    t.cq c = some { x with written := x.written + 1, unreported := x.unreported + 1 } ∧
    s.regsKept t [Reg.HIF_COMPLETIONS] ∧ s.memKept t := by
  subst ht
  exact ⟨rfl, op_dropOp_same _ _, (cq_dropOp _ _ c).trans (cq_setCq_same _ c _), regsKept_inc s _, memKept_of_dram rfl⟩

/-- A record held behind others. -/
def recordHeld (s : State) (c : Nat) (x : CqConf) (o : Operation) : State :=
  putHeld ((s.inc Reg.HIF_CQ_HELD).setCq c (some { x with held := x.held ++ [o.id] })) c (x.held.length + 1)

/-- The event of a queue that begins to hold records is not raised again. -/
theorem cqHold_of_held {x : CqConf} (h : x.held ≠ []) (s : State) (c : Nat) (o : Operation) :
    cqHold s c x o = recordHeld s c x o := by
  simp [cqHold, recordHeld, h]

theorem recordHeld_effect {s t : State} {c : Nat} {x : CqConf} {o : Operation} (hlen : x.held.length < 16383)
    (ht : t = recordHeld s c x o) :
    t.out = s.out ∧ t.ops = s.ops ∧ t.cq c = some { x with held := x.held ++ [o.id] } ∧
    t.rd (Reg.HIF_CQ_STATUS_HELD c) = x.held.length + 1 ∧
    s.regsKept t [Reg.HIF_CQ_STATUS_HELD c, Reg.HIF_CQ_HELD] ∧ s.memKept t := by
  have shown : minNat (x.held.length + 1) 16383 = x.held.length + 1 := if_pos hlen
  subst ht
  refine ⟨rfl, rfl, (cq_wr _ _ _ c).trans (cq_setCq_same _ c _), ?_, ?_, memKept_of_dram rfl⟩
  · rw [recordHeld, putHeld, shown, rd_wr_same]
    exact Nat.mod_eq_of_lt (show x.held.length + 1 < 2 ^ 14 by omega)
  · exact regsKept_trans (regsKept_mono (by simp) (regsKept_inc s Reg.HIF_CQ_HELD))
      (regsKept_mono (by simp) (regsKept_wr ((s.inc Reg.HIF_CQ_HELD).setCq c _) (Reg.HIF_CQ_STATUS_HELD c) _))

/-- Settles O8: an ended operation's record is written or held, as its queue stands. -/
theorem completionRecords : Obligations.CompletionRecords := by
  unfold Obligations.CompletionRecords
  refine ⟨fun o ph s => length_recordOf s o ph, ?written, ?held⟩
  case written =>
    intro n o x s ho hdue hrec hx hheld hroom hirq hop hl hd3
    obtain ⟨hout, hgone, rest⟩ := recordWritten_effect (s := s) (c := o.cq) (x := x) (o := o) rfl
    rw [complete_of_room ho hdue hrec hx hheld hroom, cqWrite_of_quiet (sending_of_live hl hd3) hirq hop]
    exact ⟨hout, id_of_op ho ▸ hgone, rest⟩
  case held =>
    intro n o x s ho hdue hrec _ hx hheld hlen
    rw [complete_of_held ho hdue hrec hx hheld, cqHold_of_held hheld]
    exact recordHeld_effect hlen rfl

/-! Signals and waits. -/

theorem exec_signalComplete {s : State} (hl : s.live = true) {n : Nat} {o : Operation} (ho : s.op n = some o) :
    exec (.signalComplete n) s = .next (signalComplete s o) := by
  refine congrArg Host.Outcome.next ((engine_of_live hl _).trans ?_)
  rw [ho]

theorem exec_waitSatisfied {s : State} (hl : s.live = true) {n : Nat} {o : Operation} (ho : s.op n = some o) :
    exec (.waitSatisfied n) s = .next (waitSatisfied s o) := by
  refine congrArg Host.Outcome.next ((engine_of_live hl _).trans ?_)
  rw [ho]

/-- A SIGNAL with no earlier operation of its queue adds to its cell and ends. -/
theorem signalComplete_of_first {s : State} {o : Operation} (hphase : o.phase = .signal)
    (first : s.ops.any (fun x => x.rq == o.rq && decide (x.id < o.id)) = false) :
    signalComplete s o = endOp (synAdd s o.desc.syncCell o.desc.syncValue) o.id 0 :=
  if_pos (by simp [hphase, first])

/-- A WAIT whose cell has reached its value ends, and its queue fetches again. -/
theorem waitSatisfied_of_reached {s : State} {o : Operation} (hphase : o.phase = .waitCell)
    (reached : o.desc.syncValue ≤ s.rd (Reg.SYN_CELL o.desc.syncCell))
    (waiting : s.rd (Reg.HIF_RQ_STATUS_STATE o.rq) = 4) :
    waitSatisfied s o = endOp (s.wr (Reg.HIF_RQ_STATUS_STATE o.rq) 1) o.id 0 := by
  simp [waitSatisfied, rqState, hphase, reached, waiting]

/-! Queues that drain, and queues whose time limit passes. -/

/-- A DRAINING queue without operations becomes DISABLED. -/
theorem exec_rqDrained {s : State} (hl : s.live = true) {q : Nat} (draining : s.rd (Reg.HIF_RQ_STATUS_STATE q) = 3)
    (idle : rqBusy s q = false) : exec (.rqDrained q) s = .next (rqDisable s q) :=
  congrArg Host.Outcome.next ((engine_of_live hl _).trans (if_pos ⟨draining, idle⟩))

theorem rqDisable_effect {s t : State} {q : Nat} (ht : t = rqDisable s q) :
    t.rd (Reg.HIF_RQ_STATUS_STATE q) = 0 ∧ t.rq q = none ∧ s.regsKept t [Reg.HIF_RQ_STATUS_STATE q] ∧
    t = { s with regs := t.regs, rqs := t.rqs } ∧ (∀ r, r ≠ q → t.rq r = s.rq r) := by
  subst ht
  exact ⟨rd_wr_same _ _ 0, rq_setRq_same s q none, regsKept_wr (s.setRq q none) _ 0, rfl,
    fun r hr => rq_setRq_ne s none hr.symm⟩

theorem exec_coalesceTimeout {s : State} (hl : s.live = true) (c : Nat) :
    exec (.coalesceTimeout c) s = .next (coalesceTimeout s c) :=
  congrArg Host.Outcome.next (engine_of_live hl _)

/-- Unreported records are reported when the time limit passes. -/
theorem coalesceTimeout_of_due {s : State} {c : Nat} {x : CqConf} (hx : s.cq c = some x) (hirq : x.irqEn = true)
    (hlimit : x.coalUs ≠ 0) (hdue : x.unreported ≠ 0) :
    coalesceTimeout s c = (s.setCq c (some { x with unreported := 0 })).msix x.vector := by
  simp [coalesceTimeout, hx, hirq, hlimit, hdue]

/-! Token rings. -/

theorem exec_tokenDelivery {s : State} (hl : s.live = true) : exec (.tokenDelivery false) s = .next (deliver s) :=
  congrArg Host.Outcome.next (engine_of_live hl _)

/-- A fault of the copy leaves the token where it is. -/
theorem exec_tokenDelivery_fault (s : State) : exec (.tokenDelivery true) s = .next s := by
  refine congrArg Host.Outcome.next ?_
  rcases engine_cases s (fun u => if true then u else deliver u) with ⟨_, h⟩ | ⟨_, h⟩ <;> exact h

/-- The oldest staged token is next where its ring has a place. -/
theorem nextToken_of_head {s : State} {k : StagedToken} {rest : List StagedToken} {o : Operation}
    (hst : s.staged = k :: rest) (ho : s.op k.op = some o) (hroom : ringFull o = false) : nextToken s = some k := by
  simp [nextToken, hst, ho, hroom]

/-- The writes of a token's entry and of PROD. -/
def tokenWrites (k : StagedToken) (o : Operation) : List Emit :=
  [.hostWrite (o.desc.tringBase + 64 + 8 * (o.delivered % 2 ^ o.desc.tringLog2)) (leBytes 4 k.token ++ leBytes 4 k.pos)
      false,
    .hostWrite o.desc.tringBase (leBytes 4 (o.delivered + 1)) false]

/-- A token delivered: its entry and PROD sent, its operation's count and the part's up by one. -/
def tokenWritten (s : State) (k : StagedToken) (rest : List StagedToken) (o : Operation) : State :=
  ((sendAll { s with staged := rest } (tokenWrites k o)).updOp o.id (fun x => { x with delivered := x.delivered + 1 })).inc
    Reg.HIF_TOKENS

theorem deliver_of_head {s : State} {k : StagedToken} {rest : List StagedToken} {o : Operation}
    (hst : s.staged = k :: rest) (ho : s.op k.op = some o) (hroom : ringFull o = false) (hphase : o.phase ≠ .ending)
    (hs : Sending s) : deliver s = tokenWritten s k rest o := by
  have entry (e : Emit) : State.emit { s with staged := rest } e = sendAll { s with staged := rest } [e] :=
    emit_of_sending (s := { s with staged := rest }) hs e
  have prod (l : List Emit) (e : Emit) : (sendAll { s with staged := rest } l).emit e =
      sendAll { s with staged := rest } (l ++ [e]) :=
    (emit_of_sending (s := sendAll { s with staged := rest } l) hs e).trans (sendAll_sendAll _ l [e])
  have found : State.op { s with staged := rest } k.op = some o := ho
  have left : s.staged.erase k = rest := by rw [hst, List.erase_cons_head]
  simp [deliver, nextToken_of_head hst ho hroom, left, found, State.hostWrite, entry, prod, hphase, tokenWritten,
    tokenWrites]

theorem tokenWritten_effect {s t : State} {k : StagedToken} {rest : List StagedToken} {o : Operation}
    (ht : t = tokenWritten s k rest o) :
    t.staged = rest ∧ t.out = s.out ++ tokenWrites k o ∧
    t.rd Reg.HIF_TOKENS = (s.rd Reg.HIF_TOKENS + 1) % 2 ^ Reg.HIF_TOKENS.width ∧ s.regsKept t [Reg.HIF_TOKENS] ∧
    t = { s with regs := t.regs, staged := t.staged, out := t.out, ops := t.ops } := by
  subst ht
  exact ⟨rfl, rfl, rd_inc_same _ _, regsKept_inc s _, rfl⟩

theorem exec_tokenRingConsReread {s : State} (hl : s.live = true) (hd3 : s.chip.d3hot = false) (n cons : Nat) :
    exec (.tokenRingConsReread n cons) s = .next (s.updOp n (fun o => { o with ringCons := cons % 2 ^ 32 })) :=
  congrArg Host.Outcome.next ((engine_of_live hl _).trans (if_neg (by simp [hd3])))

/-- Settles O7: a live part performs each event, whose condition the state meets. -/
theorem signalsAndDelivery : Obligations.SignalsAndDelivery := by
  unfold Obligations.SignalsAndDelivery
  refine ⟨?signal, ?wait, ?drained, ?coalesce, ?delivery, exec_tokenDelivery_fault, ?reread⟩
  case signal =>
    intro n o s hl ho hphase first
    rw [exec_signalComplete hl ho, signalComplete_of_first hphase first]
  case wait =>
    intro n o s hl ho hphase reached waiting
    rw [exec_waitSatisfied hl ho, waitSatisfied_of_reached hphase reached waiting]
  case drained =>
    intro q s _ hl draining idle
    exact ⟨_, exec_rqDrained hl draining idle, rqDisable_effect rfl⟩
  case coalesce =>
    intro c x s _ hl hx hirq hlimit hdue hopen hd3
    have sent := msix_of_open (s := s.setCq c (some { x with unreported := 0 })) hopen (sending_of_live hl hd3)
    exact ⟨_, (exec_coalesceTimeout hl c).trans
        (congrArg _ ((coalesceTimeout_of_due hx hirq hlimit hdue).trans sent)),
      (cq_sendAll _ _ c).trans (cq_setCq_same s c _), rfl, rfl,
      fun d hd => (cq_sendAll _ _ d).trans (cq_setCq_ne s _ hd.symm)⟩
  case delivery =>
    intro k rest o s hl hst ho hroom hphase hd3
    exact ⟨_, (exec_tokenDelivery hl).trans
      (congrArg _ (deliver_of_head hst ho hroom hphase (sending_of_live hl hd3))), tokenWritten_effect rfl⟩
  case reread =>
    intro n cons s hl hd3
    exact exec_tokenRingConsReread hl hd3 n cons

end Sys2Proof.Machine.HostInterface
end

section
/-! The fetch of descriptors (R288 to R290, R302, R318). -/

namespace Sys2Proof.Machine.HostInterface

open Sys2Proof.Machine.Architecture

/-! The descriptor at HEAD. -/

/-- A queue that is ready takes its descriptor and begins what it asks for. -/
theorem fetch_of_ready {s : State} {q : Nat} {x : RqConf} (hl : s.live = true) (hx : s.rq q = some x)
    (hready : fetchReady s q = true) (bytes prompt : List Byte) :
    s.engine (fun u => fetchOp u q bytes prompt) =
      startOp (takeDesc s q x bytes prompt).2 bytes (takeDesc s q x bytes prompt).1 := by
  rw [engine_of_live hl]
  simp only [fetchOp, hx, hready, if_true]

/-- HEAD moved to `n` and the fetch counted, as far as the registers go. -/
def headMoved (s : State) (q n : Nat) : State := (s.wr (Reg.HIF_RQ_HEAD_HEAD q) n).inc Reg.HIF_FETCHED

theorem rd_headMoved_head (s : State) (q : Nat) {n : Nat} (hn : n < 2 ^ 32) :
    (headMoved s q n).rd (Reg.HIF_RQ_HEAD_HEAD q) = n := by
  have apart : Reg.HIF_FETCHED.key ≠ (Reg.HIF_RQ_HEAD_HEAD q).key := by
    simp only [Fld.key, Reg.HIF_FETCHED, Reg.HIF_RQ_HEAD_HEAD]
    omega
  rw [headMoved, State.inc, State.add, rd_wr_ne _ _ apart, rd_wr_same]
  exact Nat.mod_eq_of_lt hn

theorem regsKept_headMoved (s : State) (q n : Nat) :
    s.regsKept (headMoved s q n) [Reg.HIF_RQ_HEAD_HEAD q, Reg.HIF_FETCHED] :=
  regsKept_trans (regsKept_mono (by simp) (regsKept_wr s (Reg.HIF_RQ_HEAD_HEAD q) n))
    (regsKept_mono (by simp) (regsKept_inc _ Reg.HIF_FETCHED))

section
variable (s : State) (q : Nat) (x : RqConf) (bytes prompt : List Byte)

theorem regs_takeDesc : (takeDesc s q x bytes prompt).2.regs =
    (headMoved s q ((s.rd (Reg.HIF_RQ_HEAD_HEAD q) + 1) % 2 ^ 32)).regs := rfl

theorem dram_takeDesc : (takeDesc s q x bytes prompt).2.dram = s.dram := by
  simp [takeDesc, State.inc, State.add]

/-- The operation joins those in flight. -/
theorem ops_takeDesc : (takeDesc s q x bytes prompt).2.ops = s.ops ++ [(takeDesc s q x bytes prompt).1] := by
  simp [takeDesc, State.inc, State.add]

/-- What taking a descriptor does to HEAD, the count of fetches and the operations, and what it leaves. -/
theorem takeDesc_effect :
    (takeDesc s q x bytes prompt).2.ops = s.ops ++ [(takeDesc s q x bytes prompt).1] ∧
    (takeDesc s q x bytes prompt).2.rd (Reg.HIF_RQ_HEAD_HEAD q) = (s.rd (Reg.HIF_RQ_HEAD_HEAD q) + 1) % 2 ^ 32 ∧
    s.regsKept (takeDesc s q x bytes prompt).2 [Reg.HIF_RQ_HEAD_HEAD q, Reg.HIF_FETCHED] ∧
    s.memKept (takeDesc s q x bytes prompt).2 := by
  have reads := rd_congr (regs_takeDesc s q x bytes prompt)
  exact ⟨ops_takeDesc s q x bytes prompt, (reads _).trans (rd_headMoved_head s q (Nat.mod_lt _ (by decide))),
    fun g hg => (reads g).trans (regsKept_headMoved s q _ g hg), memKept_of_dram (dram_takeDesc s q x bytes prompt)⟩

/-- The partitions run on while a descriptor is taken. -/
theorem part_takeDesc (p : Nat) : (takeDesc s q x bytes prompt).2.part p = s.part p := by
  simp [State.part, takeDesc, State.inc, State.add]

theorem desc_takeDesc : (takeDesc s q x bytes prompt).1.desc = parseDesc bytes := rfl

theorem timeKc_takeDesc : (takeDesc s q x bytes prompt).2.timeKc = s.timeKc := by
  simp [takeDesc, State.inc, State.add]

theorem decodePart_takeDesc (ctx : Nat) :
    decodePart (takeDesc s q x bytes prompt).2 ctx = decodePart s ctx := by
  simp only [decodePart, part_takeDesc]

end

/-! What a descriptor begins. -/

section
variable {s : State} {bytes : List Byte} {o : Operation}

section
variable {d : Desc} (hd : o.desc = d)
include hd

theorem startOp_of_unknown (h : d.opcode = 0 ∨ 4 < d.opcode) :
    startOp s bytes o = endOp s o.id Code.HIF_E_OPCODE := by
  subst hd
  have unknown : (!within 1 4 o.desc.opcode) = true := by
    simp only [within, Bool.not_eq_true', Bool.and_eq_false_iff, decide_eq_false_iff_not]
    omega
  rw [startOp, if_pos unknown]

/-- A GENERATE out of range ends at its fetch. -/
theorem startOp_of_badGenerate (hop : d.opcode = 1) (hform : generateOk bytes d = false) :
    startOp s bytes o = endOp s o.id Code.HIF_E_FORMAT := by
  simp [startOp, within, descOk, hd, hop, hform]

theorem startOp_of_generate (hop : d.opcode = 1) (hform : generateOk bytes d = true) :
    startOp s bytes o = startGenerate s o := by
  simp [startOp, within, descOk, hd, hop, hform]

theorem startOp_of_cancel (hop : d.opcode = 2) (hform : shortOk bytes d = true) :
    startOp s bytes o = startCancel s o := by
  simp [startOp, within, descOk, hd, hop, hform]

theorem startOp_of_signal (hop : d.opcode = 3) (hform : shortOk bytes d = true) :
    startOp s bytes o = s.updOp o.id (fun x => { x with phase := .signal }) := by
  simp [startOp, within, descOk, hd, hop, hform]

theorem startOp_of_wait (hop : d.opcode = 4) (hform : shortOk bytes d = true) :
    startOp s bytes o =
      (s.updOp o.id (fun x => { x with phase := .waitCell })).wr (Reg.HIF_RQ_STATUS_STATE o.rq) 4 := by
  simp [startOp, within, descOk, hd, hop, hform]

end

/-- A request of a context that no partition runs waits while its instant is ahead (R318). -/
theorem startGenerate_of_waiting (hdecode : decodePart s o.ctx = none) (hahead : instantPassed o s.timeKc = false) :
    startGenerate s o = s := by
  simp [startGenerate, hdecode, hahead]

/-- One of a running context goes through lookup and admission (R302). -/
theorem startGenerate_of_running {p : Nat} (hdecode : decodePart s o.ctx = some p) :
    startGenerate s o = admitOp s p { o with attach := lookup s o } := by
  simp only [startGenerate, hdecode]

theorem startCancel_of_none (h : cancelTarget s o = none) : startCancel s o = endOp s o.id Code.HIF_E_NO_TARGET := by
  simp only [startCancel, h]

/-- A target in a step, not stopped before, is marked; its step's scatter ends it (R42). -/
theorem startCancel_of_inStep {y : Operation} {p : Nat} (h : cancelTarget s o = some y) (hstep : y.inStep = some p)
    (hstop : y.stop = none) : startCancel s o =
      endOp (s.updOp y.id (fun _ => { y with stop := some (s.timeKc, Code.HIF_E_CANCELLED) })) o.id 0 := by
  simp [startCancel, h, hstep, hstop]

end

theorem exec_fetchError {s : State} {q : Nat} (hl : s.live = true) (hready : fetchReady s q = true) :
    exec (.fetchError q) s = .next (rqHalt (s.inc Reg.HIF_FETCH_ERR) q Code.HIF_E_FETCH) :=
  congrArg Host.Outcome.next ((engine_of_live hl _).trans (if_pos hready))

/-- Settles O5: the descriptor is taken, and its opcode and its checks say what begins. -/
theorem descriptorFetch : Obligations.DescriptorFetch := by
  unfold Obligations.DescriptorFetch
  intro q bytes prompt x s _ hl hx hready
  have fetched (prompt : List Byte) := congrArg (Host.Outcome.next (φ := Fault) (ρ := Refusal))
    (fetch_of_ready hl hx hready bytes prompt)
  refine ⟨⟨rfl, rfl, rfl, rfl, rfl, takeDesc_effect s q x bytes prompt⟩, fun hop => ?unknown, fun hop hform => ?badForm,
    fun hop hform => ⟨fun hdecode _ hahead => ?waiting, fun p hdecode => ?running⟩, fun hop hform => ?signal,
    fun hop hform => ?wait, fun hop hform => ⟨fun htarget => ?noTarget, fun y p htarget hstep hstop => ?inStep⟩,
    exec_fetchError hl hready⟩
  case unknown =>
    refine (fetched []).trans ?_
    rw [startOp_of_unknown (desc_takeDesc s q x bytes []) hop]
    rfl
  case badForm =>
    refine (fetched prompt).trans ?_
    rw [startOp_of_badGenerate (desc_takeDesc s q x bytes prompt) hop hform]
    rfl
  case waiting =>
    have decode := (decodePart_takeDesc s q x bytes prompt x.ctx).trans hdecode
    rw [← timeKc_takeDesc s q x bytes prompt] at hahead
    refine (fetched prompt).trans ?_
    rw [startOp_of_generate (desc_takeDesc s q x bytes prompt) hop hform, startGenerate_of_waiting decode hahead]
  case running =>
    have decode := (decodePart_takeDesc s q x bytes prompt x.ctx).trans hdecode
    refine (fetched prompt).trans ?_
    rw [startOp_of_generate (desc_takeDesc s q x bytes prompt) hop hform, startGenerate_of_running decode]
  case signal =>
    refine (fetched []).trans ?_
    rw [startOp_of_signal (desc_takeDesc s q x bytes []) hop hform]
    rfl
  case wait =>
    refine (fetched []).trans ?_
    rw [startOp_of_wait (desc_takeDesc s q x bytes []) hop hform]
    rfl
  case noTarget =>
    refine (fetched []).trans ?_
    rw [startOp_of_cancel (desc_takeDesc s q x bytes []) hop hform, startCancel_of_none htarget]
    rfl
  case inStep =>
    refine (fetched []).trans ?_
    rw [startOp_of_cancel (desc_takeDesc s q x bytes []) hop hform, startCancel_of_inStep htarget hstep hstop]
    rfl

end Sys2Proof.Machine.HostInterface
end

section
/-! D3hot (R284). -/

namespace Sys2Proof.Machine.HostInterface

open Sys2Proof.Machine.Architecture

theorem exec_d3hotEntry {s : State} (halive : s.alive = true) (hup : s.chip.linkUp = true) :
    exec .d3hotEntry s = .next { s with chip := { s.chip with d3hot := true } } :=
  congrArg Host.Outcome.next (if_pos (by simp [halive, hup]))

/-- Outside the safe state the return to D0 sends what was held. -/
theorem exec_d0Return {s : State} (halive : s.alive = true) (hd3 : s.chip.d3hot = true) (hsafe : s.safe = false) :
    exec .d0Return s = .next { s with
      chip := { s.chip with d3hot := false }, out := s.out ++ s.heldOut, heldOut := [] } := by
  have safe : State.safe { s with chip := { s.chip with d3hot := false } } = false := hsafe
  refine congrArg Host.Outcome.next ((if_pos (by simp [halive, hd3])).trans ?_)
  exact if_neg (by simp [safe])

/-- In D3hot a request of the part is held. -/
theorem emit_of_d3hot {s : State} {e : Emit} (htrip : s.chip.tripped = false) (hsafe : s.safe = false)
    (hd3 : s.chip.d3hot = true) (hhost : emitToHost e = true) :
    s.emit e = { s with heldOut := s.heldOut ++ [e] } := by
  simp [State.emit, htrip, hsafe, hd3, hhost]

theorem fetchReady_of_d3hot {s : State} (hd3 : s.chip.d3hot = true) (q : Nat) : fetchReady s q = false := by
  simp [fetchReady, hd3]

/-- A tier-2 access that fails ends its slots; no counter counts it. -/
theorem accessFault_of_tier2 (s : State) (p : Nat) (slots : List Nat) (zeros : List ZeroRun) :
    accessFault s p Code.XLT_E_TIER2 slots zeros = someFault
      (zeroRuns s 4 (zeros.filter (fun z => (s.part p).tiles.contains z.tile))) p slots
      { errOf Code.XLT_E_TIER2 1 with partition := p } := by
  have uncounted (u : State) : countAccess u Code.XLT_E_TIER2 = u := by
    rw [countAccess, if_neg (by decide), if_neg (by decide), if_pos (Or.inl rfl)]
  rw [accessFault, uncounted]

/-- Settles O30: D3hot is one flag, which holds back what the part sends and fetches. -/
theorem powerManagementState : Obligations.PowerManagementState := by
  unfold Obligations.PowerManagementState
  refine ⟨fun s => exec_d3hotEntry, fun s => exec_d0Return, fun e s => emit_of_d3hot,
    fun q s hd3 => fetchReady_of_d3hot hd3 q, fun p slots zeros s _ hl _ hin => ?_⟩
  rw [exec_tierAccessFault hl hin (by decide), accessFault_of_tier2]

end Sys2Proof.Machine.HostInterface
end

section
/-! What the end of a request leaves of the partitions (R42, R160, R293, R318, R348). -/

namespace Sys2Proof.Machine.Serving

open Sys2Proof.Machine.Architecture

/-! Bookings of Keeper's. -/

theorem runs_applyLine (s : State) (owner : Nat) (l : BookLine) (p : Nat) : runs (applyLine s owner l) p = runs s p := by
  unfold applyLine
  split
  · rfl
  · simp only [runs, dirtyWatches, State.part]
    split <;> rfl

theorem runs_holdLine (s : State) (grp : Nat) (l : BookLine) (p : Nat) : runs (holdLine s grp l) p = runs s p := by
  unfold holdLine
  split
  · rfl
  · split <;> rfl

/-- Lines of a booking that become visible, or are put aside, change no partition's work (R262, R263). -/
theorem runs_commitLines (s : State) (owner : Nat) (ls : List BookLine) (rs : List (Nat × Nat)) (p : Nat) :
    runs (commitLines s owner ls rs) p = runs s p := by
  have lines : runs (if ls.any (lineHeld s) then
      ls.foldl (fun t l => holdLine t s.nextBooking l) { s with nextBooking := s.nextBooking + 1 }
      else ls.foldl (fun t l => applyLine t owner l) s) p = runs s p := by
    split
    · exact foldl_keeps (P := fun t => runs t p = runs s p) _ (fun t l ht => (runs_holdLine t _ l p).trans ht) ls _ rfl
    · exact foldl_keeps (P := fun t => runs t p = runs s p) _ (fun t l ht => (runs_applyLine t owner l p).trans ht) ls _
        rfl
  exact lines

theorem runs_keeperWrite (s : State) (ls : List BookLine) (rs : List (Nat × Nat)) (p : Nat) :
    runs (keeperWrite s ls rs) p = runs s p := by
  unfold keeperWrite keeperBook
  split
  · rfl
  · split
    · exact runs_commitLines s 0 ls rs p
    · rfl

/-! Messages of a span. -/

theorem runs_sendMsg (s : State) (m : ChainMsg) (p : Nat) : runs (sendMsg s m) p = runs s p := by
  unfold sendMsg
  split
  · unfold enqueue State.updPort
    split <;> rfl
  · rfl

theorem runs_spanRelease (s : State) (ctx seq p : Nat) : runs (spanRelease s ctx seq) p = runs s p := by
  refine runs_overList (fun q t => ?_) s
  split
  · exact runs_overList (fun r u => runs_sendMsg u _ p) t
  · rfl

/-! Completion records. -/

theorem runs_synAdd (s : State) (c v p : Nat) : runs (synAdd s c v) p = runs s p := by
  refine (runs_iter (fun w t => ?_) (s.addSat (Reg.SYN_CELL c) v)).trans rfl
  unfold checkSlot
  split
  · exact runs_of_sends (((wr_sends t _ 1).trans (wr_sends _ _ 0)).trans (msix_sends _ _)) p
  · rfl

theorem runs_coalesce (s : State) (c : Nat) (x : CqConf) (p : Nat) : runs (coalesce s c x) p = runs s p := by
  unfold coalesce
  split
  · exact runs_of_sends (msix_sends (s.setCq c _) _) p
  · rfl

theorem runs_cqWrite (s : State) (c : Nat) (x : CqConf) (o : Operation) (p : Nat) : runs (cqWrite s c x o) p = runs s p := by
  have written (a : Nat) (bs : List Byte) : runs (s.hostWrite a bs true) p = runs s p := by
    obtain ⟨_, _, h⟩ := hostWrite_shape s a bs true
    rw [h]
    rfl
  have recorded (t : State) (y : CqConf) : runs (dropOp (coalesce (t.inc Reg.HIF_COMPLETIONS) c y) o.id) p = runs t p :=
    runs_coalesce (t.inc Reg.HIF_COMPLETIONS) c y p
  unfold cqWrite
  dsimp only
  split
  · exact (runs_synAdd _ _ _ p).trans ((recorded _ _).trans (written _ _))
  · exact (recorded _ _).trans (written _ _)

theorem runs_cqHold (s : State) (c : Nat) (x : CqConf) (o : Operation) (p : Nat) : runs (cqHold s c x o) p = runs s p := by
  have raised : runs (if x.held.isEmpty then s.raiseHif Reg.HIF_IRQ_STATUS_CQ_HOLD else s) p = runs s p := by
    split
    · exact runs_of_sends (raise_sends s 0 _ _) p
    · rfl
  exact raised

theorem runs_complete (s : State) (id p : Nat) : runs (complete s id) p = runs s p := by
  unfold complete
  split
  · rfl
  · split
    · rfl
    · split
      · rfl
      · split
        · rfl
        · split
          · exact runs_cqWrite s _ _ _ p
          · exact runs_cqHold s _ _ _ p

/-! The end of a request. -/

theorem runs_countDeadline (s : State) (o : Operation) (code p : Nat) : runs (countDeadline s o code) p = runs s p := by
  unfold countDeadline
  split
  · exact runs_of_sends ((wr_sends s _ _).trans (raise_sends _ 5 _ _)) p
  · rfl

/-- A request that ends leaves every partition at what it does. -/
theorem runs_endRequest (s : State) (o : Operation) (code p : Nat) : runs (endRequest s o code) p = runs s p := by
  have ended (t : State) : runs (endOp (countDeadline (spanRelease t o.ctx o.desc.seqIndex) o code) o.id code) p = runs t p :=
    (runs_complete _ o.id p).trans ((runs_countDeadline _ o code p).trans (runs_spanRelease t _ _ p))
  unfold endRequest
  refine (ended _).trans ?_
  split
  · exact runs_keeperWrite s _ [] p
  · rfl

/-- A partition that does the same runs or is IDLE as before. -/
theorem busy_of_runs {s t : State} {p : Nat} (h : runs t p = runs s p) : (t.part p).busy = (s.part p).busy := by
  have stage : (t.part p).stage = (s.part p).stage := congrArg Prod.fst h
  rw [Part.busy, Part.busy, stage]

end Sys2Proof.Machine.Serving
end

section
/-! Deadlines outside a step, and the evaluation query (R318, R322). -/

namespace Sys2Proof.Machine.Serving

open Sys2Proof.Machine.Architecture Sys2Proof.Machine.HostInterface

/-! Deadlines. -/

/-- A pass whose rounds change nothing changes nothing. -/
theorem overList_of_fixed {α : Type} {l : List α} {f : α → State → State} {s : State} (h : ∀ x ∈ l, f x s = s) :
    overList l f s = s :=
  overList_keeps (P := fun t => t = s) l f (fun x hx t ht => by rw [ht, h x hx]) s rfl

theorem exec_deadlineCheck {s : State} (hl : s.live = true) : exec .deadlineCheck s = .next (deadlineAll s) :=
  congrArg Host.Outcome.next (engine_of_live hl _)

/-- Operations outside a step that neither a deadline nor a stop ends stay in flight. -/
theorem deadlinePass_of_none {s : State}
    (h : ∀ o ∈ s.ops, o.alive = true → o.inStep = none → stopCodeAt o s.timeKc = none) (ctx : Nat) :
    deadlinePass s ctx = s := by
  refine overList_of_fixed fun o ho => ?_
  obtain ⟨hmem, hcond⟩ := List.mem_filter.mp ho
  simp only [Bool.and_eq_true, Option.isNone_iff_eq_none] at hcond
  obtain ⟨⟨-, halive⟩, hstep⟩ := hcond
  rw [h o hmem halive hstep]

theorem deadlineAll_of_none {s : State}
    (h : ∀ o ∈ s.ops, o.alive = true → o.inStep = none → stopCodeAt o s.timeKc = none) : deadlineAll s = s := by
  refine overList_of_fixed fun p _ => ?_
  rw [deadlinePass_of_none h, ite_self]

/-- A request past its instant that nothing has stopped ends with SRV_E_DEADLINE (R318). -/
theorem stopCodeAt_of_passed {o : Operation} {kc : Nat} (hstop : o.stop = none) (hdl : 0 < o.desc.deadlineUs)
    (passed : o.ringKc + o.desc.deadlineUs * 375 ≤ kc) : stopCodeAt o kc = some Code.SRV_E_DEADLINE := by
  have due : instantPassed o kc = true := by
    simp only [instantPassed, instant, if_neg (Nat.ne_of_gt hdl), passed, decide_true]
  simp only [stopCodeAt, hstop, due, if_true]

/-- The only operation in flight, outside a step, ends by the code that a stop or its deadline gives. -/
theorem deadlinePass_of_one {s : State} {o : Operation} {code : Nat} (hops : s.ops = [o]) (halive : o.alive = true)
    (hstep : o.inStep = none) (hcode : stopCodeAt o s.timeKc = some code) :
    deadlinePass s o.ctx = endRequest s o code := by
  simp [deadlinePass, overList, hops, halive, hstep, hcode]

/-- With partition 0 alone running, the check is its context's pass; a request that it ends starts no partition. -/
theorem deadlineAll_of_one {s : State} {o : Operation} {code : Nat} (hbusy : (s.part 0).busy = true)
    (hidle : (s.part 1).busy = false) (hctx : o.ctx = (s.part 0).ctx)
    (pass : deadlinePass s o.ctx = endRequest s o code) : deadlineAll s = endRequest s o code := by
  have idle : ((endRequest s o code).part 1).busy = false := (busy_of_runs (runs_endRequest s o code 1)).trans hidle
  simp only [deadlineAll, overList, List.foldl_cons, List.foldl_nil, hbusy, if_true, ← hctx, pass, idle,
    Bool.false_eq_true, if_false]

/-! The evaluation query. -/

theorem exec_srvEval {s : State} (hok : s.hostOk Reg.SRV_EVAL_CTRL_GO.off = true) (hready : s.ready = true) :
    exec .srvEval s = .next (srvEval s) :=
  congrArg Host.Outcome.next ((host_of_ok hok _).trans (keeper_of_ready hready _ _))

/-- What an answered query writes to SRV_EVAL_STATUS. -/
def evalAnswer (d : Nat) : List (Fld × Nat) :=
  [(Reg.SRV_EVAL_STATUS_VALID, 1), (Reg.SRV_EVAL_STATUS_DIVIDER, d), (Reg.SRV_EVAL_STATUS_CODE, 0)]

/-- The queries answered, with one more: a pair of partition and cap stands once. -/
def queriedAfter (s : State) (p cap : Nat) : List (Nat × Nat) :=
  s.pwr.queried.filter (fun q => q.1 != p || q.2 != cap) ++ [(p, cap)]

/-- A query of a cap within the limits is answered with the cap divider (R322, R363). -/
theorem srvEval_of_within {s : State} (hlo : 90 ≤ s.rd Reg.SRV_EVAL_CTRL_CAP_W)
    (hhi : s.rd Reg.SRV_EVAL_CTRL_CAP_W ≤ s.rd Reg.SRM_LIMITS0_CEIL_W) :
    srvEval s = { s.wrs (evalAnswer (capDivOf s (evalMasks s) (s.rd Reg.SRV_EVAL_CTRL_PART)
        (s.rd Reg.SRV_EVAL_CTRL_CAP_W))) with
      pwr := { s.pwr with queried := queriedAfter s (s.rd Reg.SRV_EVAL_CTRL_PART) (s.rd Reg.SRV_EVAL_CTRL_CAP_W) } } := by
  have inside : within 90 (s.rd Reg.SRM_LIMITS0_CEIL_W) (s.rd Reg.SRV_EVAL_CTRL_CAP_W) = true := by
    simp [within, hlo, hhi]
  unfold srvEval
  exact if_pos inside

/-- What an answered query changes and leaves. -/
theorem evalAnswered_effect {s t : State} {d p cap : Nat} (hd : d < 256)
    (ht : t = { s.wrs (evalAnswer d) with pwr := { s.pwr with queried := queriedAfter s p cap } }) :
    t.rd Reg.SRV_EVAL_STATUS_VALID = 1 ∧ t.rd Reg.SRV_EVAL_STATUS_DIVIDER = d ∧ t.rd Reg.SRV_EVAL_STATUS_CODE = 0 ∧
    (p, cap) ∈ t.pwr.queried ∧ t = { s with regs := t.regs, pwr := t.pwr } := by
  have distinct : ((evalAnswer d).map (·.1.key)).Nodup :=
    show [Reg.SRV_EVAL_STATUS_VALID.key, Reg.SRV_EVAL_STATUS_DIVIDER.key, Reg.SRV_EVAL_STATUS_CODE.key].Nodup by decide
  have shown {f : Fld} {v : Nat} (hf : (f, v) ∈ evalAnswer d) (hv : v < 2 ^ f.width) : t.rd f = v := by
    rw [ht]
    exact rd_wrs_mem_of_lt hf distinct hv s
  refine ⟨shown (by simp [evalAnswer]) (by decide), shown (by simp [evalAnswer]) hd,
    shown (by simp [evalAnswer]) (by decide), ?_, ?_⟩
  · simp [ht, queriedAfter]
  · obtain ⟨r, hr⟩ := wrs_shape (evalAnswer d) s
    rw [ht, hr]

/-- What a refused query writes there. -/
def evalRefusal : List (Fld × Nat) := [(Reg.SRV_EVAL_STATUS_VALID, 0), (Reg.SRV_EVAL_STATUS_CODE, Code.SRV_E_EVAL)]

/-- A query of another cap is refused (R322). -/
theorem srvEval_of_outside {s : State}
    (h : s.rd Reg.SRV_EVAL_CTRL_CAP_W < 90 ∨ s.rd Reg.SRM_LIMITS0_CEIL_W < s.rd Reg.SRV_EVAL_CTRL_CAP_W) :
    srvEval s = s.wrs evalRefusal := by
  have outside : within 90 (s.rd Reg.SRM_LIMITS0_CEIL_W) (s.rd Reg.SRV_EVAL_CTRL_CAP_W) = false := by
    simp [within]
    omega
  simp [srvEval, outside, evalRefusal]

theorem rd_evalRefusal (s : State) {f : Fld} {v : Nat} (hf : (f, v) ∈ evalRefusal) (hv : v < 2 ^ f.width) :
    (s.wrs evalRefusal).rd f = v :=
  rd_wrs_mem_of_lt hf (by decide) hv s

/-- Settles O46: the check ends what is past its instant and leaves the rest; a query is answered or refused by its cap. -/
theorem deadlinesAndEval : Obligations.DeadlinesAndEval := by
  unfold Obligations.DeadlinesAndEval
  refine ⟨fun s hl h => ?none, ?first, ?eval⟩
  case none =>
    rw [exec_deadlineCheck hl, deadlineAll_of_none h]
  case first =>
    intro o s hl hbusy hidle hops hctx halive hstep hstop hdl passed
    have pass := deadlinePass_of_one hops halive hstep (stopCodeAt_of_passed hstop hdl passed)
    rw [exec_deadlineCheck hl, deadlineAll_of_one hbusy hidle hctx pass]
  case eval =>
    rintro _ _ s hok hready rfl rfl
    refine ⟨fun hlo hhi hd => ?_, fun h => ?_⟩
    · exact ⟨_, (exec_srvEval hok hready).trans (congrArg _ (srvEval_of_within hlo hhi)), evalAnswered_effect hd rfl⟩
    · exact ⟨_, (exec_srvEval hok hready).trans (congrArg _ (srvEval_of_outside h)),
        rd_evalRefusal s (by simp [evalRefusal]) (by decide), rd_evalRefusal s (by simp [evalRefusal]) (by decide),
        regsKept_wrs s evalRefusal, onlyRegs_wrs s _⟩

end Sys2Proof.Machine.Serving
end

section
/-! The guest book: its commands, publication and eviction (R307 to R312). -/

namespace Sys2Proof.Machine.Serving

open Sys2Proof.Machine.Architecture Sys2Proof.Machine.HostInterface

/-! What a command's own field leaves alone. -/

theorem ctxImage_eq (s : State) (ctx : Nat) : ctxImage s ctx = (boundSlot s ctx).bind s.image := by
  unfold ctxImage boundSlot
  split <;> rfl

/-- A context's region follows from its record and its binding: a write below the block SEC leaves it alone. -/
theorem bookOf_wr {f : Fld} (h : f.key < 0x3000000 * 64) (s : State) (v ctx : Nat) :
    bookOf (s.wr f v) ctx = bookOf s ctx := by
  have image : ctxImage (s.wr f v) ctx = ctxImage s ctx := by
    rw [ctxImage_eq, ctxImage_eq, boundSlot_wr h]
    rfl
  simp only [bookOf, geo, image]
  rfl

theorem registered_wr {f : Fld} (h : f.key < 0x3000000 * 64) (s : State) (v ctx : Nat) :
    registered (s.wr f v) ctx = registered s ctx := by
  have state : (s.wr f v).rd (Reg.SEC_CTX_STATE ctx) = s.rd (Reg.SEC_CTX_STATE ctx) := rd_wr_ne s v (by
    simp only [Fld.key, Reg.SEC_CTX_STATE] at h ⊢
    omega)
  simp only [registered, ctxState, state]

/-! Commands of the selected context. -/

/-- The four commands, each on its own operation. -/
theorem exec_gbCmd {s : State} (hok : s.hostOk Reg.SRV_GB_CMD_OP.off = true) :
    exec .gbFlush s = .next (gbCmd s 0) ∧ exec .gbEnable s = .next (gbCmd s 1) ∧
    exec .gbDisable s = .next (gbCmd s 2) ∧ exec .gbOpRefused s = .next (gbCmd s 3) :=
  have reached (op : Nat) := congrArg Host.Outcome.next (host_of_ok hok (fun u => gbCmd u op))
  ⟨reached 0, reached 1, reached 2, reached 3⟩

/-- A command of the guest book has stored its OP and its code. -/
def gbCoded (s : State) (op ctx code : Nat) : State :=
  (s.wr Reg.SRV_GB_CMD_OP op).wr (Reg.SRV_GB_STATUS_CODE ctx) code

theorem gbCoded_effect {s t : State} {op ctx code : Nat} (hcode : code < 2 ^ 16) (ht : t = gbCoded s op ctx code) :
    t.rd (Reg.SRV_GB_STATUS_CODE ctx) = code ∧
    s.regsKept t [Reg.SRV_GB_CMD_OP, Reg.SRV_GB_STATUS_CODE ctx] ∧ s.onlyRegs t := by
  subst ht
  refine ⟨?_, regsKept_trans (regsKept_mono (by simp) (regsKept_wr s Reg.SRV_GB_CMD_OP op))
    (regsKept_mono (by simp) (regsKept_wr _ (Reg.SRV_GB_STATUS_CODE ctx) code)),
    onlyRegs_trans (onlyRegs_wr s _ op) (onlyRegs_wr _ _ code)⟩
  exact (rd_wr_same _ _ code).trans (Nat.mod_eq_of_lt hcode)

section
variable {s : State} {ctx : Nat} (hsel : ctx = s.rd Reg.SRV_GB_SEL_CONTEXT) (hready : s.ready = true)
include hsel hready

/-- With Keeper ready a command goes by the selected context's region and registration. -/
theorem gbCmd_of_ready (op : Nat) : gbCmd s op = match bookOf s ctx with
    | none => gbCoded s op ctx Code.SRV_E_GB
    | some b =>
      if !registered s ctx || decide (2 < op) then gbCoded s op ctx Code.SRV_E_GB
      else if op = 0 then flushLoop ctx b b.e (gbCoded s op ctx 0)
      else { gbCoded s op ctx 0 with gbOn := SMap.set (fun _ => 0) s.gbOn ctx (2 - op) } := by
  have selected : (s.wr Reg.SRV_GB_CMD_OP op).rd Reg.SRV_GB_SEL_CONTEXT = ctx :=
    (rd_wr_ne s op (by decide)).trans hsel.symm
  have ready : (s.wr Reg.SRV_GB_CMD_OP op).ready = true := (ready_wr (by decide) s op).trans hready
  rw [gbCmd, selected]
  refine (keeper_of_ready ready _ _).trans ?_
  rw [bookOf_wr (by decide), registered_wr (by decide)]
  cases bookOf s ctx <;> rfl

/-- A context without a region refuses every command, and OP 3 is refused (R307). -/
theorem gbCmd_of_refused {op : Nat} (h : bookOf s ctx = none ∨ op = 3) : gbCmd s op = gbCoded s op ctx Code.SRV_E_GB := by
  rw [gbCmd_of_ready hsel hready]
  rcases h with h | rfl
  · rw [h]
  · cases bookOf s ctx <;> simp

variable {b : Book} (hb : bookOf s ctx = some b) (hreg : registered s ctx = true)
include hb hreg

/-- A registered context's region is flushed leaf by leaf (R311). -/
theorem gbCmd_of_flush : gbCmd s 0 = flushLoop ctx b b.e (gbCoded s 0 ctx 0) := by
  simp [gbCmd_of_ready hsel hready, hb, hreg]

/-- A registered context with a region is enabled by OP 1 and disabled by OP 2 (R307). -/
theorem gbCmd_of_switch {op : Nat} (hop : op = 1 ∨ op = 2) :
    gbCmd s op = { gbCoded s op ctx 0 with gbOn := SMap.set (fun _ => 0) s.gbOn ctx (2 - op) } := by
  rcases hop with rfl | rfl <;> simp [gbCmd_of_ready hsel hready, hb, hreg]

end

/-- What an enable or a disable changes and leaves. -/
theorem gbSwitched_effect {s t : State} {op ctx v : Nat}
    (ht : t = { gbCoded s op ctx 0 with gbOn := SMap.set (fun _ => 0) s.gbOn ctx v }) :
    SMap.get (fun _ => 0) t.gbOn ctx = v ∧ t.rd (Reg.SRV_GB_STATUS_CODE ctx) = 0 ∧
    s.regsKept t [Reg.SRV_GB_CMD_OP, Reg.SRV_GB_STATUS_CODE ctx] ∧ t = { s with regs := t.regs, gbOn := t.gbOn } := by
  obtain ⟨hcode, hkept, -⟩ := gbCoded_effect (s := s) (op := op) (ctx := ctx) (code := 0) (by decide) rfl
  subst ht
  exact ⟨SMap.get_set_same _ _ _ _, hcode, hkept, rfl⟩

/-! Publication. -/

theorem exec_publication {s : State} (hl : s.live = true) {n : Nat} {o : Operation} (ho : s.op n = some o) :
    exec (.publication n) s = .next (publishOp s o) := by
  refine congrArg Host.Outcome.next ((engine_of_live hl _).trans ?_)
  rw [ho]

/-- A request whose committed length completes its next block passes over it where the sequence shares it, and else
publishes it (R310). -/
theorem publishOp_of_due {s : State} {o : Operation} {j pa : Nat} (hj : o.publish = some j) (hpa : o.seqPa = some pa)
    (prompt : j < promptBlocks o) (length : 64 * (j + 1) ≤ o.length) (on : gbEnabled s o.ctx = true)
    (hrun : (runPart s o.ctx).isSome = true) :
    publishOp s o = if j < s.mnat (pa + 22) 2 then
        s.updOp o.id (fun x => { x with publish := some (s.mnat (pa + 22) 2) })
      else (publishBlock s o pa j).2.updOp o.id (fun x => { x with publish := (publishBlock s o pa j).1 }) := by
  have due : (decide (j < promptBlocks o) && decide (64 * (j + 1) ≤ o.length) && gbEnabled s o.ctx &&
      (runPart s o.ctx).isSome) = true := by simp [prompt, length, on, hrun]
  simp only [publishOp, hj, hpa, due, if_true]

/-! Eviction. -/

theorem exec_eviction {s : State} (hl : s.live = true) (ctx : Nat) :
    exec (.eviction ctx) s = .next (evictionOp s ctx) :=
  congrArg Host.Outcome.next (engine_of_live hl _)

theorem evictionOp_of_noRegion {s : State} {ctx : Nat} (hb : bookOf s ctx = none) : evictionOp s ctx = s := by
  simp only [evictionOp, hb]

section
variable {s : State} {ctx : Nat} {b : Book} (hb : bookOf s ctx = some b)
include hb

/-- An eviction that a full ring held is completed (R311). -/
theorem evictionOp_of_held {i : Nat} (h : (List.range b.e).find? (fun i => (readHead s ctx b i).state == 3) = some i) :
    evictionOp s ctx = (evictEntry s ctx b i).2 := by
  simp only [evictionOp, hb, h, Option.isSome_some, if_true]

variable (hheld : (List.range b.e).find? (fun i => (readHead s ctx b i).state == 3) = none)
include hheld

/-- Within MAX_FRAMES, or with none set, nothing is evicted. -/
theorem evictionOp_of_within (h : s.rd (Reg.SRV_GB_CFG_MAX_FRAMES ctx) = 0 ∨
    gbHeld s ctx ≤ s.rd (Reg.SRV_GB_CFG_MAX_FRAMES ctx)) : evictionOp s ctx = s := by
  have within : (s.rd (Reg.SRV_GB_CFG_MAX_FRAMES ctx) != 0 &&
      decide (s.rd (Reg.SRV_GB_CFG_MAX_FRAMES ctx) < gbHeld s ctx)) = false := by
    rcases h with h | h <;> simp [h]
  simp [evictionOp, hb, hheld, within]

/-- Above MAX_FRAMES the oldest leaf goes. -/
theorem evictionOp_of_above {i : Nat} (hset : 0 < s.rd (Reg.SRV_GB_CFG_MAX_FRAMES ctx))
    (above : s.rd (Reg.SRV_GB_CFG_MAX_FRAMES ctx) < gbHeld s ctx)
    (hleaf : oldestLeaf s ctx b (List.range b.e) = some i) : evictionOp s ctx = (evictEntry s ctx b i).2 := by
  have exceeds : (s.rd (Reg.SRV_GB_CFG_MAX_FRAMES ctx) != 0 &&
      decide (s.rd (Reg.SRV_GB_CFG_MAX_FRAMES ctx) < gbHeld s ctx)) = true := by
    simp [above, Nat.ne_of_gt hset]
  simp [evictionOp, hb, hheld, exceeds, hleaf]

end

/-- Settles O45: a command goes by the selected context's region; publication and eviction are a live part's events, and
each clause's conditions pick the branch that its lemma states. -/
theorem guestBook : Obligations.GuestBook := by
  unfold Obligations.GuestBook
  refine ⟨?commands, ?refused, ?publication, ?noRegion, ?eviction⟩
  case commands =>
    intro b ctx s hsel _ hok hready hb hreg
    obtain ⟨flush, enable, disable, -⟩ := exec_gbCmd hok
    have switch {op : Nat} (hop : op = 1 ∨ op = 2) := gbCmd_of_switch hsel hready hb hreg hop
    exact ⟨⟨_, enable.trans (congrArg _ (switch (.inl rfl))), gbSwitched_effect rfl⟩,
      ⟨_, disable.trans (congrArg _ (switch (.inr rfl))), gbSwitched_effect rfl⟩,
      flush.trans (congrArg _ (gbCmd_of_flush hsel hready hb hreg))⟩
  case refused =>
    intro c ctx s hsel _ hok hready hc
    obtain ⟨flush, enable, disable, third⟩ := exec_gbCmd hok
    have refused {op : Nat} (h : bookOf s ctx = none ∨ op = 3) (he : exec c s = .next (gbCmd s op)) :=
      he.trans (congrArg Host.Outcome.next (gbCmd_of_refused hsel hready h))
    have coded (op : Nat) := gbCoded_effect (s := s) (op := op) (ctx := ctx) (code := Code.SRV_E_GB) (by decide) rfl
    rcases hc with rfl | ⟨rfl | rfl | rfl, hb⟩
    · exact ⟨_, refused (.inr rfl) third, coded 3⟩
    · exact ⟨_, refused (.inl hb) flush, coded 0⟩
    · exact ⟨_, refused (.inl hb) enable, coded 1⟩
    · exact ⟨_, refused (.inl hb) disable, coded 2⟩
  case publication =>
    intro n j pa o s hl ho hj hpa prompt length on hrun
    rw [exec_publication hl ho, publishOp_of_due hj hpa prompt length on hrun]
    exact ⟨fun shared => by rw [if_pos shared], fun next => by rw [if_neg (Nat.not_lt.mpr next)]⟩
  case noRegion =>
    intro ctx s hl hb
    rw [exec_eviction hl, evictionOp_of_noRegion hb]
  case eviction =>
    intro ctx b s hl hb
    rw [exec_eviction hl]
    exact ⟨fun i h => congrArg _ (evictionOp_of_held hb h),
      fun hheld => ⟨fun h => congrArg _ (evictionOp_of_within hb hheld h),
        fun i hset above hleaf => congrArg _ (evictionOp_of_above hb hheld hset above hleaf)⟩⟩

end Sys2Proof.Machine.Serving
end
